-- ==== Sys2Proof/Word.lean ====
section
/-!
DEFINITION. The word and byte types of the WLN-4840, tables held as plain data, and the plainest
arithmetic on register fields (spec/01_register_pages.md R15, R24).
-/
namespace Sys2Proof

/-- A 32-bit register word (R15). -/
abbrev Word := BitVec 32

/-- One byte of memory. -/
abbrev Byte := BitVec 8

/-- A sparse table as plain data: pairs of an index and an entry, in rising index order. -/
abbrev Tab (α : Type) := List (Nat × α)

/-- The field of `n` bits at bit `lo` of a register word, as a number. -/
def fld (w : Word) (lo n : Nat) : Nat := w.toNat / 2 ^ lo % 2 ^ n

/-- Bit `i` of a register word. -/
def bit (w : Word) (i : Nat) : Bool := w.getLsbD i

/-- `w` with the field of `n` bits at bit `lo` set to `v` modulo `2 ^ n`. -/
def setFld (w : Word) (lo n v : Nat) : Word :=
  BitVec.ofNat 32 (w.toNat - fld w lo n * 2 ^ lo + v % 2 ^ n * 2 ^ lo)

/-- A word from a number, modulo 2^32. -/
def word (n : Nat) : Word := BitVec.ofNat 32 n

/-- A Boolean as one bit of a number. -/
def b2n (b : Bool) : Nat := if b then 1 else 0

/-- The signed number that a word holds in two's complement. -/
def s32 (w : Word) : Int := w.toInt

end Sys2Proof
end

