-- ==== Sys2Proof/Syntax.lean ====
section
/-!
DEFINITION. The commands of the device: one constructor for each row of spec/opcode_table.json, with the operands that
the row's rule names. `tid` is the TID of the access that carries a command of software (spec/12_tenants.md R286);
`tm` is the instant, in ME cycles, at which a timed event of the device takes place (assumption 1).
-/
namespace Sys2Proof

/-- What the receiving PCS and MAC report of a frame besides its octets (spec/14_network_ports.md R359). -/
inductive RxError where
  | none | fcs | code | fragment
  deriving DecidableEq, Repr

/-- The commands of the WLN-4840. -/
inductive Instr where
  -- Registers, interrupts and mailboxes (01)
  /-- REGISTER_WRITE (R24): A write to a register that has no row of its own takes effect according to the types of its fields. -/
  | registerWrite (tid size addr : Nat) (data : BitVec 64)
  /-- SOFT_RESET (R20): Writing SRST = 1 starts a soft reset of the block, which holds accesses to its block-specific offsets until it completes. -/
  | softReset (tid page : Nat)
  /-- SOFT_RESET_COMPLETE (R20): A soft reset completes within 64 fabric cycles, SRST_BUSY clears and the held accesses are performed. -/
  | softResetComplete (page tm : Nat)
  /-- BLOCK_ENABLE (R19): A write of CTRL.EN enables or disables a block, and EN_ACK follows once the block has started or stopped. -/
  | blockEnable (tid page : Nat) (data : Word)
  /-- IRQ_FORCE (R19): Writing 1 to an IRQ_FORCE bit sets the same IRQ_STAT bit. -/
  | irqForce (tid page : Nat) (data : Word)
  /-- GROUP_LOCK (R27): Writing 1 to a LOCK bit locks its field group until the next POR or SYS reset. -/
  | groupLock (tid page : Nat) (data : Word)
  /-- TID_OWNER_WRITE (R23): TID 0 changes the owning tenant of a page, with effect from the next fabric cycle. -/
  | tidOwnerWrite (tid page : Nat) (data : Word)
  /-- SRC_CFG_WRITE (R36): TID 0 routes an interrupt source to a context with a priority; the routing is checked against ownership and applies from the next fabric cycle. -/
  | srcCfgWrite (tid src : Nat) (data : Word)
  /-- INTERRUPT_LINE_UPDATE (R37): A change of a source's state reaches the interrupt line of its target hart within 6 fabric cycles. -/
  | interruptLineUpdate (tm : Nat)
  /-- CLAIM_READ (R38): A read of CLAIM returns and claims the highest-priority pending source of the context, or 0 if there is none. -/
  | claimRead (tid ctx : Nat)
  /-- CLAIM_COMPLETE (R38): A write of a source number to CLAIM completes that source, which pends again if it is still asserted. -/
  | claimComplete (tid ctx : Nat) (data : Word)
  /-- MAILBOX_RELEASE (R30): A write of MBX_SEL with CODE 0 releases any held snapshot and makes the writer the mailbox owner. -/
  | mailboxRelease (tid page index : Nat)
  /-- MAILBOX_DONE (R29): The snapshot owner writes DONE to release the held snapshot. -/
  | mailboxDone (tid page : Nat)
  /-- MAILBOX_CAPTURE (R29): The selected wide value is captured into MBX_DATA0–5 and VALID is set within 8 fabric cycles of the selector write. -/
  | mailboxCapture (page tm : Nat)
  /-- UNDEFINED_SELECTOR (R30): An MBX_SEL write with a selector code or index that the page does not define is accepted, sets SEL_BAD and returns no snapshot. -/
  | undefinedSelector (tid page : Nat) (sel : Word)
  /-- EVENT_STAMP_SNAPSHOT (R42): Selector 0x0001 of IRQ page 1 snapshots the event stamp of a context. -/
  | eventStampSnapshot (tid ctx : Nat)
  /-- IMAGE_DIGEST_SNAPSHOT (R160): Selector 0x0001 of STR page 3 returns a part of SHA3-512 of the loaded image's body. -/
  | imageDigestSnapshot (tid index : Nat)
  /-- SUBSCRIPTION_COUNTERS_SNAPSHOT (R185): Selector 0x0010 + (e >> 8) of HOP page 3 returns the counters of Hopper subscription entry e. -/
  | subscriptionCountersSnapshot (tid entry : Nat)
  /-- SUBSTITUTION_MAP_SNAPSHOT (R185): Selector 0x0020 of HOP page 3 returns a part of the substitution map of the latest seal. -/
  | substitutionMapSnapshot (tid index : Nat)
  /-- PUBLICATION_SNAPSHOT (R224): Selector 0x0010 of GSE page 0 returns the stNum, sqNum, next transmission tick and counters of a publication. -/
  | publicationSnapshot (tid pub : Nat)
  /-- SUBSCRIPTION_STATE_SNAPSHOT (R225): Selector 0x0010 + (s >> 8) of GSE page 1 returns the sequence numbers, state and counters of a GOOSE subscription. -/
  | subscriptionStateSnapshot (tid sub : Nat)
  /-- ENERGY_SNAPSHOT (R247): Selector 0x0100 + a of QE page 1 returns an energy accumulator with its wrap count, the tick of its last step and the MISSED count. -/
  | energySnapshot (tid acc point : Nat)
  /-- PULSE_SNAPSHOT (R248): Selector 0x0001 of the PUL page returns the counter or residue, the current increment and K_RES of a pulse output. -/
  | pulseSnapshot (tid output : Nat)
  /-- RECORD_TABLE_SNAPSHOT (R263): Selector 0x0001 of a CAP page returns an entry of the recorder's record table. -/
  | recordTableSnapshot (tid rec index : Nat)
  /-- ELEMENT_SNAPSHOT (R285): Selector 0x0001 of LGR page 1 returns U, V, the flags and the timer state of the element named by ONL_SEL. -/
  | elementSnapshot (tid : Nat)
  /-- MIGRATION_TICKS_SNAPSHOT (R311): Selector 0x0001 of a TEN page returns the freeze tick, the latest thaw tick and LAST_STAMP. -/
  | migrationTicksSnapshot (tid tenant : Nat)
  /-- DIGEST_SNAPSHOT (R342): Selector 0x0001 of PAIR page 1 returns the own and peer digests of a tenant for the latest compared tick. -/
  | digestSnapshot (tid tenant : Nat)
  /-- PEER_SNAPSHOT (R342): Selector 0x0002 of PAIR page 1 returns the peer's CFG word, RUN mask, FLAGS and latest DIGEST tick. -/
  | peerSnapshot (tid : Nat)
  /-- NODE_SNAPSHOT (R369): Selector 0x0010 + g of the RED page returns an entry of the node table of pair g. -/
  | nodeSnapshot (tid pair node : Nat)
  /-- TICK_SNAPSHOT (R387): Selector 0x0002 of TIME page 0 returns the TB0 tick count, the latest tick instant and the last tick interval. -/
  | tickSnapshot (tid : Nat)
  /-- PPS_IN_SNAPSHOT (R387): Selector 0x0003 of TIME page 0 returns the latest stamp and statistics of a PPS input. -/
  | ppsInSnapshot (tid input : Nat)
  /-- TIME_BASE_SNAPSHOT (R388): Selector 0x0001 of TIME page 1 returns the value, state and RATE of a time base, captured in one fabric cycle. -/
  | timeBaseSnapshot (tid tb : Nat)
  /-- MEASUREMENT_SNAPSHOT (R420): Selector 0x0001 of the VLT page returns a part of a measurement register. -/
  | measurementSnapshot (tid index : Nat)
  /-- SLOT_SNAPSHOT (R420): Selector 0x0002 of the VLT page returns the attributes of a key slot. -/
  | slotSnapshot (tid slot : Nat)
  -- Indirect and fabric accesses (01, 02, 12)
  /-- INDIRECT_WRITE (R31): A write to IND_DATA starts a slow-domain write to IND_ADDR and sets BUSY. -/
  | indirectWrite (tid page : Nat) (data : Word)
  /-- INDIRECT_READ (R31): Writing RD = 1 starts a slow-domain read of IND_ADDR and sets BUSY. -/
  | indirectRead (tid page : Nat) (data : Word)
  /-- INDIRECT_DONE (R31): A slow-domain access completes: BUSY clears, read data lands in IND_DATA and IND_ADDR advances by STEP. -/
  | indirectDone (page tm : Nat)
  /-- FABRIC_ENGINE_ACCESS (R56): A fabric access to engine memory or cluster memory arrives and is held until a free bank cycle or entry serves it. -/
  | fabricEngineAccess (tid addr len : Nat) (write : Option (List Byte)) (tm : Nat)
  /-- FABRIC_ACCESS_SERVED (R56): A held fabric access to engine or cluster memory is served in a free cycle, within the bound of one tick plus 16 fabric cycles. -/
  | fabricAccessServed (index tm : Nat)
  /-- DDR_ACCESS (R288): An LPDDR4X access by a tenant is checked against the tenant's DDR windows and refused with an access error if it lies outside them. -/
  | ddrAccess (tid addr len : Nat) (write : Option (List Byte))
  -- The tick (02, 03, 06, 08)
  /-- TICK_EDGE (R47): A tick edge begins a tick: the engines' ME cycle counters reset and the per-tick sequence starts. -/
  | tickEdge (tm : Nat)
  /-- PARTITION_TABLE_APPLY (R94): A written partition table is checked and applied at the next tick edge, or at once on an idle engine. -/
  | partitionTableApply (engine tm : Nat)
  /-- SLOT_TABLE_APPLY (R60): A slot table written while engines run takes effect at the next tick edge. -/
  | slotTableApply (cluster tm : Nat)
  /-- PUB_POINT_WRITE (R49): A write of PUB_POINT is range-checked for the current rate and is refused with PUB_RANGE if it is outside. -/
  | pubPointWrite (tid : Nat) (data : Word)
  /-- PUB_POINT_APPLY (R49): An accepted PUB_POINT takes effect at the next tick edge. -/
  | pubPointApply (tm : Nat)
  /-- PARTITION_WINDOW_OPEN (R89): At the first ME cycle of a valid window the engine clears its registers and loop state, cancels redirects and executes the entry bundle. -/
  | partitionWindowOpen (engine tm : Nat)
  /-- WINDOW_FENCE (R90): At PT_END, or at the schedulable window end, the fence stops a partition that would issue further bundles. -/
  | windowFence (engine tm : Nat)
  /-- SEAL_POINT (R175): At ME cycle 2,400 the Hopper seals sample tick n − L and decides every slot as received, substituted or invalid. -/
  | sealPoint (tm : Nat)
  /-- SEAL_COMPLETE (R190): By ME cycle 2,912 the seal is complete, and the Decimation chain, the Quantity engine and the Capture unit take the frame. -/
  | sealComplete (tm : Nat)
  /-- FLIP (R206): At the publish point the Carafe flips the publish table and hands the new table to every consumer. -/
  | flip (tm : Nat)
  -- Engine operations (03, 04)
  /-- BUNDLE_FETCH (R78): The engine fetches the next bundle by next_pc and checks it for pending overlays, bounds, ECC and the in-flight count. -/
  | bundleFetch (engine tm : Nat)
  /-- NOP (R104): A NOP in any slot writes nothing and occupies nothing. -/
  | nop (engine slot : Nat) (qp : BitVec 3)
  /-- FADD (R112): A MAC operation that adds two fp32 vectors lane by lane. -/
  | fadd (engine slot : Nat) (qp : BitVec 3) (vd va vb vc : BitVec 6)
  /-- FSUB (R112): A MAC operation that subtracts two fp32 vectors lane by lane. -/
  | fsub (engine slot : Nat) (qp : BitVec 3) (vd va vb vc : BitVec 6)
  /-- FMUL (R112): A MAC operation that multiplies two fp32 vectors lane by lane. -/
  | fmul (engine slot : Nat) (qp : BitVec 3) (vd va vb vc : BitVec 6)
  /-- FMA (R112): A MAC operation that computes a × b + c with one rounding. -/
  | fma (engine slot : Nat) (qp : BitVec 3) (vd va vb vc : BitVec 6)
  /-- FMS (R112): A MAC operation that computes a × b − c with one rounding. -/
  | fms (engine slot : Nat) (qp : BitVec 3) (vd va vb vc : BitVec 6)
  /-- FNMA (R112): A MAC operation that computes c − a × b with one rounding. -/
  | fnma (engine slot : Nat) (qp : BitVec 3) (vd va vb vc : BitVec 6)
  /-- FHSUM (R112): A MAC operation that writes the fixed-order horizontal sum of a vector into every lane. -/
  | fhsum (engine slot : Nat) (qp : BitVec 3) (vd va vb vc : BitVec 6)
  /-- CVTF (R112): A MAC operation that converts int32 lanes to fp32. -/
  | cvtf (engine slot : Nat) (qp : BitVec 3) (vd va vb vc : BitVec 6)
  /-- CVTI (R113): A MAC operation that converts fp32 lanes to int32, rounded and saturating. -/
  | cvti (engine slot : Nat) (qp : BitVec 3) (vd va vb vc : BitVec 6)
  /-- IMUL (R112): A MAC operation that takes the low 32 bits of an int32 product. -/
  | imul (engine slot : Nat) (qp : BitVec 3) (vd va vb vc : BitVec 6)
  /-- IMADD (R112): A MAC operation that takes the low 32 bits of a × b + c. -/
  | imadd (engine slot : Nat) (qp : BitVec 3) (vd va vb vc : BitVec 6)
  /-- IMULH (R112): A MAC operation that takes the high 32 bits of a signed 64-bit product. -/
  | imulh (engine slot : Nat) (qp : BitVec 3) (vd va vb vc : BitVec 6)
  /-- QMUL (R113): A MAC operation that computes a Q31 product, rounded and saturating. -/
  | qmul (engine slot : Nat) (qp : BitVec 3) (vd va vb vc : BitVec 6)
  /-- AOP (R116): An ALU scalar register operation whose function FN selects. -/
  | aop (engine : Nat) (qp : BitVec 3) (ad aa ab fn : BitVec 5)
  /-- ADDI (R115): An ALU operation that adds an immediate to a scalar register. -/
  | addi (engine : Nat) (qp : BitVec 3) (ad aa : BitVec 5) (imm : BitVec 13)
  /-- ANDI (R115): An ALU operation that ANDs an immediate with a scalar register. -/
  | andi (engine : Nat) (qp : BitVec 3) (ad aa : BitVec 5) (imm : BitVec 13)
  /-- ORI (R115): An ALU operation that ORs an immediate with a scalar register. -/
  | ori (engine : Nat) (qp : BitVec 3) (ad aa : BitVec 5) (imm : BitVec 13)
  /-- XORI (R115): An ALU operation that XORs an immediate with a scalar register. -/
  | xori (engine : Nat) (qp : BitVec 3) (ad aa : BitVec 5) (imm : BitVec 13)
  /-- SHLI (R115): An ALU operation that shifts a scalar register left by an immediate. -/
  | shli (engine : Nat) (qp : BitVec 3) (ad aa : BitVec 5) (imm : BitVec 13)
  /-- SHRI (R115): An ALU operation that shifts a scalar register right logically by an immediate. -/
  | shri (engine : Nat) (qp : BitVec 3) (ad aa : BitVec 5) (imm : BitVec 13)
  /-- SARI (R115): An ALU operation that shifts a scalar register right arithmetically by an immediate. -/
  | sari (engine : Nat) (qp : BitVec 3) (ad aa : BitVec 5) (imm : BitVec 13)
  /-- SLTI (R115): An ALU operation that compares a scalar register with an immediate, signed. -/
  | slti (engine : Nat) (qp : BitVec 3) (ad aa : BitVec 5) (imm : BitVec 13)
  /-- LI (R117): An ALU operation that loads a 16-bit immediate into a scalar register by SEL. -/
  | li (engine : Nat) (qp : BitVec 3) (ad : BitVec 5) (sel : BitVec 2) (imm : BitVec 16)
  /-- VOP (R118): An ALU vector operation whose function FN selects. -/
  | vop (engine : Nat) (qp : BitVec 3) (fd fa fb : BitVec 6) (fn : BitVec 5)
  /-- VCMP (R119): An ALU operation that compares vector lanes into a predicate register. -/
  | vcmp (engine : Nat) (qp : BitVec 3) (fd fa fb : BitVec 6) (fn : BitVec 5)
  /-- VSEL (R115): An ALU operation that selects vector lanes by a predicate. -/
  | vsel (engine : Nat) (qp : BitVec 3) (fd fa fb : BitVec 6) (fn : BitVec 5)
  /-- VSPLAT (R115): An ALU operation that copies a scalar into the vector lanes. -/
  | vsplat (engine : Nat) (qp : BitVec 3) (fd fa fb : BitVec 6) (fn : BitVec 5)
  /-- VEXT (R115): An ALU operation that extracts one vector lane into a scalar register. -/
  | vext (engine : Nat) (qp : BitVec 3) (fd fa fb : BitVec 6) (fn : BitVec 5)
  /-- TLU (R130): An ALU operation that applies a table function per lane. -/
  | tlu (engine : Nat) (qp : BitVec 3) (fd fa fb : BitVec 6) (fn : BitVec 5)
  /-- QOP (R120): An ALU operation that combines predicate registers by FN. -/
  | qop (engine : Nat) (qp : BitVec 3) (fd fa fb : BitVec 6) (fn : BitVec 5)
  /-- QSET (R115): An ALU operation that sets a predicate register to an immediate. -/
  | qset (engine : Nat) (qp : BitVec 3) (fd fa fb : BitVec 6) (fn : BitVec 5)
  /-- QFROMA (R115): An ALU operation that moves scalar bits into a predicate register. -/
  | qfroma (engine : Nat) (qp : BitVec 3) (fd fa fb : BitVec 6) (fn : BitVec 5)
  /-- AFROMQ (R115): An ALU operation that moves a predicate register into a scalar register. -/
  | afromq (engine : Nat) (qp : BitVec 3) (fd fa fb : BitVec 6) (fn : BitVec 5)
  /-- ACMP (R119): An ALU operation that compares two scalars into all bits of a predicate register. -/
  | acmp (engine : Nat) (qp : BitVec 3) (fd fa fb : BitVec 6) (fn : BitVec 5)
  /-- LDA (R121): An LSU operation that loads a word into a scalar register. -/
  | lda (engine : Nat) (qp : BitVec 3) (rg : BitVec 6) (ab : BitVec 5) (imm : BitVec 12)
  /-- LDV (R121): An LSU operation that loads 16 bytes into a vector register. -/
  | ldv (engine : Nat) (qp : BitVec 3) (rg : BitVec 6) (ab : BitVec 5) (imm : BitVec 12)
  /-- LDB (R121): An LSU operation that loads a word into every lane of a vector register. -/
  | ldb (engine : Nat) (qp : BitVec 3) (rg : BitVec 6) (ab : BitVec 5) (imm : BitVec 12)
  /-- STA (R121): An LSU operation that stores a scalar word. -/
  | sta (engine : Nat) (qp : BitVec 3) (rg : BitVec 6) (ab : BitVec 5) (imm : BitVec 12)
  /-- STV (R121): An LSU operation that stores the predicated lanes of a vector register. -/
  | stv (engine : Nat) (qp : BitVec 3) (rg : BitVec 6) (ab : BitVec 5) (imm : BitVec 12)
  /-- LDVP (R122): An LSU operation that loads a vector and post-increments the base register. -/
  | ldvp (engine : Nat) (qp : BitVec 3) (rg : BitVec 6) (ab : BitVec 5) (imm : BitVec 12)
  /-- STVP (R122): An LSU operation that stores a vector and post-increments the base register. -/
  | stvp (engine : Nat) (qp : BitVec 3) (rg : BitVec 6) (ab : BitVec 5) (imm : BitVec 12)
  /-- CLRD (R124): An XFER operation that reads 64 bytes of cluster memory into DMEM. -/
  | clrd (engine : Nat) (qp : BitVec 3) (al ar : BitVec 5) (imm7 : BitVec 7) (imm6 : BitVec 6)
  /-- CLWR (R124): An XFER operation that writes 64 bytes from DMEM to cluster memory. -/
  | clwr (engine : Nat) (qp : BitVec 3) (al ar : BitVec 5) (imm7 : BitVec 7) (imm6 : BitVec 6)
  /-- OVL (R84): An XFER operation that overlays 64 bytes of cluster memory into an IMEM line and makes the line pending. -/
  | ovl (engine : Nat) (qp : BitVec 3) (al ar : BitVec 5) (imm7 : BitVec 7) (imm6 : BitVec 6)
  /-- HRD (R61): An XFER operation that reads a 64-byte block of the sealed frame into DMEM. -/
  | hrd (engine : Nat) (qp : BitVec 3) (al ar : BitVec 5) (imm7 : BitVec 7) (imm6 : BitVec 6)
  /-- DEP (R124): An XFER operation that deposits 64 bytes from DMEM into the engine's Carafe port. -/
  | dep (engine : Nat) (qp : BitVec 3) (al ar : BitVec 5) (imm7 : BitVec 7) (imm6 : BitVec 6)
  /-- BR (R127): A CTL operation that branches to an immediate target. -/
  | br (engine : Nat) (qp : BitVec 3) (tgt : BitVec 13)
  /-- BRA (R127): A CTL operation that branches to the target held in a scalar register. -/
  | bra (engine : Nat) (qp : BitVec 3) (aa : BitVec 5)
  /-- WAIT (R76): A CTL operation that stalls issue until an immediate ME cycle. -/
  | waitUntil (engine : Nat) (qp : BitVec 3) (n : BitVec 20)
  /-- WAITA (R127): A CTL operation that stalls issue until the ME cycle held in a scalar register. -/
  | waita (engine : Nat) (qp : BitVec 3) (aa : BitVec 5)
  /-- LOOP (R77): A CTL operation that opens a hardware loop with an immediate count. -/
  | loopOpen (engine : Nat) (qp : BitVec 3) (cm1 : BitVec 12) (len : BitVec 11)
  /-- PEND (R91): A CTL operation that ends the partition for the tick. -/
  | pend (engine : Nat) (qp : BitVec 3)
  -- Engine events (02, 03, 08)
  /-- ILLEGAL_OPERATION (R135): An operation with an encoding that is not listed executes as a NOP, sets ILLEGAL and is a violation. -/
  | illegalOperation (engine slot : Nat) (w : Word)
  /-- REGISTER_WRITEBACK (R71): An operation's result is written into its destination register at issue plus its latency. -/
  | registerWriteback (engine tm : Nat)
  /-- BRANCH_REDIRECT (R75): A taken branch redirects the bundle executed three ME cycles after its issue. -/
  | branchRedirect (engine tm : Nat)
  /-- WAIT_END (R76): The target ME cycle of a wait arrives and issue resumes, applying the redirects that fell due during the wait. -/
  | waitEnd (engine tm : Nat)
  /-- CLUSTER_BANK_ACCESS (R58): A cluster-memory operation accesses its bank in its slot entry's fabric cycle. -/
  | clusterBankAccess (cluster tm : Nat)
  /-- CLRD_LANDING (R52): A cluster-memory read lands in DMEM at its fixed latency. -/
  | clrdLanding (engine tm : Nat)
  /-- HRD_LANDING (R52): A Hopper read lands in DMEM 95 ME cycles after issue. -/
  | hrdLanding (engine tm : Nat)
  /-- OVERLAY_LANDING (R84): An overlay writes its IMEM line, and the line stops being pending. -/
  | overlayLanding (engine tm : Nat)
  /-- DEPOSIT_ACCEPT (R203): At issue plus 32 a deposit is checked for ownership and takes a block place in its Carafe port. -/
  | depositAccept (engine tm : Nat)
  /-- CARAFE_DRAIN (R204): The Carafe drains one block per fabric cycle from its ports into the back table, in rotation. -/
  | carafeDrain (tm : Nat)
  /-- SCRUB_ROW (R97): While the engine is idle with scrubbing enabled, one row per bank is read, corrected and rewritten. -/
  | scrubRow (unit row tm : Nat)
  -- String loader and reshape (05)
  /-- STRING_LOAD (R151): LOAD checks a string image and writes its code, data and alternate-0 tables into the named engines. -/
  | stringLoad (tid : Nat)
  /-- LD_VERIFY (R150): VERIFY performs the checks of a string image without loading it. -/
  | ldVerify (tid : Nat)
  /-- LD_ABORT (R151): ABORT stops a load in its write phase with E_ABORTED. -/
  | ldAbort (tid : Nat)
  /-- LOAD_DONE (R151): A string load completes its write phase and raises LOAD_DONE. -/
  | loadDone (tm : Nat)
  /-- RESHAPE_REQUEST (R152): REQ requests a change of alternates at tick T; the loader checks the request and leaves it pending. -/
  | reshapeRequest (tid : Nat)
  /-- RS_CANCEL (R155): CANCEL before the edge of T − 1 withdraws a pending reshape. -/
  | rsCancel (tid : Nat)
  /-- RESHAPE_STAGE (R153): From the edge of T − 1 the loader writes the new partition and slot tables, if the pair match holds. -/
  | reshapeStage (tm : Nat)
  /-- RESHAPE_APPLY (R153): At the edge of T the staged tables take effect together. -/
  | reshapeApply (tm : Nat)
  -- Hopper (06)
  /-- HOP_CFG_WRITE (R178): A write of HOP_CFG changes the alignment lag L when no tenant runs and the HALF bound allows it. -/
  | hopCfgWrite (tid : Nat) (data : Word)
  /-- FRANGE_WRITE (R184): A write of a tenant's frame range is checked and refused with RANGE_BAD if it breaks a condition. -/
  | frangeWrite (tid tenant : Nat) (data : Word)
  /-- HOP_SUB_READ (R183): READ loads a Hopper subscription entry into the staging registers. -/
  | hopSubRead (tid : Nat)
  /-- HOP_SUB_WRITE (R168): WRITE checks the staged Hopper subscription and commits it whole or refuses it. -/
  | hopSubWrite (tid : Nat)
  /-- ARR_CLR (R185): ARR_CLR clears the maximum arrival delays of all ports. -/
  | arrClr (tid : Nat)
  /-- SV_FRAME (R170): A sampled-value frame is parsed, and each of its ASDUs is matched, aligned and stored or rejected. -/
  | svFrame (port : Nat) (frame : List Byte) (tm : Nat)
  -- Decimation chain (07)
  /-- CHAIN_ENABLE (R191): A write of EN = 1 to a decimation chain is a checked commit that enables the chain. -/
  | chainEnable (tid chain : Nat) (data : Word)
  /-- CHAIN_SYNC (R197): SYNC performs a synchronising reset of a chain. -/
  | chainSync (tid chain : Nat)
  /-- SWAP (R195): SWAP requests a change of coefficient bank at DCH_SWAP_AT, or flips the bank at once on a disabled chain. -/
  | swap (tid chain : Nat)
  /-- SWAP_START (R195): A pending swap begins its cross-fade at the first output tick at or after SWAP_AT. -/
  | swapStart (chain tm : Nat)
  /-- FADE_END (R195): After step F the incoming bank becomes active, the outgoing bank unlocks and SWAP_DONE is raised. -/
  | fadeEnd (chain tm : Nat)
  -- Quantity engine and pulse outputs (09)
  /-- PT_READ (R247): READ loads a Quantity engine point into the staging window. -/
  | ptRead (tid : Nat)
  /-- PT_WRITE (R241): WRITE checks the staged point and commits it or refuses it. -/
  | ptWrite (tid : Nat)
  /-- ECLR (R239): ECLR latches a clear of a point's energy, applied at its next integration step. -/
  | eclr (tid : Nat)
  /-- FREQ_TIMEOUT (R234): When TOUT · W sample ticks pass without an accepted crossing, the frequency becomes invalid. -/
  | freqTimeout (point tm : Nat)
  /-- RESIDUE_CARRY (R244): A carry out of bit 47 of ACC_RES makes one pulse due. -/
  | residueCarry (output tm : Nat)
  /-- PULSE_ENABLE (R245): A write of EN = 1 to a pulse output is a checked commit. -/
  | pulseEnable (tid output : Nat) (data : Word)
  /-- PULSE_DISABLE (R245): Clearing EN clears PCNT, ACC_RES and BACKLOG and drives the output low. -/
  | pulseDisable (tid output : Nat) (data : Word)
  /-- PULSE_START (R242): A due or queued pulse drives the output high for WIDTH × 10 µs. -/
  | pulseStart (output tm : Nat)
  /-- PULSE_END (R242): The pulse width elapses and the output goes low. -/
  | pulseEnd (output tm : Nat)
  /-- PULSE_LOW_END (R242): The low time after a pulse ends, and a queued pulse may start. -/
  | pulseLowEnd (output tm : Nat)
  -- Capture unit (10)
  /-- RECORDER_ENABLE (R262): A write of EN = 1 to a recorder is a checked commit that clears its table and ring pointers. -/
  | recorderEnable (tid rec : Nat) (data : Word)
  /-- RECORDER_DISABLE (R260): Clearing EN stops the recorder at once, with no mark. -/
  | recorderDisable (tid rec : Nat) (data : Word)
  /-- REC_START (R259): START resumes a stopped recorder once there is space. -/
  | recStart (tid rec : Nat)
  /-- REC_STOP (R260): STOP closes a record in progress with a truncated END mark and enters STOPPED. -/
  | recStop (tid rec : Nat)
  /-- MTRIG (R253): A manual trigger fires on the next record sample assembled. -/
  | mtrig (tid rec : Nat)
  /-- REC_RELEASE (R260): RELEASE frees the oldest record of the table and moves HOLD_PTR on. -/
  | recRelease (tid rec : Nat)
  -- Logic runner (11)
  /-- LOGIC_LOAD (R281): LOAD checks a logic image and writes its program into the partition. -/
  | logicLoad (tid : Nat) (data : Word)
  /-- LOGIC_LOAD_DONE (R281): The write phase of a logic load completes. -/
  | logicLoadDone (tm : Nat)
  /-- LOGIC_PARTITION_ENABLE (R284): A write of EN = 1 to a logic partition is a checked commit. -/
  | logicPartitionEnable (tid tenant : Nat) (data : Word)
  /-- APPLY (R279): APPLY queues an on-line change of a CONST value or timer preset with its target tick. -/
  | applyChange (tid : Nat)
  /-- FORCE_SET (R279): SET places a force of an element's value at its target tick. -/
  | forceSet (tid : Nat)
  /-- FORCE_RELEASE (R279): RELEASE removes a force at its target tick. -/
  | forceRelease (tid : Nat)
  /-- IDLE_CLR (R284): IDLE_CLR sets every IDLE_MIN to its maximum. -/
  | idleClr (tid : Nat)
  /-- SCAN_COMPLETE (R266): A scan ends with its output image written into its lane. -/
  | scanComplete (tenant tm : Nat)
  -- Carafe lanes and GOOSE (08)
  /-- LANE_WRITE (R202): A write of a lane's range or configuration is checked and refused with LANE_BAD if it breaks a condition. -/
  | laneWrite (tid offset : Nat) (data : Word)
  /-- LANE_APPLY (R202): An accepted lane write takes effect at the next tick edge. -/
  | laneApply (tm : Nat)
  /-- SLACK_CLR (R222): SLACK_CLR resets SLACK_MIN. -/
  | slackClr (tid : Nat)
  /-- GSE_PUB_READ (R224): READ loads a publication into the staging window. -/
  | gsePubRead (tid : Nat)
  /-- GSE_PUB_WRITE (R221): WRITE checks the staged publication and commits it or refuses it. -/
  | gsePubWrite (tid : Nat)
  /-- GSE_SUB_READ (R225): READ loads a GOOSE subscription into the staging window. -/
  | gseSubRead (tid : Nat)
  /-- GSE_SUB_WRITE (R221): WRITE checks the staged GOOSE subscription and commits it or refuses it. -/
  | gseSubWrite (tid : Nat)
  /-- GOOSE_RETRANSMIT (R213): A scheduled retransmission falls due, and sqNum is incremented. -/
  | gooseRetransmit (pub tm : Nat)
  /-- GOOSE_FRAME (R218): A received GOOSE frame is checked and accepted into its subscription or rejected. -/
  | gooseFrame (port : Nat) (frame : List Byte) (tm : Nat)
  /-- TAL_EXPIRY (R219): The TAL deadline passes with no later acceptance, and the subscription becomes EXPIRED. -/
  | talExpiry (sub tm : Nat)
  -- Network ports (14)
  /-- PORT_POWER_UP (R344): A port's PMA and PCS finish powering up and EN_ACK is set. -/
  | portPowerUp (port tm : Nat)
  /-- LINK_UP (R344): A port's link comes up. -/
  | linkUp (port tm : Nat)
  /-- LINK_DOWN (R345): A port's link goes down, and its queues are discarded at line rate. -/
  | linkDown (port tm : Nat)
  /-- FRAME_RECEIVED (R356): A received frame is checked, passed through the RED block and steered to exactly one consumer. -/
  | frameReceived (port : Nat) (frame : List Byte) (err : RxError) (tm : Nat)
  /-- PAUSE_TIMER_EXPIRY (R360): The pause timer expires and releases the held queues. -/
  | pauseTimerExpiry (port tm : Nat)
  /-- PAUSE_REPEAT (R361): While the FIFO level stays above RX_LO, the pause is repeated after half of PAUSE_TIME. -/
  | pauseRepeat (port tm : Nat)
  /-- RX_DESCRIPTOR_COMPLETE (R352): The port writes a received frame and its descriptor, then advances HEAD. -/
  | rxDescriptorComplete (port tm : Nat)
  /-- TX_TAIL (R353): A tenant advances its transmit ring's tail, and the port judges the write. -/
  | txTail (tid port tenant : Nat) (data : Word)
  /-- RX_TAIL (R353): A tenant posts receive descriptors by advancing the receive ring's tail. -/
  | rxTail (tid port tenant : Nat) (data : Word)
  /-- TX_FRAME_END (R347): A frame ends on the wire, and the port serves the highest non-empty queue at the frame boundary. -/
  | txFrameEnd (port tm : Nat)
  /-- VERIFY_TIMER (R349): A verify mPacket is sent every VERIFY_TIME until a respond arrives or three attempts fail. -/
  | verifyTimer (port tm : Nat)
  /-- RING_ENABLE (R350): A write of EN = 1 to a ring is checked for alignment, window and tenant state. -/
  | ringEnable (tid page offset : Nat) (data : Word)
  /-- RING_DISABLE (R354): A write of EN = 0 to a ring completes its owned descriptors with ABORTED. -/
  | ringDisable (tid page offset : Nat) (data : Word)
  /-- RING_DISABLE_DONE (R354): HEAD reaches TAIL, and the ring's EN_ACK clears. -/
  | ringDisableDone (page offset tm : Nat)
  /-- RED_CFG_WRITE (R362): A write of RED_CFG sets the PRP or HSR mode of a port pair, subject to its conditions. -/
  | redCfgWrite (tid pair : Nat) (data : Word)
  /-- SUPERVISION_TIMER (R366): Every LIFE_CHECK interval a pair sends supervision frames on both ports. -/
  | supervisionTimer (pair tm : Nat)
  /-- NODE_FORGET (R366): A node or proxy entry is forgotten NODE_FORGET seconds after it was last seen. -/
  | nodeForget (pair node : Nat) (proxy : Bool) (tm : Nat)
  -- Time unit (15)
  /-- TB_START (R378): START loads a stopped time base from SET_SEC and SET_NS and arms its step. -/
  | tbStart (tid tb : Nat)
  /-- TB_STOP (R378): STOP stops a time base. -/
  | tbStop (tid tb : Nat)
  /-- TB_SET (R378): SET loads a time base's value and re-arms its step. -/
  | tbSet (tid tb : Nat)
  /-- SLEW (R380): SLEW makes the time base accept large offsets and correct them at a bounded rate. -/
  | slew (tid tb : Nat)
  /-- SWITCH (R382): SWITCH requests that TB0 move to its other reference. -/
  | switchRef (tid : Nat)
  /-- SWITCH_START (R382): At the first tick edge after its trigger a switch is judged and started or refused. -/
  | switchStart (tm : Nat)
  /-- SYNC_RECEIVED (R377): A received Sync, with its Follow_Up where needed, gives a measurement of the time base. -/
  | syncReceived (port : Nat) (frame : List Byte) (tm : Nat)
  /-- FOLLOW_UP_RECEIVED (R377): A Follow_Up completes a two-step Sync measurement. -/
  | followUpReceived (port : Nat) (frame : List Byte) (tm : Nat)
  /-- PDELAY_REQ_RECEIVED (R375): A received Pdelay_Req is answered within 50 µs. -/
  | pdelayReqReceived (port : Nat) (frame : List Byte) (tm : Nat)
  /-- PDELAY_RESP_RECEIVED (R375): A Pdelay_Resp gives a peer-delay exchange. -/
  | pdelayRespReceived (port : Nat) (frame : List Byte) (tm : Nat)
  /-- PDELAY_RESP_FOLLOW_UP_RECEIVED (R375): A Pdelay_Resp_Follow_Up completes a two-step peer-delay exchange. -/
  | pdelayRespFollowUpReceived (port : Nat) (frame : List Byte) (tm : Nat)
  /-- PDELAY_REQ_SEND (R375): Every 2^LOG_PDELAY s a port sends a Pdelay_Req and judges missing responses. -/
  | pdelayReqSend (port tm : Nat)
  /-- SYNC_SEND (R376): At each multiple of 2^LOG_SYNC a master port sends Sync, and Follow_Up in two-step operation. -/
  | syncSend (port tb tm : Nat)
  /-- PTP_TAIL (R389): TID 0 advances a PTP ring's tail. -/
  | ptpTail (tid : Nat) (data : Word)
  /-- HOLDOVER_ENTRY (R378): A time base with no accepted measurement for SYNC_LOSS intervals enters HOLDOVER. -/
  | holdoverEntry (tb tm : Nat)
  /-- HOLD_MAX_EXPIRY (R381): A time base in HOLDOVER for HOLD_MAX seconds stops being SYNCED. -/
  | holdMaxExpiry (tb tm : Nat)
  /-- TICK_CFG_WRITE (R383): A write of TICK_CFG enables the tick generator or changes its rate. -/
  | tickCfgWrite (tid : Nat) (data : Word)
  /-- PPS_IN_EDGE (R385): A rising edge on a PPS input is stamped and taken as a measurement. -/
  | ppsInEdge (input tm : Nat)
  /-- PPS_OUT_PULSE (R386): A PPS output starts its pulse by its MODE. -/
  | ppsOutPulse (output tm : Nat)
  /-- COMPARE_FIRE (R384): A compare unit reaches its target and fires. -/
  | compareFire (k tm : Nat)
  /-- ARM (R384): ARM arms a compare unit. -/
  | arm (tid k : Nat) (data : Word)
  -- Tenants (12)
  /-- ADMIT (R290): ADMIT moves a tenant from EMPTY to LOADED. -/
  | tenAdmit (tid tenant : Nat)
  /-- TENANT_START (R291): START schedules a tenant to run at tick AT. -/
  | tenantStart (tid tenant : Nat)
  /-- TENANT_START_APPLY (R290): At the edge of AT a pending START makes the tenant RUNNING. -/
  | tenantStartApply (tenant tm : Nat)
  /-- FREEZE (R291): FREEZE schedules a tenant to be frozen at tick AT. -/
  | freeze (tid tenant : Nat)
  /-- FREEZE_APPLY (R301): At the edge of AT a pending FREEZE makes the tenant FROZEN. -/
  | freezeApply (tenant tm : Nat)
  /-- THAW (R291): THAW schedules a frozen tenant to run again at tick AT. -/
  | thaw (tid tenant : Nat)
  /-- THAW_APPLY (R308): At the edge of AT a pending THAW makes the tenant RUNNING and sets MISSED. -/
  | thawApply (tenant tm : Nat)
  /-- TENANT_CANCEL (R291): CANCEL withdraws a pending tick-targeted tenant command. -/
  | tenantCancel (tid tenant : Nat)
  /-- TENANT_RESET (R296): RESET raises the tenant's fence, makes it RESETTING and starts the drains of every engine. -/
  | tenantReset (tid tenant : Nat)
  /-- ENGINE_DRAIN_COMPLETE (R297): A shared engine finishes draining a reset tenant's work. -/
  | engineDrainComplete (tenant engine tm : Nat)
  /-- SAVE (R302): SAVE writes a frozen tenant's state to a sealed migration image. -/
  | save (tid tenant : Nat)
  /-- SAVE_DONE (R302): A save completes and reports its image size. -/
  | saveDone (tenant tm : Nat)
  /-- RESTORE (R306): RESTORE checks a migration image for a loaded tenant. -/
  | restore (tid tenant : Nat)
  /-- RESTORE_DONE (R307): A restore completes its write pass and leaves the tenant FROZEN. -/
  | restoreDone (tenant tm : Nat)
  /-- RELOAD (R300): RELOAD checks the loaded string image and returns a tenant's memories to it. -/
  | reload (tid tenant : Nat)
  /-- RELOAD_DONE (R300): A reload completes and clears DIRTY. -/
  | reloadDone (tenant tm : Nat)
  /-- EVICT (R290): EVICT returns a tenant that holds no resource to EMPTY. -/
  | evict (tid tenant : Nat)
  /-- FAULT (R290): FAULT requests that a tenant be moved to FAULTED. -/
  | faultTenant (tid tenant : Nat)
  /-- FAULT_APPLY (R292): At the next tick edge a tenant with a FAULT command pending becomes FAULTED. -/
  | faultApply (tenant tm : Nat)
  /-- FAULT_LIMIT_REACHED (R292): FAULT_RUN reaching FAULT_LIMIT makes the tenant FAULTED. -/
  | faultLimitReached (tenant tm : Nat)
  /-- SHARE_WRITE (R293): A write of SHARE(r) sets a tenant's depth; a reduction applies in the next fabric cycle. -/
  | shareWrite (tid tenant r : Nat) (data : Word)
  /-- SHARE_INCREASE_APPLY (R295): A pending share increase applies at the first tick edge with room, and SHARE_DONE is raised. -/
  | shareIncreaseApply (tenant r tm : Nat)
  /-- DDR_WIN_WRITE (R288): A write of a tenant's DDR window is checked and refused with WIN_BAD if it breaks a condition. -/
  | ddrWinWrite (tid tenant w : Nat) (data : Word)
  -- Redundant pair (13)
  /-- JOIN (R315): JOIN moves a unit from CONFIGURE to FENCED and starts sending HELLO. -/
  | join (tid : Nat)
  /-- LEAVE (R340): LEAVE sends RESIGN and returns the unit to CONFIGURE. -/
  | leave (tid : Nat)
  /-- SOLO (R327): SOLO requests a solo Top at the next tick edge. -/
  | solo (tid : Nat)
  /-- SOLO_TAKE (R327): At the next tick edge a unit given SOLO takes a solo Top and opens its gate. -/
  | soloTake (tm : Nat)
  /-- HANDOVER (R334): HANDOVER proposes a cooperative handover of the Top at tick H. -/
  | handover (tid : Nat)
  /-- DRILL (R337): DRILL proposes a drill that lets the lease run out from tick H. -/
  | drill (tid : Nat)
  /-- HO_ABORT (R334): HO_ABORT sends ABORT and cancels a pending handover on both units. -/
  | hoAbort (tid : Nat)
  /-- FIT_SET (R331): FIT_SET sets FIT again once the cause has been removed. -/
  | fitSet (tid : Nat)
  /-- HELLO (R315): A peer's HELLO arrives, and the unit answers with a RESPONSE. -/
  | hello (path : Nat) (msg : List Byte) (tm : Nat)
  /-- RESPONSE (R315): A peer's RESPONSE arrives and is checked for admission. -/
  | response (path : Nat) (msg : List Byte) (tm : Nat)
  /-- ADMISSION_TIMEOUT (R315): Admission not completed within 16 ticks restarts with new nonces. -/
  | admissionTimeout (tm : Nat)
  /-- ADMISSION_END (R316): No valid message on either path for LEASE + 2 ticks ends the admission. -/
  | admissionEnd (tm : Nat)
  /-- PATH_DOWN (R314): A path with no valid message for 2 ticks, or with link loss, is marked down. -/
  | pathDown (backup : Bool) (tm : Nat)
  /-- DIGEST (R330): A peer's DIGEST arrives; offsets are measured, tenants compared, and a grant may be sent. -/
  | digest (path : Nat) (msg : List Byte) (tm : Nat)
  /-- HEARTBEAT (R319): A peer's HEARTBEAT arrives on the backup path. -/
  | heartbeat (path : Nat) (msg : List Byte) (tm : Nat)
  /-- GRANT (R324): A GRANT arrives and extends the holder's EXPIRY, or gives unit A its start Top. -/
  | grant (path : Nat) (msg : List Byte) (tm : Nat)
  /-- HANDOVER_MESSAGE (R334): A HANDOVER message arrives, and the peer checks it and answers with HANDOVER_ACK. -/
  | handoverMessage (path : Nat) (msg : List Byte) (tm : Nat)
  /-- HANDOVER_ACK (R334): A HANDOVER_ACK arrives and agrees or refuses the handover. -/
  | handoverAck (path : Nat) (msg : List Byte) (tm : Nat)
  /-- RELEASE_MESSAGE (R335): A RELEASE arrives, and the peer takes a leased Top. -/
  | releaseMessage (path : Nat) (msg : List Byte) (tm : Nat)
  /-- ABORT_MESSAGE (R334): An ABORT arrives and cancels a pending handover. -/
  | abortMessage (path : Nat) (msg : List Byte) (tm : Nat)
  /-- RESIGN (R327): A peer's RESIGN arrives; a standby then claims at its next edge, and a holder keeps the Top solo. -/
  | resign (path : Nat) (msg : List Byte) (tm : Nat)
  /-- RESIGN_CLAIM (R327): At its next tick edge after a RESIGN from the holder, the standby takes a solo Top. -/
  | resignClaim (tm : Nat)
  /-- HANDOVER_PRECHECK (R335): At its edge of H − 1 the Top holder checks SKEW_OK and aborts if it is 0. -/
  | handoverPrecheck (tm : Nat)
  /-- HANDOVER_RELEASE (R335): At its edge of H the holder closes its gate, sends RELEASE and enters SHADOW. -/
  | handoverRelease (tm : Nat)
  /-- REVERT (R336): Unit A starts a revert when its hold-off count reaches REVERT_HOLD. -/
  | revert (tm : Nat)
  /-- LEASE_EXPIRY (R324): At the edge of EXPIRY the holder's gate closes and the unit enters FENCED. -/
  | leaseExpiry (tm : Nat)
  /-- TICK_LOSS (R324): No tick edge for 250,500 ME cycles closes the gate and fences the unit. -/
  | tickLoss (tm : Nat)
  /-- GATE_SENSE (R325): SENSE differing from OPEN for more than one fabric cycle sets GATE_SENSE. -/
  | gateSense (sense : Bool) (tm : Nat)
  /-- COPY_EXPIRY (R323): The standby's COPY_LEFT reaches 0, and its guard begins. -/
  | copyExpiry (tm : Nat)
  /-- CLAIM (R326): At the second tick edge after its copy expires, the standby takes a solo Top and enters ACTIVE. -/
  | claim (tm : Nat)
  -- Vault (16)
  /-- VQ_TAIL (R407): A tenant advances its vault command ring's tail. -/
  | vqTail (tid tenant : Nat) (data : Word)
  /-- DERIVE (R409): The vault derives a new key slot from a parent slot and a label. -/
  | deriveKey (tm : Nat)
  /-- INVALIDATE (R405): The vault increments a slot's GEN, so that its descendants become stale. -/
  | invalidate (tm : Nat)
  /-- DELETE (R405): The vault increments a slot's GEN and empties the slot. -/
  | delete (tm : Nat)
  /-- SIGN (R409): The vault signs a message with a slot's dual key pairs. -/
  | sign (tm : Nat)
  /-- VERIFY (R409): The vault verifies a body and envelope against a verify slot. -/
  | verify (tm : Nat)
  /-- MAC (R409): The vault computes a KMAC256 over a message. -/
  | mac (tm : Nat)
  /-- SEAL (R409): The vault encrypts a plaintext with AES-256-GCM. -/
  | sealBlob (tm : Nat)
  /-- UNSEAL (R409): The vault decrypts and authenticates a sealed blob. -/
  | unsealBlob (tm : Nat)
  /-- IMPORT (R409): The vault unwraps a sealed key into a new slot. -/
  | importKey (tm : Nat)
  /-- REG_VK (R409): The vault registers a verify key pair under a KEY_ID. -/
  | regVk (tm : Nat)
  /-- QUOTE (R412): The vault produces a signed attestation quote. -/
  | quote (tm : Nat)
  /-- EXPORT_PUB (R409): The vault returns the public keys of a signing slot. -/
  | exportPub (tm : Nat)
  /-- RANDOM (R409): The vault returns random bytes. -/
  | randomBytes (tm : Nat)
  /-- EXTEND (R398): The vault extends MEAS6 with 64 bytes that TID 0 supplies. -/
  | extendMeas (tm : Nat)
  /-- OTP (R399): The vault advances a counter, revokes an owner boot key, or adds a digest in OTP. -/
  | otp (tm : Nat)
  /-- PROV_IMPORT (R400): The vault imports the owner root, the pairing secret and the boot key digests, and makes the device OWNED. -/
  | provImport (tm : Nat)
  /-- CLR_TAMPER (R409): The vault clears tamper latches. -/
  | clrTamper (tm : Nat)
  /-- SLOT_INFO (R409): The vault returns the attributes of a key slot. -/
  | slotInfo (tm : Nat)
  /-- TAMPER_EVENT (R417): A tamper input held active for its debounce period sets its latch and takes its action. -/
  | tamperEvent (input tm : Nat)
  /-- ENTROPY_FAIL (R414): A failing entropy health test clears ENTROPY_OK and raises ENTROPY_FAIL. -/
  | entropyFail (tm : Nat)
  /-- RTC_LOAD (R418): LOAD loads RTC_SET into the RTC. -/
  | rtcLoad (tm : Nat)
  -- Modes, resets and clocks (17)
  /-- CONFIGURE (R422): The CONFIGURE command moves the device from PROVISION to CONFIGURE. -/
  | configure (tid : Nat) (data : Word)
  /-- TEST (R422): The TEST command schedules entry to TEST at MODE_AT. -/
  | testMode (tid : Nat) (data : Word)
  /-- TEST_ENTRY (R422): At the edge of MODE_AT the unit enters TEST. -/
  | testEntry (tm : Nat)
  /-- TEST_END (R422): The TEST_END command schedules the exit from TEST at MODE_AT. -/
  | testEnd (tid : Nat) (data : Word)
  /-- TEST_EXIT (R422): At the edge of MODE_AT the unit leaves TEST for ACTIVE or SHADOW. -/
  | testExit (tm : Nat)
  /-- MAINTAIN (R422): The MAINTAIN command moves the unit from SHADOW to MAINTAIN. -/
  | maintain (tid : Nat) (data : Word)
  /-- MAINT_END (R422): The MAINT_END command returns the unit from MAINTAIN to SHADOW. -/
  | maintEnd (tid : Nat) (data : Word)
  /-- SAFE (R425): The SAFE command takes the device to SAFE with cause COMMAND. -/
  | safeMode (tid : Nat) (data : Word)
  /-- SYS_RST (R426): SYS_RST with KEY 0xA5 applies a SYS reset. -/
  | sysRst (tid : Nat) (data : Word)
  /-- MAIN_POWER_ON (R422): Main power is applied, and the device enters RESET. -/
  | mainPowerOn (tm : Nat)
  /-- MAIN_POWER_OFF (R422): Main power is lost, and the device enters RETAIN or OFF. -/
  | mainPowerOff (tm : Nat)
  /-- VBAT_RISE (R422): VBAT rises above its retention threshold while main power is off. -/
  | vbatRise (tm : Nat)
  /-- VBAT_FALL (R422): VBAT falls below its threshold, and the VBAT domain is reset. -/
  | vbatFall (tm : Nat)
  /-- PORST_LOW (R426): PORST_N low applies a POR. -/
  | porstLow (tm : Nat)
  /-- PORST_RELEASE (R443): The rising edge of PORST_N latches PAIR_PREF and MFG_TEST. -/
  | porstRelease (pairPref mfgTest : Bool) (tm : Nat)
  /-- SYSRST_LOW (R426): SYSRST_N low for at least 1 µs applies a SYS reset. -/
  | sysrstLow (tm : Nat)
  /-- SUPPLY_MONITOR_TRIP (R431): A rail below its monitor threshold for 2 µs asserts POR. -/
  | supplyMonitorTrip (tm : Nat)
  /-- ROOT_PLL_LOSS (R426): Loss of lock of the root PLL applies a SYS reset. -/
  | rootPllLoss (tm : Nat)
  /-- DDR_PLL_LOSS (R425): Loss of lock of the LPDDR4X PLL takes the device to SAFE. -/
  | ddrPllLoss (tm : Nat)
  /-- SERDES_PLL_LOSS (R430): A SerDes PLL that loses lock takes its links down and sets LOST. -/
  | serdesPllLoss (pll tm : Nat)
  /-- POWER_FAIL_WARNING (R427): PWR_FAIL_N held low for 0.5 µs closes the gate and sends RESIGN. -/
  | powerFailWarning (tm : Nat)
  /-- POWER_FAIL_RESET (R427): 20 µs after a power warning the device enters RESET with cause PWR_FAIL. -/
  | powerFailReset (tm : Nat)
  /-- POWER_FAIL_RETURN (R427): PWR_FAIL_N returning high with rails in tolerance lets the device leave RESET as after a SYS reset. -/
  | powerFailReturn (tm : Nat)
  /-- TAP_RESET (R426): Test-Logic-Reset of the TAP resets only the TAP. -/
  | tapReset (tm : Nat)
  /-- RESET_RELEASE (R422): With every reset source released and the root PLL locked, the device enters VERIFY and the boot ROM checks the boot slots. -/
  | resetRelease (flash : List (Nat × Byte)) (tm : Nat)
  /-- BOOT_COMPLETE (R394): Boot finishes and the device enters PROVISION with hart 0 released, or enters SAFE. -/
  | bootComplete (ddrOk : Bool) (plat : List Byte) (tm : Nat)
  /-- HART_RELEASE (R436): Writing HART_REL releases a hart at its entry address in M-mode. -/
  | hartRelease (tid : Nat) (data : Word)
  /-- WDOG_CFG_WRITE (R428): The once-only write of WDOG_CFG starts the watchdog. -/
  | wdogCfgWrite (tid : Nat) (data : Word)
  /-- KICK (R428): KICK reloads the watchdog. -/
  | kick (tid : Nat)
  /-- WATCHDOG_EXPIRY (R428): The watchdog reaches zero and enters SAFE or applies a SYS reset. -/
  | watchdogExpiry (tm : Nat)
  /-- CLOCK_MONITOR_WINDOW (R433): Each one-second window gives MON_PPM; two windows beyond ±400 ppm take the device to SAFE. -/
  | clockMonitorWindow (cycles tm : Nat)
  /-- RTC_LOST (R433): No RTC edge for 2 ms sets RTC_LOST and stops the clock monitor judging. -/
  | rtcLost (tm : Nat)
  /-- CLU_PD_WRITE (R435): A write of CLU_PD powers a cluster down or up. -/
  | cluPdWrite (tid : Nat) (data : Word)
  /-- CLUSTER_READY (R435): A powered-up cluster is ready, as PD_STAT shows, within 50 µs. -/
  | clusterReady (cluster tm : Nat)
  /-- PPS_OUT_END (R386): A PPS output pulse ends after WIDTH µs, or after half a tick in MODE 2, and the output returns low. -/
  | ppsOutEnd (output tm : Nat)
  /-- VAULT_FAULT (R425): An uncorrectable ECC error in vault SRAM or the key store, or a vault core exception, takes the device to SAFE with cause VAULT. -/
  | vaultFault (tm : Nat)
  /-- ENTROPY_OK (R414): The entropy health tests pass again, so ENTROPY_OK returns to 1 and commands that need random bytes stop failing with E_ENTROPY. -/
  | entropyOk (tm : Nat)
  /-- RESPOND_MPACKET (R349): A respond mPacket from the link partner arrives during verification, so preemption becomes active, PREEMPT_ACTIVE is set and VERIFY_OK is raised. -/
  | respondMpacket (port tm : Nat)
  deriving DecidableEq, Repr

end Sys2Proof
end

