-- ==== Sys2Proof/Decode.lean ====
section
/-!
DEFINITION. The commands that a word spells. The opcode table of this block gives no row any bits: a command is an access,
an event or an operation with operands (spec/opcode_table.json), so no word spells one.
-/
namespace Sys2Proof

/-- The command spelt by a word of `nbits` bits: none, since no row of the table has an encoding in bits
(spec/opcode_table.json). The bit fields of the engine operations are in spec/04_engine_instruction_set.md and are read
by the bundle decoder of Machine/EngineDecode.lean. -/
def decodeTableWord (_nbits _w : Nat) : Option Instr := none

end Sys2Proof
end

