-- ==== Sys2Proof/Machine/Tab.lean ====
section
/-!
DEFINITION. Reading and writing sparse tables, and the memory of the device: one list of (address, byte)
cells over the whole physical address space (spec/01_register_pages.md R13).
-/
namespace Sys2Proof.Machine

/-- The entry of `t` at `k`, or `d` where the table lists none. -/
def tget {α : Type} (d : α) : Tab α → Nat → α
  | [], _ => d
  | (k', x) :: r, k => if k = k' then x else tget d r k

/-- `t` with entry `k` set to `x`, kept in rising order. -/
def tset {α : Type} : Tab α → Nat → α → Tab α
  | [], k, x => [(k, x)]
  | (k', y) :: r, k, x =>
    if k = k' then (k, x) :: r else if k < k' then (k, x) :: (k', y) :: r else (k', y) :: tset r k x

/-- `t` with entry `k` changed by `f`, from `d` where none is listed. -/
def tmod {α : Type} (d : α) (t : Tab α) (k : Nat) (f : α → α) : Tab α := tset t k (f (tget d t k))

/-- `t` without entry `k`. -/
def tdel {α : Type} : Tab α → Nat → Tab α
  | [], _ => []
  | (k', y) :: r, k => if k = k' then tdel r k else (k', y) :: tdel r k

/-- Every table index below `n` to which `f` gives an entry. -/
def idxWhere (n : Nat) (f : Nat → Bool) : List Nat := (List.range n).filter f

/-- Whether physical address `a` lies in LPDDR4X or in the flash window (R13): memory outside the device,
of which an unlisted byte has no value that the model knows. -/
def isOffChip (a : Nat) : Bool :=
  (0x800000000 ≤ a && a < 0xC00000000) || (0x60000000 ≤ a && a < 0x70000000)

/-- What a byte that the memory does not list reads as: zero in the on-chip memories, which a reset fills with
zero (spec/17_modes_clocks_power.md R426); none in LPDDR4X and flash. -/
def unlisted (a : Nat) : Option Byte := if isOffChip a then none else some 0

/-- The byte at address `a`, or none where the model knows none. -/
def Memory.read (m : List (Nat × Byte)) (a : Nat) : Option Byte :=
  match m with
  | [] => unlisted a
  | (k, x) :: r => if a = k then some x else if a < k then unlisted a else Memory.read r a

/-- `m` with byte `a` set to `v`, in canonical form: a byte that an unlisted address reads as is not listed. -/
def Memory.write (m : List (Nat × Byte)) (a : Nat) (v : Byte) : List (Nat × Byte) :=
  match m with
  | [] => if unlisted a = some v then [] else [(a, v)]
  | (k, x) :: r =>
    if a = k then (if unlisted a = some v then r else (a, v) :: r)
    else if a < k then (if unlisted a = some v then (k, x) :: r else (a, v) :: (k, x) :: r)
    else (k, x) :: Memory.write r a v

/-- `m` without the cells of the `n` addresses from `a` (the bytes read as unlisted again). -/
def Memory.clear (m : List (Nat × Byte)) (a n : Nat) : List (Nat × Byte) :=
  m.filter (fun c => !(a ≤ c.1 && c.1 < a + n))

/-- Canonical form: addresses strictly rising from above `lo`, no entry equal to what an unlisted one reads as. -/
def Memory.wfFrom (lo : Nat) : List (Nat × Byte) → Bool
  | [] => true
  | (k, x) :: r => lo ≤ k && decide (unlisted k ≠ some x) && Memory.wfFrom (k + 1) r

/-- The memory's canonical form. -/
def Memory.wf (m : List (Nat × Byte)) : Bool := Memory.wfFrom 0 m

/-- `n` bytes from `a`, a byte that the model does not know taken as `dflt`. -/
def Memory.readBytes (m : List (Nat × Byte)) (dflt : Nat → Byte) (a n : Nat) : List Byte :=
  (List.range n).map (fun i => (Memory.read m (a + i)).getD (dflt (a + i)))

/-- The bytes `bs` written from `a` upward. -/
def Memory.writeBytes (m : List (Nat × Byte)) (a : Nat) : List Byte → List (Nat × Byte)
  | [] => m
  | b :: bs => Memory.writeBytes (Memory.write m a b) (a + 1) bs

/-- A little-endian number from bytes. -/
def leNat : List Byte → Nat
  | [] => 0
  | b :: bs => b.toNat + 256 * leNat bs

/-- The `n` little-endian bytes of a number. -/
def leBytes : Nat → Nat → List Byte
  | 0, _ => []
  | n + 1, v => BitVec.ofNat 8 v :: leBytes n (v / 256)

end Sys2Proof.Machine
end

