-- ==== Sys2Proof/Machine/Ber.lean ====
section
/-!
DEFINITION. Ethernet headers and BER elements, as the Hopper and the GOOSE subscriber read them
(spec/06_hopper_ingest.md R161, R170, R171; spec/08_carafe_publication.md R218).
-/
namespace Sys2Proof.Machine

/-- A big-endian number. -/
def beNat (bs : List Byte) : Nat := bs.foldl (fun a b => 256 * a + b.toNat) 0

/-- The `n` big-endian bytes of a number. -/
def beBytes (n v : Nat) : List Byte := (leBytes n v).reverse

/-- The header of a frame: destination, VID of a single tag (none untagged), PCP, EtherType and the octets after it. A frame with
two tags has the second tag's type as its EtherType. -/
def etherHeader (f : List Byte) : Nat × Option Nat × Nat × Nat × List Byte :=
  let da := beNat (f.take 6)
  let ty := beNat ((f.drop 12).take 2)
  if ty = 0x8100 then
    let tci := beNat ((f.drop 14).take 2)
    (da, some (tci % 4096), tci / 8192, beNat ((f.drop 16).take 2), f.drop 18)
  else (da, none, 0, ty, f.drop 14)

/-- The match of a VLAN: mode 0 any or untagged, 1 the VID required, 2 untagged only; VID 0 counts as untagged (R167, R183). -/
def vlanMatch (vmode vid : Nat) (tag : Option Nat) : Bool :=
  let v := tag.getD 0
  match vmode with
  | 0 => true
  | 1 => v ≠ 0 && v = vid
  | _ => v = 0

/-- One element: its tag, its content and what follows it; none for an indefinite or over-long length, or one that overruns
its parent (R170). -/
def berTlv (bs : List Byte) : Option (Nat × List Byte × List Byte) :=
  match bs with
  | t :: l :: r =>
    if l.toNat < 0x80 then (if l.toNat ≤ r.length then some (t.toNat, r.take l.toNat, r.drop l.toNat) else none)
    else if l = 0x81 then
      match r with
      | a :: r' => if a.toNat ≤ r'.length then some (t.toNat, r'.take a.toNat, r'.drop a.toNat) else none
      | _ => none
    else if l = 0x82 then
      match r with
      | a :: b :: r' =>
        let n := a.toNat * 256 + b.toNat
        if n ≤ r'.length then some (t.toNat, r'.take n, r'.drop n) else none
      | _ => none
    else none
  | _ => none

/-- All elements of a content, with fuel; none where one is malformed. -/
def berAll : Nat → List Byte → Option (List (Nat × List Byte))
  | 0, bs => if bs = [] then some [] else none
  | n + 1, bs =>
    if bs = [] then some []
    else match berTlv bs with
      | some (t, c, r) => (berAll n r).map (fun l => (t, c) :: l)
      | none => none

/-- A BER element of tag `t`. -/
def berEnc (t : Nat) (c : List Byte) : List Byte :=
  BitVec.ofNat 8 t :: ((if c.length < 128 then beBytes 1 c.length
    else if c.length < 256 then beBytes 1 0x81 ++ beBytes 1 c.length
    else beBytes 1 0x82 ++ beBytes 2 c.length) ++ c)

/-- An unsigned number as a BER integer content of minimal length, with a leading zero where its top bit is set. -/
def berNat (v : Nat) : List Byte :=
  let n := if v = 0 then 1 else Nat.log2 v / 8 + 1
  let bs := beBytes n v
  if 2 ^ (8 * n - 1) ≤ v then 0 :: bs else bs

/-- A signed 32-bit number as a BER integer content of minimal length. -/
def berInt (w : Word) : List Byte :=
  let v := w.toInt
  if -128 ≤ v ∧ v < 128 then beBytes 1 (w.toNat % 2 ^ 8)
  else if -32768 ≤ v ∧ v < 32768 then beBytes 2 (w.toNat % 2 ^ 16)
  else if -8388608 ≤ v ∧ v < 8388608 then beBytes 3 (w.toNat % 2 ^ 24)
  else beBytes 4 w.toNat

end Sys2Proof.Machine
end

