-- ==== Sys2Proof/Machine/Float.lean ====
section
/-!
DEFINITION. Exact binary floating-point arithmetic with one rounding to nearest, ties to even
(spec/04_engine_instruction_set.md R108-R113, R130-R134; binary64 for spec/09_quantity_engine.md).
-/
namespace Sys2Proof.Machine

/-- An exact value: a NaN, an infinity, or ±m·2^e. -/
inductive FVal where
  | nan
  | inf (neg : Bool)
  | fin (neg : Bool) (m : Nat) (e : Int)
  deriving DecidableEq, Repr

/-- The value of a bit pattern with `p` significand bits and `w` exponent bits. -/
def fvalOfBits (p w : Nat) (b : Nat) : FVal :=
  let frac := b % 2 ^ (p - 1)
  let ex := b / 2 ^ (p - 1) % 2 ^ w
  let neg := b / 2 ^ (p - 1 + w) % 2 = 1
  let emin : Int := 3 - (2 : Int) ^ (w - 1) - p
  if ex = 2 ^ w - 1 then (if frac = 0 then .inf neg else .nan)
  else if ex = 0 then .fin neg frac (emin)
  else .fin neg (frac + 2 ^ (p - 1)) (emin + ((ex : Int) - 1))

/-- `m` divided by `2 ^ k`, rounded to nearest, ties to even, where `sticky` says that a part below was cut off. -/
def shrRNE (m k : Nat) (sticky : Bool) : Nat :=
  let q := m / 2 ^ k
  let r := m % 2 ^ k
  let half := if k = 0 then 0 else 2 ^ (k - 1)
  if k = 0 then q
  else if r > half || (r = half && (sticky || q % 2 = 1)) then q + 1 else q

/-- The bit pattern of ±m·2^e rounded to the format; overflow gives an infinity (R109). -/
def bitsOfFin (p w : Nat) (neg : Bool) (m : Nat) (e : Int) : Nat :=
  let sign := if neg then 2 ^ (p - 1 + w) else 0
  if m = 0 then sign
  else
    let emin : Int := 3 - (2 : Int) ^ (w - 1) - p
    let len : Int := (Nat.log2 m + 1 : Nat)
    let q := max (e + len - p) emin
    let mant := if q ≤ e then m * 2 ^ (e - q).toNat else shrRNE m (q - e).toNat false
    let q' := if mant = 2 ^ p then q + 1 else q
    let mant' := if mant = 2 ^ p then 2 ^ (p - 1) else mant
    if mant' < 2 ^ (p - 1) then sign + mant'
    else
      let biased := (q' - emin + 1).toNat
      if 2 ^ w - 1 ≤ biased then sign + (2 ^ w - 1) * 2 ^ (p - 1)
      else sign + biased * 2 ^ (p - 1) + (mant' - 2 ^ (p - 1))

/-- The bit pattern of a value; every NaN is the one of R109 (sign 0, only the top fraction bit set). -/
def bitsOfFval (p w : Nat) : FVal → Nat
  | .nan => (2 ^ w - 1) * 2 ^ (p - 1) + 2 ^ (p - 2)
  | .inf neg => (if neg then 2 ^ (p - 1 + w) else 0) + (2 ^ w - 1) * 2 ^ (p - 1)
  | .fin neg m e => bitsOfFin p w neg m e

/-- The negation of a value. -/
def fvalNeg : FVal → FVal
  | .nan => .nan
  | .inf n => .inf (!n)
  | .fin n m e => .fin (!n) m e

/-- The exact product. -/
def fvalMul : FVal → FVal → FVal
  | .nan, _ => .nan
  | _, .nan => .nan
  | .inf a, .inf b => .inf (a != b)
  | .inf a, .fin b m _ => if m = 0 then .nan else .inf (a != b)
  | .fin a m _, .inf b => if m = 0 then .nan else .inf (a != b)
  | .fin a m e, .fin b k f => .fin (a != b) (m * k) (e + f)

/-- A finite value as an integer multiple of 2^e, for `e` at most its own exponent. -/
def finInt (neg : Bool) (m : Nat) (e' e : Int) : Int :=
  let v : Int := (m * 2 ^ (e' - e).toNat : Nat)
  if neg then -v else v

/-- The exact sum; the sign of an exact zero is that of roundTiesToEven. -/
def fvalAdd : FVal → FVal → FVal
  | .nan, _ => .nan
  | _, .nan => .nan
  | .inf a, .inf b => if a = b then .inf a else .nan
  | .inf a, .fin _ _ _ => .inf a
  | .fin _ _ _, .inf b => .inf b
  | .fin a m e, .fin b k f =>
    let g := min e f
    let v := finInt a m e g + finInt b k f g
    if v = 0 then .fin (a && b) 0 0 else .fin (v < 0) v.natAbs g

/-- The quotient, with enough bits that one rounding of it is the rounding of the exact quotient (the lowest bit is
set where a remainder was cut off). -/
def fvalDiv (p : Nat) : FVal → FVal → FVal
  | .nan, _ => .nan
  | _, .nan => .nan
  | .inf _, .inf _ => .nan
  | .inf a, .fin b _ _ => .inf (a != b)
  | .fin a _ _, .inf b => .fin (a != b) 0 0
  | .fin a m e, .fin b k f =>
    if k = 0 then (if m = 0 then .nan else .inf (a != b))
    else
      let sh := p + 3 + Nat.log2 k
      let n := m * 2 ^ sh
      .fin (a != b) (2 * (n / k) + (if n % k = 0 then 0 else 1)) (e - f - sh - 1)

/-- The integer square root below `2 ^ n`, bit by bit. -/
def natSqrtAux (m : Nat) : Nat → Nat → Nat
  | 0, r => r
  | n + 1, r => natSqrtAux m n (if (r + 2 ^ n) * (r + 2 ^ n) ≤ m then r + 2 ^ n else r)

/-- The integer square root. -/
def natSqrt (m : Nat) : Nat := natSqrtAux m (Nat.log2 m / 2 + 1) 0

/-- The square root, likewise. -/
def fvalSqrt (p : Nat) : FVal → FVal
  | .nan => .nan
  | .inf n => if n then .nan else .inf false
  | .fin n m e =>
    if m = 0 then .fin n 0 0
    else if n then .nan
    else
      let odd := if e % 2 = 0 then 0 else 1
      let m' := m * 2 ^ (odd + 2 * (p + 3))
      let r := natSqrt m'
      .fin false (2 * r + (if r * r = m' then 0 else 1)) ((e - odd) / 2 - (p + 3 : Nat) - 1)

/-- Whether the first value lies below the second; false if either is a NaN. -/
def fvalLt : FVal → FVal → Bool
  | .nan, _ => false
  | _, .nan => false
  | .inf a, .inf b => a && !b
  | .inf a, .fin _ _ _ => a
  | .fin _ _ _, .inf b => !b
  | .fin a m e, .fin b k f => finInt a m e (min e f) < finInt b k f (min e f)

/-- Whether the values are equal (+0 = −0); false if either is a NaN. -/
def fvalEq : FVal → FVal → Bool
  | .inf a, .inf b => a = b
  | .fin a m e, .fin b k f => finInt a m e (min e f) = finInt b k f (min e f)
  | _, _ => false

/-- The nearest integer, ties to even; none for a NaN or an infinity. -/
def fvalRound : FVal → Option Int
  | .fin n m e =>
    let v : Int := if 0 ≤ e then (m * 2 ^ e.toNat : Nat) else (shrRNE m (-e).toNat false : Nat)
    some (if n then -v else v)
  | _ => none

/-! ### binary32 -/

/-- The value of an fp32 word. -/
def f32 (w : Word) : FVal := fvalOfBits 24 8 w.toNat
/-- The fp32 word of a value, rounded once. -/
def toF32 (v : FVal) : Word := BitVec.ofNat 32 (bitsOfFval 24 8 v)
/-- The NaN that every operation delivers (R109). -/
def qNaN : Word := 0x7FC00000

def fAdd (a b : Word) : Word := toF32 (fvalAdd (f32 a) (f32 b))
def fSub (a b : Word) : Word := toF32 (fvalAdd (f32 a) (fvalNeg (f32 b)))
def fMul (a b : Word) : Word := toF32 (fvalMul (f32 a) (f32 b))
/-- a × b + c with one rounding (R112). -/
def fMulAdd (a b c : Word) : Word := toF32 (fvalAdd (fvalMul (f32 a) (f32 b)) (f32 c))
/-- a × b − c as fusedMultiplyAdd(a, b, −c). -/
def fMulSub (a b c : Word) : Word := toF32 (fvalAdd (fvalMul (f32 a) (f32 b)) (fvalNeg (f32 c)))
/-- c − a × b as fusedMultiplyAdd(−a, b, c). -/
def fNegMulAdd (a b c : Word) : Word := toF32 (fvalAdd (fvalMul (fvalNeg (f32 a)) (f32 b)) (f32 c))
/-- fp32 of an integer. -/
def fOfInt (v : Int) : Word := toF32 (.fin (v < 0) v.natAbs 0)
/-- int32 of fp32, rounded and saturating, 0 for a NaN (R113). -/
def intOfF (a : Word) : Word :=
  match f32 a with
  | .nan => 0
  | .inf n => if n then 0x80000000 else 0x7FFFFFFF
  | v =>
    match fvalRound v with
    | some i => if i > 0x7FFFFFFF then 0x7FFFFFFF else if i < -0x80000000 then 0x80000000 else BitVec.ofInt 32 i
    | none => 0

/-- FMIN and FMAX (R118): a NaN for a NaN, −0 below +0, otherwise one input unchanged. -/
def fMin (a b : Word) : Word :=
  match f32 a, f32 b with
  | .nan, _ => qNaN
  | _, .nan => qNaN
  | x, y => if fvalEq x y then (if bit a 31 then a else b) else if fvalLt x y then a else b
def fMax (a b : Word) : Word :=
  match f32 a, f32 b with
  | .nan, _ => qNaN
  | _, .nan => qNaN
  | x, y => if fvalEq x y then (if bit a 31 then b else a) else if fvalLt x y then b else a

/-! ### Table functions (R132-R134) -/

/-- A finite non-zero value as 2^e·(1 + f): e, and the 23-bit fraction. -/
def normF (m : Nat) (e : Int) : Int × Nat :=
  let l := Nat.log2 m
  (e + l, m * 2 ^ (23 - l) % 2 ^ 23)

/-- ±2^e·(1 + m/256) as a normal fp32, infinite above and zero below the normal range (R132). -/
def estimate (neg : Bool) (e : Int) (m : Nat) : Word :=
  if e > 127 then toF32 (.inf neg) else if e < -126 then toF32 (.fin neg 0 0) else toF32 (.fin neg (256 + m) (e - 8))

/-- FRCPE (R132). -/
def frcpe (a : Word) : Word :=
  match f32 a with
  | .nan => qNaN
  | .inf n => toF32 (.fin n 0 0)
  | .fin n m e =>
    if m = 0 then toF32 (.inf n)
    else
      let (x, f) := normF m e
      let i := f / 2 ^ 15
      if f = 0 then estimate n (-x) 0
      else estimate n (-x - 1) ((2 * 256 * (511 - 2 * i) + (513 + 2 * i)) / (2 * (513 + 2 * i)))

/-- round(256·(2/√y − 1)) with ties to even, for y = num/256: the nearest m to 8192/√num − 256. -/
def rsqMant (num : Nat) : Nat :=
  let r := natSqrt (2 ^ 26 * 2 ^ 80 / num)
  -- r = ⌊2^13 / √num · 2^40⌋
  shrRNE (r - 256 * 2 ^ 40) 40 true

/-- FRSQE (R133). -/
def frsqe (a : Word) : Word :=
  match f32 a with
  | .nan => qNaN
  | .inf n => if n then qNaN else 0
  | .fin n m e =>
    if m = 0 then toF32 (.inf n)
    else if n then qNaN
    else
      let (x, f) := normF m e
      let p := (x % 2).toNat
      let k := (x - p) / 2
      let j := f / 2 ^ 16
      estimate false (-k - 1) (rsqMant (2 ^ p * (256 + 2 * j + 1)))

/-- π·2^160. -/
def piScaled : Nat := 0x3243f6a8885a308d313198a2e03707344a4093822

/-- Taylor terms of the sine of x·2^−160 from term `t` of order `k`: x − x³/3! + … . -/
def sinTerms (x : Nat) : Nat → Nat → Int → Bool → Int → Int
  | 0, _, _, _, acc => acc
  | n + 1, k, t, neg, acc =>
    sinTerms x n (k + 2) (t * x / 2 ^ 160 * x / 2 ^ 160 / ((k + 1) * (k + 2))) (!neg) (if neg then acc - t else acc + t)

/-- S(i) of R134 for i below 1024: the fp32 value nearest to sin(2π·i/1024). -/
def sinTable (i : Nat) : Word :=
  let q := i / 256
  let r := i % 256
  let arg := if q % 2 = 0 then r else 256 - r
  if arg = 0 then toF32 (.fin false 0 0)
  else if arg = 256 then toF32 (.fin (2 ≤ q) 1 0)
  else
    let x := piScaled * arg / 512
    let v := sinTerms x 30 1 x false 0
    toF32 (.fin (2 ≤ q) v.toNat (-160))

/-- TSIN, TCOS and TFRC (R134). -/
def tsin (ph : Word) : Word := sinTable (ph.toNat / 2 ^ 22)
def tcos (ph : Word) : Word := sinTable ((ph.toNat / 2 ^ 22 + 256) % 1024)
def tfrc (ph : Word) : Word := toF32 (.fin false (ph.toNat % 2 ^ 22) (-22))

/-! ### binary64 (spec/09_quantity_engine.md) -/

/-- The value of a binary64 pattern. -/
def f64 (w : BitVec 64) : FVal := fvalOfBits 53 11 w.toNat
/-- The binary64 pattern of a value, rounded once. -/
def toF64 (v : FVal) : BitVec 64 := BitVec.ofNat 64 (bitsOfFval 53 11 v)

end Sys2Proof.Machine
end

