-- ==== Sys2Proof/Machine/Flags.lean ====
section
/-!
DEFINITION. The conditions an engine computes: lane comparisons, predicate functions and saturation
(spec/04_engine_instruction_set.md R111, R113, R119, R120).
-/
namespace Sys2Proof.Machine

/-- Saturation to int32 (R111). -/
def sat32 (v : Int) : Word := if v > 0x7FFFFFFF then 0x7FFFFFFF else if v < -0x80000000 then 0x80000000 else BitVec.ofInt 32 v

/-- The Q31 product, rounded half up, saturating (R113). -/
def qMul (a b : Word) : Word := sat32 ((a.toInt * b.toInt + 2 ^ 30) / 2 ^ 31)

/-- The comparison that a function number of VCMP names, none where the table lists none (R119). -/
def vcmpFn (fn : Nat) (a b : Word) : Option Bool :=
  match fn with
  | 0 => some (a == b)
  | 1 => some (a != b)
  | 2 => some (a.slt b)
  | 3 => some (a.sle b)
  | 4 => some (a.ult b)
  | 5 => some (a.ule b)
  | 8 => some (fvalEq (f32 a) (f32 b))
  | 9 => some (fvalLt (f32 a) (f32 b))
  | 10 => some (fvalLt (f32 a) (f32 b) || fvalEq (f32 a) (f32 b))
  | 11 => some (f32 a == .nan || f32 b == .nan)
  | _ => none

/-- The comparison of ACMP: the integer ones only (R119). -/
def acmpFn (fn : Nat) (a b : Word) : Option Bool := if fn < 6 then vcmpFn fn a b else none

/-- The predicate functions of QOP; FN[4:3] are ignored (R120). -/
def qopFn (fn : Nat) (a b : BitVec 4) : BitVec 4 :=
  match fn % 8 with
  | 0 => a &&& b
  | 1 => a ||| b
  | 2 => a ^^^ b
  | 3 => a &&& ~~~b
  | 4 => ~~~a
  | 5 => if a = 0 then 0 else 0xF
  | 6 => if a = 0xF then 0xF else 0
  | _ => a

/-- A predicate with bit i from lane i. -/
def lanesQ (f : Nat → Bool) : BitVec 4 := BitVec.ofNat 4 (b2n (f 0) + 2 * b2n (f 1) + 4 * b2n (f 2) + 8 * b2n (f 3))

end Sys2Proof.Machine
end

