-- ==== Sys2Proof/Machine/Units/Engine.lean ====
section
/-!
DEFINITION. The state of the Marionette engines, of the clusters and of the Carafe's input side
(spec/02_tick_contract.md, spec/03_marionette_engines.md, spec/08_carafe_publication.md).
-/
namespace Sys2Proof

/-- One operation of a bundle slot with the fields of its format (spec/04_engine_instruction_set.md R106). -/
inductive EngOp where
  | nop (qp : BitVec 3)
  | mac (op : Nat) (qp : BitVec 3) (vd va vb vc : BitVec 6)
  | aop (qp : BitVec 3) (ad aa ab fn : BitVec 5)
  | aluImm (op : Nat) (qp : BitVec 3) (ad aa : BitVec 5) (imm : BitVec 13)
  | li (qp : BitVec 3) (ad : BitVec 5) (sel : BitVec 2) (imm : BitVec 16)
  | vr (op : Nat) (qp : BitVec 3) (fd fa fb : BitVec 6) (fn : BitVec 5)
  | ls (op : Nat) (qp : BitVec 3) (rg : BitVec 6) (ab : BitVec 5) (imm : BitVec 12)
  | xfer (op : Nat) (qp : BitVec 3) (al ar : BitVec 5) (imm7 : BitVec 7) (imm6 : BitVec 6)
  | br (qp : BitVec 3) (tgt : BitVec 13)
  | bra (qp : BitVec 3) (aa : BitVec 5)
  | wait (qp : BitVec 3) (n : BitVec 20)
  | waita (qp : BitVec 3) (aa : BitVec 5)
  | loop (qp : BitVec 3) (cm1 : BitVec 12) (len : BitVec 11)
  | pend (qp : BitVec 3)
  | illegal (slot : Nat) (w : Word)
  deriving DecidableEq, Repr

/-- A register that an engine operation writes (R70). -/
inductive RegDest where
  | v (n : Nat) | a (n : Nat) | q (n : Nat)
  deriving DecidableEq, Repr

/-- A register write that waits for its instant (R71): due instant, register, lanes written, value, issue instant and
slot. -/
structure PendWrite where
  due : Nat
  dest : RegDest
  lanes : BitVec 4
  value : BitVec 128
  issued : Nat
  slot : Nat
  deriving DecidableEq, Repr

/-- A store that waits to become visible (R83): the instant, the address of each lane's word with its data. -/
structure PendStore where
  visible : Nat
  cells : List (Nat × Word)
  deriving DecidableEq, Repr

/-- The kinds of block transfer (spec/04_engine_instruction_set.md R124). -/
inductive XferKind where
  | clrd | clwr | ovl | hrd | dep
  deriving DecidableEq, Repr

/-- A block transfer issued and not yet complete. All instants are ME cycles of device time. -/
structure Xfer where
  kind : XferKind
  engine : Nat
  issued : Nat
  tid : Nat
  part : Nat
  pc : Nat
  /-- the predicate let it act (R74) -/
  live : Bool
  /-- the local side passed R93 -/
  localOk : Bool
  /-- the remote side passed R93 and a slot-table entry was found -/
  remoteOk : Bool
  /-- DMEM byte address, or IMEM line of an overlay -/
  loc : Nat
  /-- cluster-memory byte address, sealed-frame block or publish-table block -/
  remote : Nat
  /-- its source read or landing lost a bank conflict (R55) -/
  lost : Bool
  /-- instant of the DMEM source read, when it has one still to make -/
  srcDue : Option Nat
  /-- fabric cycle of the bank access as an ME-cycle instant, when it has one still to make -/
  bankDue : Option Nat
  /-- instant of the landing or of the acceptance -/
  landDue : Nat
  /-- the 64 bytes carried -/
  data : List Byte
  deriving DecidableEq, Repr

/-- Which operation occupies a DMEM bank in an ME cycle (R55). -/
structure BankUse where
  tm : Nat
  bank : Nat
  deriving DecidableEq, Repr

/-- One entry of a partition table (R88). -/
structure PartEntry where
  start : Nat
  stop : Nat
  entry : Nat
  tid : Nat
  valid : Bool
  imemBase : Nat
  imemLimit : Nat
  dmem0Base : Nat
  dmem0Limit : Nat
  dmem1Base : Nat
  dmem1Limit : Nat
  clmBase : Nat
  clmLimit : Nat
  hopBase : Nat
  hopLimit : Nat
  deriving DecidableEq, Repr

/-- The bundle that an engine executes in the present ME cycle: its instant, its address and the operations of its
slots that have not issued yet. -/
structure Latch where
  tm : Nat
  pc : Nat
  /-- partition that executes it -/
  part : Nat
  ops : Tab EngOp
  deriving DecidableEq, Repr

/-- One open loop level (R77): body start, body end and passes left. -/
structure LoopLevel where
  start : Nat
  stop : Nat
  count : Nat
  deriving DecidableEq, Repr

/-- A Marionette engine (spec/03_marionette_engines.md). -/
structure Engine where
  /-- V0-V63, lane 0 in the low word (R70) -/
  v : Tab (BitVec 128)
  /-- A0-A31 -/
  a : Tab Word
  /-- Q1-Q7; Q0 is not stored (R73) -/
  q : Tab (BitVec 4)
  writes : List PendWrite
  stores : List PendStore
  /-- last in-flight instant of every counted operation (R79) -/
  inflight : List Nat
  peak : Nat
  uses : List BankUse
  hopPrev : Option Nat
  running : Bool
  /-- partition whose window was opened last and has not ended -/
  part : Option Nat
  /-- the open partition issues nothing: its tenant does not run, or its fetch left its region (R92, R93) -/
  muted : Bool
  /-- instant of the PEND that ended the open partition (R91) -/
  pendAt : Option Nat
  /-- bundle executed last in the open window, none before its entry bundle -/
  lastPc : Option Nat
  redirects : List (Nat × Nat)
  waitUntil : Nat
  loops : List LoopLevel
  latch : Option Latch
  /-- pending overlay lines with the last instant at which each is pending (R84) -/
  overlays : List (Nat × Nat)
  /-- partition table in force (R94) -/
  table : Tab PartEntry
  tablePend : Bool
  /-- violations of this tick (R98): 16 * partition + FAULT_STAT bit, bit 15 for one that another page flags -/
  violators : List Nat
  /-- last bundle issued in this tick: instant and partition (ME_LAST) -/
  lastIssue : Option (Nat × Nat)
  /-- register lanes that hold a parity error (R96): V lanes as 4 * n + lane, A as 256 + n -/
  parity : List Nat
  deriving DecidableEq, Repr

/-- An engine after reset. -/
def Engine.init : Engine :=
  { v := [], a := [], q := [], writes := [], stores := [], inflight := [], peak := 0, uses := [], hopPrev := none,
    running := false, part := none, muted := false, pendAt := none, lastPc := none, redirects := [], waitUntil := 0,
    loops := [], latch := none, overlays := [], table := [], tablePend := false, violators := [],
    lastIssue := none, parity := [] }

/-- A cluster: the slot-table entries taken (fabric cycle and bank, R86). -/
structure Cluster where
  taken : List (Nat × Nat)
  tabPend : Bool
  deriving DecidableEq, Repr

/-- A cluster after reset. -/
def Cluster.init : Cluster := { taken := [], tabPend := false }

/-- A fabric access to engine or cluster memory that waits to be served (R56). -/
structure FabricAccess where
  tid : Nat
  addr : Nat
  len : Nat
  write : Option (List Byte)
  arrived : Nat
  /-- within its tenant's depth (R294); an access beyond it is held at its issuer -/
  admitted : Bool
  deriving DecidableEq, Repr

/-- One block place of a Carafe port (spec/02_tick_contract.md R62): none in `block` for a deposit that carries no block. -/
structure BlockPlace where
  block : Option Nat
  data : List Byte
  tid : Nat
  issued : Nat
  deriving DecidableEq, Repr

/-- The Carafe (spec/08_carafe_publication.md). -/
structure Carafe where
  /-- input ports by engine: block places in acceptance order (R62, R204) -/
  ports : Tab (List BlockPlace)
  /-- port served last, and the fabric cycle of the latest drain -/
  lastServed : Nat
  lastDrainAt : Option Nat
  /-- blocks drained into the back table since the latest flip -/
  drained : Tab (List Byte)
  /-- ME cycle of the latest drain of the present tick, none where no block was drained -/
  drainCycle : Option Nat
  /-- a block has been discarded as late for the flip to come (R63) -/
  late : Bool
  /-- lanes that publish invalid at the next flip, and TIDs all of whose SRC 0 lanes do (R63, R66) -/
  badLanes : List Nat
  badTids : List Nat
  /-- TIDs whose lanes publish invalid at the flip of the following tick (R66), and lanes that do so unless a deposit to
  them arrives in time (R63) -/
  nextBadTids : List Nat
  nextQuietLanes : List Nat
  quietLanes : List Nat
  /-- the flip of the present tick has taken place -/
  flipped : Bool
  /-- lanes in force: range and configuration words (R202) -/
  lanes : Tab (Word × Word)
  /-- a lane's registers were written since the latest tick edge -/
  lanesPend : Bool
  /-- PUB_POINT in force, and whether a written value waits for the next tick edge (R49) -/
  pubPoint : Nat
  pubPend : Bool
  /-- STAT.FRONT: buffer 1 is the front buffer -/
  front1 : Bool
  /-- the publish tables by 8 * block + entry: value and quality; an entry that is not listed is value 0, quality
  0x8000_0001 (R201) -/
  buf0 : Tab (Word × Word)
  buf1 : Tab (Word × Word)
  /-- what the units of SRC 1-3 have written, by entry (R207) -/
  unit : Tab (Word × Word)
  /-- lane entries that a RESTORE has carried: their previous publication from the next flip (spec/12_tenants.md R307) -/
  restored : Tab (Word × Word)
  deriving DecidableEq, Repr

/-- The Carafe after reset: PUB_POINT 240,000 (R222). -/
def Carafe.init : Carafe :=
  { ports := [], lastServed := 15, lastDrainAt := none, drained := [], drainCycle := none, late := false, badLanes := [],
    badTids := [], nextBadTids := [], nextQuietLanes := [], quietLanes := [], flipped := false, lanes := [],
    lanesPend := false, pubPoint := 240000, pubPend := false, front1 := false, buf0 := [], buf1 := [], unit := [], restored := [] }

end Sys2Proof
end

