-- ==== Sys2Proof/Machine/Operands.lean ====
section
/-!
DEFINITION. The operands of engine operations: registers as the issue cycle reads them, lanes, immediates, effective
addresses and transfer descriptors (spec/03_marionette_engines.md R70-R74, spec/04_engine_instruction_set.md R106-R134).
-/
namespace Sys2Proof.Machine

/-- V register `n` (R70), as it stands in the ME cycle of the bundle (spec/02_tick_contract.md R53). -/
def regV (e : Engine) (n : Nat) : BitVec 128 := tget 0 e.v n
/-- A register `n`. -/
def regA (e : Engine) (n : Nat) : Word := tget 0 e.a n
/-- Q register `n`; Q0 reads as 0xF (R73). -/
def regQ (e : Engine) (n : Nat) : BitVec 4 := if n = 0 then 0xF else tget 0 e.q n

/-- Lane `i` of a vector: bits [32i+31:32i] (R70). -/
def lane (v : BitVec 128) (i : Nat) : Word := v.extractLsb' (32 * i) 32
/-- A vector from its lanes. -/
def mkV (f : Nat → Word) : BitVec 128 := f 3 ++ f 2 ++ f 1 ++ f 0
/-- The same word in every lane. -/
def splat (w : Word) : BitVec 128 := mkV (fun _ => w)
/-- A word in lane 0 of a value to write into an A or Q register. -/
def wide (w : Word) : BitVec 128 := BitVec.setWidth 128 w

/-- Lanes of `new` where `m` has a bit set, of `old` elsewhere. -/
def mergeLanes (m : BitVec 4) (old new : BitVec 128) : BitVec 128 :=
  mkV (fun i => if m.getLsbD i then lane new i else lane old i)

/-- The number of the A register that a 6-bit field names (R107). -/
def aOf (f : BitVec 6) : Nat := f.toNat % 32
/-- The number of the Q register that a 6-bit field names (R107). -/
def qOf (f : BitVec 6) : Nat := f.toNat % 8

/-- MAC lane results of format M (R112), none for an opcode that the table does not list. -/
def macLane (op : Nat) (a b c : Word) : Option Word :=
  match op with
  | 0x01 => some (fAdd a b)
  | 0x02 => some (fSub a b)
  | 0x03 => some (fMul a b)
  | 0x04 => some (fMulAdd a b c)
  | 0x05 => some (fMulSub a b c)
  | 0x06 => some (fNegMulAdd a b c)
  | 0x08 => some (fOfInt a.toInt)
  | 0x09 => some (intOfF a)
  | 0x10 => some (a * b)
  | 0x11 => some (a * b + c)
  | 0x12 => some (BitVec.ofInt 32 (a.toInt * b.toInt / 2 ^ 32))
  | 0x13 => some (qMul a b)
  | _ => none

/-- The horizontal sum (a0 + a1) + (a2 + a3), each addition rounded (R112). -/
def hsum (v : BitVec 128) : Word := fAdd (fAdd (lane v 0) (lane v 1)) (fAdd (lane v 2) (lane v 3))

/-- The integer functions 0x00-0x0B that AOP and VOP share (R116, R118). -/
def intFn (fn : Nat) (a b : Word) : Option Word :=
  match fn with
  | 0x00 => some (a + b)
  | 0x01 => some (a - b)
  | 0x02 => some (a &&& b)
  | 0x03 => some (a ||| b)
  | 0x04 => some (a ^^^ b)
  | 0x05 => some (a <<< (b.toNat % 32))
  | 0x06 => some (a >>> (b.toNat % 32))
  | 0x07 => some (a.sshiftRight (b.toNat % 32))
  | 0x08 => some (if a.slt b then a else b)
  | 0x09 => some (if a.slt b then b else a)
  | 0x0A => some (if a.ult b then a else b)
  | 0x0B => some (if a.ult b then b else a)
  | _ => none

/-- The functions of AOP (R116). -/
def aopFn (fn : Nat) (a b : Word) : Option Word :=
  match fn with
  | 0x0C => some (if a.slt b then 1 else 0)
  | 0x0D => some (if a.ult b then 1 else 0)
  | 0x0E => some a
  | _ => intFn fn a b

/-- The functions of VOP on two vectors (R118). -/
def vopFn (fn : Nat) (a b : BitVec 128) : Option (BitVec 128) :=
  let each (f : Word → Word → Word) : Option (BitVec 128) := some (mkV (fun i => f (lane a i) (lane b i)))
  match fn with
  | 0x10 => each (fun x y => sat32 (x.toInt + y.toInt))
  | 0x11 => each (fun x y => sat32 (x.toInt - y.toInt))
  | 0x12 => each (fun x _ => sat32 (if x.toInt < 0 then -x.toInt else x.toInt))
  | 0x13 => each (fun x _ => x &&& 0x7FFFFFFF)
  | 0x14 => each (fun x _ => x ^^^ 0x80000000)
  | 0x15 => each fMin
  | 0x16 => each fMax
  | 0x17 => some a
  | 0x18 => some (mkV (fun i => lane a ((i + 1) % 4)))
  | 0x19 => some (mkV (fun i => lane a ((i + 2) % 4)))
  | 0x1A => some (mkV (fun i => lane a ((i + 3) % 4)))
  | _ => if fn < 0x0C then each (fun x y => (intFn fn x y).getD 0) else none

/-- The table functions of TLU (R130). -/
def tluFn (fn : Nat) (a : Word) : Option Word :=
  match fn with
  | 0 => some (frcpe a)
  | 1 => some (frsqe a)
  | 2 => some (tsin a)
  | 3 => some (tcos a)
  | 4 => some (tfrc a)
  | _ => none

/-- The immediate operations of the ALU (R115): opcodes 0x02-0x09. -/
def immFn (op : Nat) (a : Word) (imm : BitVec 13) : Word :=
  let x : Word := imm.signExtend 32
  let sh := imm.toNat % 32
  match op with
  | 0x02 => a + x
  | 0x03 => a &&& x
  | 0x04 => a ||| x
  | 0x05 => a ^^^ x
  | 0x06 => a <<< sh
  | 0x07 => a >>> sh
  | 0x08 => a.sshiftRight sh
  | _ => if a.slt x then 1 else 0

/-- LI (R117). -/
def liFn (sel : BitVec 2) (old : Word) (imm : BitVec 16) : Word :=
  match sel.toNat with
  | 0 => imm.signExtend 32
  | 1 => imm ++ (0 : BitVec 16)
  | 2 => old.extractLsb' 16 16 ++ imm
  | _ => imm ++ old.extractLsb' 0 16

/-- The effective address of an LSU operation, with the low bits that the access size ignores cleared (R82, R121). -/
def lsuAddr (base : Word) (imm : BitVec 12) (size : Nat) : Nat :=
  let ea := base + imm.signExtend 32 * word size
  ea.toNat / size * size

/-- The DMEM byte address of an XFER operation, bits [5:0] ignored (R125). -/
def xferDmem (base : Word) (imm7 : BitVec 7) : Nat := (base + imm7.signExtend 32 * 64).toNat / 64 * 64
/-- The IMEM line of an overlay (R125). -/
def xferLine (base : Word) (imm7 : BitVec 7) : Nat := (base + imm7.signExtend 32).toNat
/-- The cluster-memory byte address of an XFER operation (R125). -/
def xferClm (base : Word) (imm6 : BitVec 6) : Nat := (base + imm6.setWidth 32 * 64).toNat / 64 * 64
/-- The sealed-frame or publish-table block of an XFER operation (R125). -/
def xferBlock (base : Word) (imm6 : BitVec 6) : Nat := (base + imm6.setWidth 32).toNat

/-- The DMEM bank that an address occupies (R82). -/
def dmemBank (a : Nat) : Nat := a % 0x60000 / 0x18000

end Sys2Proof.Machine
end

