-- ==== Sys2Proof/Machine/EngineDecode.lean ====
section
/-!
DEFINITION. The decoder of bundle slots (spec/04_engine_instruction_set.md R103-R107, R112-R128, R135).
-/
namespace Sys2Proof.Machine

/-- Bits [lo+n-1:lo] of a slot word. -/
def opBits (w : Word) (lo n : Nat) : BitVec n := w.extractLsb' lo n

/-- The operation of a MAC slot (format M). -/
def decodeMac (slot : Nat) (w : Word) : EngOp :=
  let op := (opBits w 24 5).toNat
  let qp := opBits w 29 3
  if op = 0 then .nop qp
  else if op ≤ 9 ∨ (0x10 ≤ op ∧ op ≤ 0x13) then
    .mac op qp (opBits w 18 6) (opBits w 12 6) (opBits w 6 6) (opBits w 0 6)
  else .illegal slot w

/-- The operation of the ALU slot (formats AR, AI, LI and VR), with the function numbers of R116, R118, R119 and R130. -/
def decodeAlu (w : Word) : EngOp :=
  let op := (opBits w 23 6).toNat
  let qp := opBits w 29 3
  let fn := opBits w 0 5
  let vr : EngOp := .vr op qp (opBits w 17 6) (opBits w 11 6) (opBits w 5 6) fn
  if op = 0 then .nop qp
  else if op = 1 then
    (if (aopFn fn.toNat 0 0).isSome then .aop qp (opBits w 18 5) (opBits w 13 5) (opBits w 8 5) fn else .illegal 2 w)
  else if 2 ≤ op ∧ op ≤ 9 then .aluImm op qp (opBits w 18 5) (opBits w 13 5) (opBits w 0 13)
  else if op = 0x0A then .li qp (opBits w 18 5) (opBits w 16 2) (opBits w 0 16)
  else if op = 0x10 then (if (vopFn fn.toNat 0 0).isSome then vr else .illegal 2 w)
  else if op = 0x11 then (if (vcmpFn fn.toNat 0 0).isSome then vr else .illegal 2 w)
  else if op = 0x15 then (if fn.toNat ≤ 4 then vr else .illegal 2 w)
  else if op = 0x1C then (if (acmpFn fn.toNat 0 0).isSome then vr else .illegal 2 w)
  else if (0x12 ≤ op ∧ op ≤ 0x14) ∨ (0x18 ≤ op ∧ op ≤ 0x1B) then vr
  else .illegal 2 w

/-- The operation of the LSU slot (format LS). -/
def decodeLsu (w : Word) : EngOp :=
  let op := (opBits w 23 6).toNat
  let qp := opBits w 29 3
  if op = 0 then .nop qp
  else if op ≤ 7 then .ls op qp (opBits w 17 6) (opBits w 12 5) (opBits w 0 12)
  else .illegal 3 w

/-- The operation of the XFER slot (format X). -/
def decodeXfer (w : Word) : EngOp :=
  let op := (opBits w 23 6).toNat
  let qp := opBits w 29 3
  if op = 0 then .nop qp
  else if op ≤ 5 then .xfer op qp (opBits w 18 5) (opBits w 13 5) (opBits w 6 7) (opBits w 0 6)
  else .illegal 4 w

/-- The operation of the CTL slot (format C) in the bundle at address `pc`. -/
def decodeCtl (w : Word) (pc : Nat) : EngOp :=
  let op := (opBits w 23 6).toNat
  let qp := opBits w 29 3
  match op with
  | 0 => .nop qp
  | 1 => .br qp (opBits w 0 13)
  | 2 => .bra qp (opBits w 18 5)
  | 3 => .wait qp (opBits w 0 20)
  | 4 => .waita qp (opBits w 18 5)
  | 5 =>
    if 8191 < pc + 1 + (opBits w 0 11).toNat then .illegal 5 w
    else .loop qp (opBits w 11 12) (opBits w 0 11)
  | 6 => .pend qp
  | _ => .illegal 5 w

/-- The operation of slot `slot` of the bundle at address `pc` (R103: MAC0 0, MAC1 1, ALU 2, LSU 3, XFER 4, CTL 5). -/
def decodeSlot (slot : Nat) (w : Word) (pc : Nat) : EngOp :=
  match slot with
  | 0 => decodeMac 0 w
  | 1 => decodeMac 1 w
  | 2 => decodeAlu w
  | 3 => decodeLsu w
  | 4 => decodeXfer w
  | _ => decodeCtl w pc

/-- Whether an operation counts as in flight (R79). -/
def counted : EngOp → Bool
  | .mac .. => true
  | .ls .. => true
  | .xfer .. => true
  | _ => false

end Sys2Proof.Machine
end

