-- ==== Sys2Proof/Config.lean ====
section
/-!
DEFINITION. What the spec leaves to the part or to named standards: free values (no body, so no proof can see
them) and the results of the cryptographic standards that the vault carries out (spec/16_vault_and_boot.md).
-/
namespace Sys2Proof.Config

/-- The three parts of the family (spec/00_scope.md R2-R5). -/
inductive Variant where
  | wln4840 | wln4830 | wln4820
  deriving DecidableEq, Repr

/-- Free value: the `n`-th value that the spec leaves open (assumption 5). -/
opaque freeWord : Nat → Word

/-- Free value, wider: the `n`-th open value as a number (assumption 5). -/
opaque freeNat : Nat → Nat

/-- The bit that an LPDDR4X or flash byte not written since reset holds, none where ECC rejects it
(spec/17_modes_clocks_power.md R426; assumption 8). -/
opaque storedByte : Nat → Option Byte

/-- BLK_CAPS, BLK_REV.MINOR and DIR_SILICON.STEPPING, which the spec does not give (assumption 2). -/
opaque blkCaps : Nat → Word
opaque blkMinor : Nat → Nat
opaque stepping : Nat

/-- SHA3-512 of a string of bytes (FIPS 202), as a number of 512 bits (assumption 9). -/
opaque sha3_512 : List Byte → Nat
/-- SHA3-256 of a string of bytes. -/
opaque sha3_256 : List Byte → Nat
/-- KMAC256(K, X, L, S) of NIST SP 800-185, as a number of L bits (assumption 9). -/
opaque kmac256 : (key : Nat) → (x : List Byte) → (l : Nat) → (s : String) → Nat
/-- Ed25519 verification: public key, message, signature. -/
opaque ed25519Verify : List Byte → List Byte → List Byte → Bool
/-- ML-DSA-65 verification of FIPS 204: public key, message, signature. -/
opaque mldsa65Verify : List Byte → List Byte → List Byte → Bool
/-- Ed25519 signature under a secret, and its public key. -/
opaque ed25519Sign : Nat → List Byte → List Byte
opaque ed25519Public : Nat → List Byte
/-- Hedged ML-DSA-65 signature under the key pair of a seed, with 32 random bytes; and its public key. -/
opaque mldsa65Sign : Nat → List Byte → List Byte → List Byte
opaque mldsa65Public : Nat → List Byte
/-- AES-256-GCM: key, nonce, AAD, plaintext to ciphertext and tag. -/
opaque gcmSeal : Nat → List Byte → List Byte → List Byte → List Byte
/-- AES-256-GCM: key, nonce, AAD, ciphertext and tag to plaintext, none where the tag fails. -/
opaque gcmOpen : Nat → List Byte → List Byte → List Byte → Option (List Byte)
/-- HMAC-SHA256 of key and message (IEC 62351-6). -/
opaque hmacSha256 : Nat → List Byte → List Byte
/-- AES-GMAC of key, nonce and message (IEC 62351-6). -/
opaque aesGmac : Nat → List Byte → List Byte → List Byte
/-- The security extension of IEC 62351-6 that carries an algorithm (1 HMAC-SHA256, 2 AES-256-GMAC), a key ID and a tag after the APDU,
and what such an extension carries (spec/08_carafe_publication.md R216; assumption 24). -/
opaque gooseExtension : (alg keyId : Nat) → (tag : List Byte) → List Byte
opaque readGooseExtension : List Byte → Option (Nat × Nat × List Byte)
/-- The 64 bytes that SLOT_INFO returns for the attributes of a slot: their layout is not given (spec/16_vault_and_boot.md R409;
assumption 21). Arguments: KIND, USE, TID, depth, parent, PGEN, GEN, persistence, count, KEY_ID; LABEL. -/
opaque slotInfo : List Nat → List Byte → List Byte
/-- The number that KIND of a slot shows: the spec numbers none (R403, R420; assumption 21). Argument: 0 EMPTY, 1 derived, 2 imported, 3 verify,
4 a root. -/
opaque kindNumber : Nat → Byte
/-- The `n`-th random byte string of a length (spec/16_vault_and_boot.md R414). -/
opaque random : Nat → Nat → List Byte
/-- The digest of the Oahearis provisioning keys held in ROM, and the ROM revision (R398, R400). -/
opaque provisioningDigest : Nat
opaque romRevision : List Byte
/-- The fuse bytes of OTP counter 0 at 0x0200-0x023F for a value of it, and the OTP bytes between 0x0020 and 0x01FF that hold no field,
which MEAS0 covers (R392, R398; assumption 41). -/
opaque otpFuses : Nat → List Byte
opaque otpSpare : Nat → Byte

end Sys2Proof.Config
end

