-- ==== Sys2Proof/Machine/Registers.lean ====
section
/-!
DEFINITION. The register pages: which page lies where, which pages a part has, and the descriptor of every
register (spec/01_register_pages.md R17-R19, R24, and the register tables of each chapter).
-/
namespace Sys2Proof.Machine

/-- The kinds of register page (R17). -/
inductive PageKind where
  | dir | mode | clk | irq0 | irq1 | me | clu | str0 | str1 | str2 | str3 | hop0 | hop1 | hop2 | hop3 | dec0 | dec1 | car0 | car1 | gse0 | gse1 | qe0 | qe1 | pul | cap | lgr0 | lgr1 | ten | tens | pair0 | pair1 | port | red | time0 | time1 | time2 | time3 | vlt | ddr | gio
  deriving DecidableEq, Repr

/-- One row of a register table: `count` registers of 32 bits, `stride` bytes apart from offset `off`. The masks
name the bits of each field type of R24: `rw` bits that a write stores (RW, RWC and RWP), W1C, SC and WO1 bits;
every other bit ignores writes. `grp` is the lock group (R27). -/
structure RegRow where
  name : String
  off : Nat
  stride : Nat
  count : Nat
  reset : Word
  rw : Word
  w1c : Word
  sc : Word
  wo1 : Word
  grp : Option Nat
  deriving DecidableEq, Repr

/-- The header bits that a page adds to R19: block bits of CTRL that a write stores and those that start a
command, the reset value of STAT, the implemented IRQ_STAT and ERR_STAT flags and LOCK groups. -/
structure HeaderBits where
  ctrlRw : Word
  ctrlSc : Word
  statReset : Word
  irq : Word
  err : Word
  lock : Word
  deriving DecidableEq, Repr

namespace Off
abbrev BLK_ID : Nat := 0x000
abbrev BLK_REV : Nat := 0x004
abbrev CAP_NEXT : Nat := 0x008
abbrev BLK_CAPS : Nat := 0x00C
abbrev CTRL : Nat := 0x010
abbrev STAT : Nat := 0x014
abbrev IRQ_STAT : Nat := 0x018
abbrev IRQ_EN : Nat := 0x01C
abbrev IRQ_FORCE : Nat := 0x020
abbrev ERR_STAT : Nat := 0x024
abbrev LOCK : Nat := 0x028
abbrev TID_OWNER : Nat := 0x02C
abbrev MBX_SEL : Nat := 0x030
abbrev MBX_CTRL : Nat := 0x034
abbrev MBX_DATA : Nat := 0x038
abbrev IND_ADDR : Nat := 0x050
abbrev IND_DATA : Nat := 0x054
abbrev IND_CTRL : Nat := 0x058
abbrev ERR_INFO : Nat := 0x05C
abbrev DIR_SILICON : Nat := 0x060
abbrev DIR_PAGES : Nat := 0x064
abbrev MODE_STAT : Nat := 0x060
abbrev MODE_CMD : Nat := 0x064
abbrev MODE_AT : Nat := 0x068
abbrev MODE_RESULT : Nat := 0x06C
abbrev RST_CAUSE : Nat := 0x070
abbrev SAFE_CAUSE : Nat := 0x074
abbrev STRAPS : Nat := 0x078
abbrev HART_REL : Nat := 0x07C
abbrev HART_ENTRY_LO : Nat := 0x088
abbrev HART_ENTRY_HI : Nat := 0x08C
abbrev WDOG_CFG : Nat := 0x0A0
abbrev WDOG_KICK : Nat := 0x0A4
abbrev WDOG_LEFT : Nat := 0x0A8
abbrev PLL_STAT : Nat := 0x060
abbrev MON_CFG : Nat := 0x064
abbrev MON_PPM : Nat := 0x068
abbrev CLU_PD : Nat := 0x06C
abbrev PD_STAT : Nat := 0x070
abbrev SRC_PEND : Nat := 0x100
abbrev SRC_CLAIMED : Nat := 0x120
abbrev SRC_CFG : Nat := 0x400
abbrev THRESH : Nat := 0x100
abbrev CLAIM : Nat := 0x104
abbrev ME_CYCLE : Nat := 0x060
abbrev ME_LAST : Nat := 0x064
abbrev FAULT_STAT : Nat := 0x068
abbrev FAULT_INFO : Nat := 0x06C
abbrev FAULT_PC : Nat := 0x070
abbrev PART_FAULT : Nat := 0x074
abbrev FAULT_TICKS : Nat := 0x078
abbrev TICKS : Nat := 0x07C
abbrev INFLIGHT_PEAK : Nat := 0x080
abbrev ME_CE_COUNT : Nat := 0x084
abbrev ME_ECC_ADDR : Nat := 0x088
abbrev PT_START : Nat := 0x200
abbrev PT_END : Nat := 0x204
abbrev PT_CTRL : Nat := 0x208
abbrev PT_IMEM : Nat := 0x20C
abbrev PT_DMEM0 : Nat := 0x210
abbrev PT_DMEM1 : Nat := 0x214
abbrev PT_CLM : Nat := 0x218
abbrev PT_HOP : Nat := 0x21C
abbrev SLOT_LO : Nat := 0x060
abbrev SLOT_HI : Nat := 0x064
abbrev SLOT_ACT_LO : Nat := 0x080
abbrev SLOT_ACT_HI : Nat := 0x084
abbrev CFAULT_STAT : Nat := 0x0A0
abbrev MISS_INFO : Nat := 0x0A4
abbrev MISS_COUNT : Nat := 0x0A8
abbrev CLU_CE_COUNT : Nat := 0x0AC
abbrev CLU_ECC_ADDR : Nat := 0x0B0
abbrev IMG_ADDR_LO : Nat := 0x060
abbrev IMG_ADDR_HI : Nat := 0x064
abbrev IMG_LEN : Nat := 0x068
abbrev LD_CMD : Nat := 0x06C
abbrev LD_STAT : Nat := 0x070
abbrev LD_DETAIL : Nat := 0x074
abbrev ACT_TICK : Nat := 0x078
abbrev RS_ALT : Nat := 0x060
abbrev RS_TICK : Nat := 0x064
abbrev RS_CMD : Nat := 0x068
abbrev RS_STAT : Nat := 0x06C
abbrev ALT_ACT : Nat := 0x070
abbrev RS_LAST : Nat := 0x074
abbrev RS_COUNT : Nat := 0x078
abbrev SLOT_PRES : Nat := 0x060
abbrev ALT_INFO : Nat := 0x100
abbrev IMG_VERSION : Nat := 0x060
abbrev IMG_LAYOUT : Nat := 0x064
abbrev IMG_RATE : Nat := 0x068
abbrev IMG_KEY_LO : Nat := 0x06C
abbrev IMG_KEY_HI : Nat := 0x070
abbrev HOP_CFG : Nat := 0x060
abbrev SEAL_TICK : Nat := 0x064
abbrev SEAL_SUM : Nat := 0x068
abbrev RX_FRAMES : Nat := 0x06C
abbrev RX_ASDU : Nat := 0x070
abbrev FRAME_ERR : Nat := 0x074
abbrev UNMATCHED : Nat := 0x078
abbrev ASDU_REJ : Nat := 0x07C
abbrev LATE : Nat := 0x080
abbrev EARLY : Nat := 0x084
abbrev DUP : Nat := 0x088
abbrev SUBST : Nat := 0x08C
abbrev INVALID : Nat := 0x090
abbrev PARSE_LAST : Nat := 0x094
abbrev HSUB_SEL : Nat := 0x060
abbrev HSUB_CMD : Nat := 0x064
abbrev HSUB_RESULT : Nat := 0x068
abbrev SUB_DA_LO : Nat := 0x06C
abbrev SUB_DA_HI : Nat := 0x070
abbrev SUB_VLAN : Nat := 0x074
abbrev SUB_CONFREV : Nat := 0x078
abbrev SUB_LAYOUT : Nat := 0x07C
abbrev SUB_FRAME : Nat := 0x080
abbrev SUB_POLICY : Nat := 0x084
abbrev SUB_SVID_LEN : Nat := 0x088
abbrev SVID : Nat := 0x090
abbrev FRANGE : Nat := 0x060
abbrev HTEN_EVT : Nat := 0x0A0
abbrev HTEN_EVT_EN : Nat := 0x0E0
abbrev ARR_MAX : Nat := 0x060
abbrev DCH_SRC : Nat := 0x400
abbrev DCH_OUT : Nat := 0x404
abbrev DCH_CTRL : Nat := 0x408
abbrev DCH_STAT : Nat := 0x40C
abbrev DCH_SWAP_AT : Nat := 0x410
abbrev DCH_GD : Nat := 0x414
abbrev BANK_CFG0 : Nat := 0x418
abbrev BANK_CFG1 : Nat := 0x41C
abbrev COEF_SEL : Nat := 0x060
abbrev COEF : Nat := 0x200
abbrev DTEN_EVT : Nat := 0x400
abbrev DTEN_EVT_EN : Nat := 0x440
abbrev PUB_POINT : Nat := 0x060
abbrev PUB_SEQ : Nat := 0x064
abbrev CAR_FAULT : Nat := 0x068
abbrev CFAULT_INFO : Nat := 0x06C
abbrev LATE_COUNT : Nat := 0x070
abbrev OVF_COUNT : Nat := 0x074
abbrev VIOL_COUNT : Nat := 0x078
abbrev DRAIN_LAST : Nat := 0x07C
abbrev SLACK_MIN : Nat := 0x080
abbrev LANE_RANGE : Nat := 0x800
abbrev LANE_CFG : Nat := 0x804
abbrev CTEN_EVT : Nat := 0x060
abbrev CTEN_EVT_EN : Nat := 0x0A0
abbrev PUB_SEL : Nat := 0x060
abbrev PUB_CMD : Nat := 0x064
abbrev PUB_RESULT : Nat := 0x068
abbrev P_DA_LO : Nat := 0x06C
abbrev P_DA_HI : Nat := 0x070
abbrev P_VLAN : Nat := 0x074
abbrev P_CONFREV : Nat := 0x078
abbrev P_TIMING : Nat := 0x07C
abbrev P_POLICY : Nat := 0x080
abbrev P_KEYSLOT : Nat := 0x084
abbrev P_KID : Nat := 0x088
abbrev P_STRLEN : Nat := 0x090
abbrev UTC_CFG : Nat := 0x094
abbrev P_GOCBREF : Nat := 0x200
abbrev P_DATSET : Nat := 0x250
abbrev P_GOID : Nat := 0x2A0
abbrev P_MEM : Nat := 0x400
abbrev GSUB_SEL : Nat := 0x060
abbrev GSUB_CMD : Nat := 0x064
abbrev GSUB_RESULT : Nat := 0x068
abbrev S_DA_LO : Nat := 0x06C
abbrev S_DA_HI : Nat := 0x070
abbrev S_VLAN : Nat := 0x074
abbrev S_CONFREV : Nat := 0x078
abbrev S_POLICY : Nat := 0x07C
abbrev S_OUT : Nat := 0x080
abbrev S_KEYSLOT : Nat := 0x084
abbrev S_KID : Nat := 0x088
abbrev S_REFLEN : Nat := 0x090
abbrev S_GOCBREF : Nat := 0x200
abbrev S_MAP : Nat := 0x300
abbrev GTEN_EVT : Nat := 0x600
abbrev GTEN_EVT_EN : Nat := 0x640
abbrev QE_DONE : Nat := 0x060
abbrev QE_TICK : Nat := 0x064
abbrev PTS_EN : Nat := 0x068
abbrev SKIP_COUNT : Nat := 0x06C
abbrev QTEN_EVT : Nat := 0x100
abbrev QTEN_EVT_EN : Nat := 0x140
abbrev PT_SEL : Nat := 0x060
abbrev PT_CMD : Nat := 0x064
abbrev PT_RESULT : Nat := 0x068
abbrev PT_CFG : Nat := 0x06C
abbrev PT_HYST : Nat := 0x070
abbrev PT_TFIXED : Nat := 0x074
abbrev PT_TSRC : Nat := 0x078
abbrev PT_TSCALE : Nat := 0x07C
abbrev QCH_SRC : Nat := 0x080
abbrev QCH_SCALE : Nat := 0x0A0
abbrev TC_T : Nat := 0x100
abbrev TC_GPH : Nat := 0x200
abbrev PO_CFG : Nat := 0x100
abbrev PO_KH : Nat := 0x104
abbrev PO_WIDTH : Nat := 0x108
abbrev PO_SRC : Nat := 0x10C
abbrev PO_STAT : Nat := 0x110
abbrev PO_COUNT : Nat := 0x114
abbrev PO_GATED : Nat := 0x118
abbrev PO_LOST : Nat := 0x11C
abbrev REC_CFG : Nat := 0x060
abbrev REC_PRE : Nat := 0x064
abbrev REC_POST : Nat := 0x068
abbrev RING_LO : Nat := 0x06C
abbrev RING_HI : Nat := 0x070
abbrev RING_SIZE : Nat := 0x074
abbrev REC_CMD : Nat := 0x078
abbrev REC_STAT : Nat := 0x07C
abbrev WR_PTR : Nat := 0x080
abbrev HOLD_PTR : Nat := 0x084
abbrev DEAD_LAST : Nat := 0x088
abbrev DEAD_MAX : Nat := 0x08C
abbrev MISSED : Nat := 0x090
abbrev TRIG_COUNT : Nat := 0x094
abbrev TRG_CFG : Nat := 0x100
abbrev TRG_LEVEL : Nat := 0x104
abbrev TRG_HYST : Nat := 0x108
abbrev CH_SRC : Nat := 0x400
abbrev BUSY_LAST : Nat := 0x060
abbrev HW_FREE : Nat := 0x064
abbrev BUDGET_USED : Nat := 0x068
abbrev LP_CTRL : Nat := 0x100
abbrev LP_ELEM : Nat := 0x104
abbrev LP_TMR : Nat := 0x108
abbrev LP_EDG : Nat := 0x10C
abbrev LP_OUT : Nat := 0x110
abbrev LP_GPIO : Nat := 0x114
abbrev LP_STAT : Nat := 0x118
abbrev IDLE_LAST : Nat := 0x11C
abbrev IDLE_MIN : Nat := 0x120
abbrev SCANS : Nat := 0x124
abbrev SKIPS : Nat := 0x128
abbrev LLD_ADDR_LO : Nat := 0x060
abbrev LLD_ADDR_HI : Nat := 0x064
abbrev LLD_LEN : Nat := 0x068
abbrev LLD_CMD : Nat := 0x06C
abbrev LLD_STAT : Nat := 0x070
abbrev ONL_SEL : Nat := 0x080
abbrev ONL_VALUE : Nat := 0x084
abbrev ONL_AT : Nat := 0x088
abbrev ONL_CMD : Nat := 0x08C
abbrev ONL_STAT : Nat := 0x090
abbrev FRC_SEL : Nat := 0x0A0
abbrev FRC_TGT : Nat := 0x0A4
abbrev FRC_VAL : Nat := 0x0A8
abbrev FRC_AT : Nat := 0x0AC
abbrev FRC_CMD : Nat := 0x0B0
abbrev FRC_STAT : Nat := 0x0B4
abbrev LTEN_EVT : Nat := 0x100
abbrev LTEN_EVT_EN : Nat := 0x140
abbrev TEN_STATE : Nat := 0x060
abbrev TEN_CMD : Nat := 0x064
abbrev TEN_AT : Nat := 0x068
abbrev TEN_RESULT : Nat := 0x06C
abbrev FAULT_LIMIT : Nat := 0x070
abbrev FAULT_RUN : Nat := 0x074
abbrev TMISSED : Nat := 0x078
abbrev RESET_COUNT : Nat := 0x07C
abbrev TDRAIN_LAST : Nat := 0x080
abbrev TEVT : Nat := 0x084
abbrev TEVT_EN : Nat := 0x088
abbrev MAX_AGE : Nat := 0x08C
abbrev SHARE : Nat := 0x090
abbrev OCC : Nat := 0x0A0
abbrev MIG_ADDR_LO : Nat := 0x0B0
abbrev MIG_ADDR_HI : Nat := 0x0B4
abbrev MIG_LEN : Nat := 0x0B8
abbrev MIG_USED : Nat := 0x0BC
abbrev DDR_WIN : Nat := 0x0C0
abbrev EVT_MIRROR : Nat := 0x100
abbrev PART_FAULT_ENG : Nat := 0x118
abbrev STATES_LO : Nat := 0x060
abbrev STATES_HI : Nat := 0x064
abbrev RESET_BUSY : Nat := 0x068
abbrev TOTAL : Nat := 0x070
abbrev FREE : Nat := 0x080
abbrev PAIR_CFG : Nat := 0x060
abbrev REVERT_HOLD : Nat := 0x064
abbrev PEER_MAC_LO : Nat := 0x068
abbrev PEER_MAC_HI : Nat := 0x06C
abbrev BK_CFG : Nat := 0x070
abbrev PAIR_CMD : Nat := 0x074
abbrev HO_TICK : Nat := 0x078
abbrev PAIR_STAT : Nat := 0x07C
abbrev LEASE_LEFT : Nat := 0x080
abbrev COPY_LEFT : Nat := 0x084
abbrev HO_STAT : Nat := 0x088
abbrev GATE_STAT : Nat := 0x08C
abbrev OPEN_TICK : Nat := 0x090
abbrev CLOSE_TICK : Nat := 0x094
abbrev ADMIT_STAT : Nat := 0x098
abbrev SKEW : Nat := 0x060
abbrev LINK_DELAY : Nat := 0x064
abbrev LAST_CMP : Nat := 0x068
abbrev CMP_MASK : Nat := 0x06C
abbrev PAIR_CNT : Nat := 0x070
abbrev MISS_RUN : Nat := 0x094
abbrev INCOMP_HOLD : Nat := 0x100
abbrev PCFG : Nat := 0x060
abbrev MAC_LO : Nat := 0x064
abbrev MAC_HI : Nat := 0x068
abbrev MAXLEN : Nat := 0x06C
abbrev PAUSE_CFG : Nat := 0x070
abbrev VERIFY_CFG : Nat := 0x074
abbrev LINK_STAT : Nat := 0x078
abbrev QMAP : Nat := 0x07C
abbrev PCNT : Nat := 0x080
abbrev TXR_BASE_LO : Nat := 0x100
abbrev TXR_BASE_HI : Nat := 0x104
abbrev TXR_CFG : Nat := 0x108
abbrev RXR_BASE_LO : Nat := 0x10C
abbrev RXR_BASE_HI : Nat := 0x110
abbrev RXR_CFG : Nat := 0x114
abbrev RX_NODESC : Nat := 0x118
abbrev TX_REFUSED : Nat := 0x11C
abbrev DB_TX_TAIL : Nat := 0x400
abbrev DB_RX_TAIL : Nat := 0x404
abbrev DB_HEADS : Nat := 0x408
abbrev DB_EVT : Nat := 0x40C
abbrev CL_DA_LO : Nat := 0x600
abbrev CL_DA_HI : Nat := 0x604
abbrev CL_MATCH : Nat := 0x608
abbrev CL_TMASK : Nat := 0x60C
abbrev RED_CFG : Nat := 0x060
abbrev SUP_CFG : Nat := 0x068
abbrev NODE_CFG : Nat := 0x070
abbrev RED_CNT0 : Nat := 0x100
abbrev RED_CNT1 : Nat := 0x140
abbrev TICK_CFG : Nat := 0x060
abbrev TICK_STAT : Nat := 0x064
abbrev CLAMP_COUNT : Nat := 0x068
abbrev PPS_IN_CFG : Nat := 0x070
abbrev PPS_GLITCH : Nat := 0x078
abbrev PPS_OUT_CFG : Nat := 0x080
abbrev PPS_OUT_WIDTH : Nat := 0x084
abbrev CLOCK_ID_LO : Nat := 0x060
abbrev CLOCK_ID_HI : Nat := 0x064
abbrev TB_CFG : Nat := 0x100
abbrev TB_CMD : Nat := 0x104
abbrev TB_STAT : Nat := 0x108
abbrev TB_RATE : Nat := 0x10C
abbrev TB_OFFSET : Nat := 0x110
abbrev JUMP_THRESH : Nat := 0x114
abbrev LOCK_THRESH : Nat := 0x118
abbrev HOLD_MAX : Nat := 0x11C
abbrev SET_NS : Nat := 0x120
abbrev SET_SEC_LO : Nat := 0x124
abbrev SET_SEC_HI : Nat := 0x128
abbrev PARENT_LO : Nat := 0x12C
abbrev PARENT_MID : Nat := 0x130
abbrev PARENT_HI : Nat := 0x134
abbrev TB_REFUSED : Nat := 0x138
abbrev TB_ACCEPTED : Nat := 0x13C
abbrev PTP_RXR_BASE_LO : Nat := 0x060
abbrev PTP_RXR_BASE_HI : Nat := 0x064
abbrev PTP_RXR_CFG : Nat := 0x068
abbrev PTP_TXR_BASE_LO : Nat := 0x06C
abbrev PTP_TXR_BASE_HI : Nat := 0x070
abbrev PTP_TXR_CFG : Nat := 0x074
abbrev PTP_TAILS : Nat := 0x078
abbrev PTP_HEADS : Nat := 0x07C
abbrev PP_CFG : Nat := 0x100
abbrev TX_ADJ : Nat := 0x104
abbrev RX_ADJ : Nat := 0x108
abbrev PD_STAT_P : Nat := 0x10C
abbrev MEAN_DELAY : Nat := 0x110
abbrev NRR : Nat := 0x114
abbrev RX_EVT : Nat := 0x118
abbrev TX_EVT : Nat := 0x11C
abbrev PD_FAIL : Nat := 0x120
abbrev RX_DROP : Nat := 0x124
abbrev CMP_CFG : Nat := 0x100
abbrev CMP_TARGET : Nat := 0x104
abbrev CMP_PERIOD : Nat := 0x108
abbrev CMP_COUNT : Nat := 0x10C
abbrev VLT_STAT : Nat := 0x060
abbrev BOOT_INFO : Nat := 0x064
abbrev BOOT_VERSION : Nat := 0x068
abbrev CNT_OTP : Nat := 0x06C
abbrev REC_GEN : Nat := 0x078
abbrev SLOTS_USED : Nat := 0x07C
abbrev VQ_BASE_LO : Nat := 0x400
abbrev VQ_BASE_HI : Nat := 0x404
abbrev VQ_PTR : Nat := 0x408
abbrev VQ_EVT : Nat := 0x40C
end Off

/-- Registers of a DIR page (R18). -/
def rowsDir : List RegRow := [
  ⟨"DIR_SILICON", 0x060, 0x4, 1, 0x0#32, 0x0#32, 0x0#32, 0x0#32, 0x0#32, none⟩,
  ⟨"DIR_PAGES", 0x064, 0x4, 1, 0x0#32, 0x0#32, 0x0#32, 0x0#32, 0x0#32, none⟩]

/-- Registers of a MODE page (R436). -/
def rowsMode : List RegRow := [
  ⟨"MODE_STAT", 0x060, 0x4, 1, 0x22#32, 0x0#32, 0x0#32, 0x0#32, 0x0#32, none⟩,
  ⟨"MODE_CMD", 0x064, 0x4, 1, 0x0#32, 0xFF000000#32, 0x0#32, 0x7F#32, 0x0#32, none⟩,
  ⟨"MODE_AT", 0x068, 0x4, 1, 0x0#32, 0xFFFFFFFF#32, 0x0#32, 0x0#32, 0x0#32, none⟩,
  ⟨"MODE_RESULT", 0x06C, 0x4, 1, 0x0#32, 0x0#32, 0x0#32, 0x0#32, 0x0#32, none⟩,
  ⟨"RST_CAUSE", 0x070, 0x4, 1, 0x1#32, 0x0#32, 0xFF#32, 0x0#32, 0x0#32, none⟩,
  ⟨"SAFE_CAUSE", 0x074, 0x4, 1, 0x0#32, 0x0#32, 0x0#32, 0x0#32, 0x0#32, none⟩,
  ⟨"STRAPS", 0x078, 0x4, 1, 0x0#32, 0x0#32, 0x0#32, 0x0#32, 0x0#32, none⟩,
  ⟨"HART_REL", 0x07C, 0x4, 1, 0x0#32, 0x0#32, 0x0#32, 0xE#32, 0x0#32, none⟩,
  ⟨"HART_ENTRY_LO", 0x088, 0x8, 3, 0x0#32, 0xFFFFFFFC#32, 0x0#32, 0x0#32, 0x0#32, some 0⟩,
  ⟨"HART_ENTRY_HI", 0x08C, 0x8, 3, 0x0#32, 0xFFFF#32, 0x0#32, 0x0#32, 0x0#32, some 0⟩,
  ⟨"WDOG_CFG", 0x0A0, 0x4, 1, 0x0#32, 0x0#32, 0x0#32, 0x0#32, 0xFFFF0003#32, some 0⟩,
  ⟨"WDOG_KICK", 0x0A4, 0x4, 1, 0x0#32, 0x0#32, 0x0#32, 0x1#32, 0x0#32, none⟩,
  ⟨"WDOG_LEFT", 0x0A8, 0x4, 1, 0x0#32, 0x0#32, 0x0#32, 0x0#32, 0x0#32, none⟩]

/-- Registers of a CLK page (R437). -/
def rowsClk : List RegRow := [
  ⟨"PLL_STAT", 0x060, 0x4, 1, 0x0#32, 0x0#32, 0x300#32, 0x0#32, 0x0#32, none⟩,
  ⟨"MON_CFG", 0x064, 0x4, 1, 0x1#32, 0x1#32, 0x0#32, 0x0#32, 0x0#32, some 0⟩,
  ⟨"MON_PPM", 0x068, 0x4, 1, 0x0#32, 0x0#32, 0x0#32, 0x0#32, 0x0#32, none⟩,
  ⟨"CLU_PD", 0x06C, 0x4, 1, 0x0#32, 0xF#32, 0x0#32, 0x0#32, 0x0#32, some 0⟩,
  ⟨"PD_STAT", 0x070, 0x4, 1, 0xF#32, 0x0#32, 0x0#32, 0x0#32, 0x0#32, none⟩]

/-- Registers of a IRQ0 page (R34). -/
def rowsIrq0 : List RegRow := [
  ⟨"SRC_PEND", 0x100, 0x4, 8, 0x0#32, 0x0#32, 0x0#32, 0x0#32, 0x0#32, none⟩,
  ⟨"SRC_CLAIMED", 0x120, 0x4, 8, 0x0#32, 0x0#32, 0x0#32, 0x0#32, 0x0#32, none⟩,
  ⟨"SRC_CFG", 0x400, 0x4, 256, 0x0#32, 0x173F#32, 0x0#32, 0x0#32, 0x0#32, none⟩]

/-- Registers of a IRQ1 page (R36). -/
def rowsIrq1 : List RegRow := [
  ⟨"THRESH", 0x100, 0x8, 68, 0x0#32, 0x7#32, 0x0#32, 0x0#32, 0x0#32, none⟩,
  ⟨"CLAIM", 0x104, 0x8, 68, 0x0#32, 0xFF#32, 0x0#32, 0x0#32, 0x0#32, none⟩]

/-- Registers of a ME page (R101). -/
def rowsMe : List RegRow := [
  ⟨"ME_CYCLE", 0x060, 0x4, 1, 0x0#32, 0x0#32, 0x0#32, 0x0#32, 0x0#32, none⟩,
  ⟨"ME_LAST", 0x064, 0x4, 1, 0x0#32, 0x0#32, 0x0#32, 0x0#32, 0x0#32, none⟩,
  ⟨"FAULT_STAT", 0x068, 0x4, 1, 0x0#32, 0x0#32, 0x1FFF#32, 0x0#32, 0x0#32, none⟩,
  ⟨"FAULT_INFO", 0x06C, 0x4, 1, 0x0#32, 0x0#32, 0x0#32, 0x0#32, 0x0#32, none⟩,
  ⟨"FAULT_PC", 0x070, 0x4, 1, 0x0#32, 0x0#32, 0x0#32, 0x0#32, 0x0#32, none⟩,
  ⟨"PART_FAULT", 0x074, 0x4, 1, 0x0#32, 0x0#32, 0x0#32, 0x0#32, 0x0#32, none⟩,
  ⟨"FAULT_TICKS", 0x078, 0x4, 1, 0x0#32, 0xFFFFFFFF#32, 0x0#32, 0x0#32, 0x0#32, none⟩,
  ⟨"TICKS", 0x07C, 0x4, 1, 0x0#32, 0xFFFFFFFF#32, 0x0#32, 0x0#32, 0x0#32, none⟩,
  ⟨"INFLIGHT_PEAK", 0x080, 0x4, 1, 0x0#32, 0x0#32, 0x0#32, 0x0#32, 0x0#32, none⟩,
  ⟨"ME_CE_COUNT", 0x084, 0x4, 1, 0x0#32, 0xFFFFFFFF#32, 0x0#32, 0x0#32, 0x0#32, none⟩,
  ⟨"ME_ECC_ADDR", 0x088, 0x4, 1, 0x0#32, 0x0#32, 0x0#32, 0x0#32, 0x0#32, none⟩,
  ⟨"PT_START", 0x200, 0x20, 16, 0x0#32, 0xFFFFF#32, 0x0#32, 0x0#32, 0x0#32, some 0⟩,
  ⟨"PT_END", 0x204, 0x20, 16, 0x0#32, 0xFFFFF#32, 0x0#32, 0x0#32, 0x0#32, some 0⟩,
  ⟨"PT_CTRL", 0x208, 0x20, 16, 0x0#32, 0x800F1FFF#32, 0x0#32, 0x0#32, 0x0#32, some 0⟩,
  ⟨"PT_IMEM", 0x20C, 0x20, 16, 0x0#32, 0x3FFF3FFF#32, 0x0#32, 0x0#32, 0x0#32, some 0⟩,
  ⟨"PT_DMEM0", 0x210, 0x20, 16, 0x0#32, 0x1FF01FF#32, 0x0#32, 0x0#32, 0x0#32, some 0⟩,
  ⟨"PT_DMEM1", 0x214, 0x20, 16, 0x0#32, 0x1FF01FF#32, 0x0#32, 0x0#32, 0x0#32, some 0⟩,
  ⟨"PT_CLM", 0x218, 0x20, 16, 0x0#32, 0x3FF03FF#32, 0x0#32, 0x0#32, 0x0#32, some 0⟩,
  ⟨"PT_HOP", 0x21C, 0x20, 16, 0x0#32, 0x1FFF0FFF#32, 0x0#32, 0x0#32, 0x0#32, some 0⟩]

/-- Registers of a CLU page (R102). -/
def rowsClu : List RegRow := [
  ⟨"SLOT_LO", 0x060, 0x8, 4, 0x88888888#32, 0xFFFFFFFF#32, 0x0#32, 0x0#32, 0x0#32, some 0⟩,
  ⟨"SLOT_HI", 0x064, 0x8, 4, 0x88888888#32, 0xFFFFFFFF#32, 0x0#32, 0x0#32, 0x0#32, some 0⟩,
  ⟨"SLOT_ACT_LO", 0x080, 0x8, 4, 0x88888888#32, 0x0#32, 0x0#32, 0x0#32, 0x0#32, none⟩,
  ⟨"SLOT_ACT_HI", 0x084, 0x8, 4, 0x88888888#32, 0x0#32, 0x0#32, 0x0#32, 0x0#32, none⟩,
  ⟨"CFAULT_STAT", 0x0A0, 0x4, 1, 0x0#32, 0x0#32, 0x3#32, 0x0#32, 0x0#32, none⟩,
  ⟨"MISS_INFO", 0x0A4, 0x4, 1, 0x0#32, 0x0#32, 0x0#32, 0x0#32, 0x0#32, none⟩,
  ⟨"MISS_COUNT", 0x0A8, 0x4, 1, 0x0#32, 0xFFFFFFFF#32, 0x0#32, 0x0#32, 0x0#32, none⟩,
  ⟨"CLU_CE_COUNT", 0x0AC, 0x4, 1, 0x0#32, 0xFFFFFFFF#32, 0x0#32, 0x0#32, 0x0#32, none⟩,
  ⟨"CLU_ECC_ADDR", 0x0B0, 0x4, 1, 0x0#32, 0x0#32, 0x0#32, 0x0#32, 0x0#32, none⟩]

/-- Registers of a STR0 page (R157). -/
def rowsStr0 : List RegRow := [
  ⟨"IMG_ADDR_LO", 0x060, 0x4, 1, 0x0#32, 0xFFFFFFFF#32, 0x0#32, 0x0#32, 0x0#32, none⟩,
  ⟨"IMG_ADDR_HI", 0x064, 0x4, 1, 0x0#32, 0xFFFF#32, 0x0#32, 0x0#32, 0x0#32, none⟩,
  ⟨"IMG_LEN", 0x068, 0x4, 1, 0x0#32, 0xFFFFFFFF#32, 0x0#32, 0x0#32, 0x0#32, none⟩,
  ⟨"LD_CMD", 0x06C, 0x4, 1, 0x0#32, 0x0#32, 0x0#32, 0x7#32, 0x0#32, none⟩,
  ⟨"LD_STAT", 0x070, 0x4, 1, 0x0#32, 0x0#32, 0x0#32, 0x0#32, 0x0#32, none⟩,
  ⟨"LD_DETAIL", 0x074, 0x4, 1, 0x0#32, 0x0#32, 0x0#32, 0x0#32, 0x0#32, none⟩,
  ⟨"ACT_TICK", 0x078, 0x4, 1, 0x0#32, 0x0#32, 0x0#32, 0x0#32, 0x0#32, none⟩]

/-- Registers of a STR1 page (R158). -/
def rowsStr1 : List RegRow := [
  ⟨"RS_ALT", 0x060, 0x4, 1, 0x0#32, 0xFF#32, 0x0#32, 0x0#32, 0x0#32, none⟩,
  ⟨"RS_TICK", 0x064, 0x4, 1, 0x0#32, 0xFFFFFFFF#32, 0x0#32, 0x0#32, 0x0#32, none⟩,
  ⟨"RS_CMD", 0x068, 0x4, 1, 0x0#32, 0x0#32, 0x0#32, 0x3#32, 0x0#32, none⟩,
  ⟨"RS_STAT", 0x06C, 0x4, 1, 0x0#32, 0x0#32, 0x0#32, 0x0#32, 0x0#32, none⟩,
  ⟨"ALT_ACT", 0x070, 0x4, 1, 0x0#32, 0x0#32, 0x0#32, 0x0#32, 0x0#32, none⟩,
  ⟨"RS_LAST", 0x074, 0x4, 1, 0x0#32, 0x0#32, 0x0#32, 0x0#32, 0x0#32, none⟩,
  ⟨"RS_COUNT", 0x078, 0x4, 1, 0x0#32, 0xFFFFFFFF#32, 0x0#32, 0x0#32, 0x0#32, none⟩]

/-- Registers of a STR2 page (R159). -/
def rowsStr2 : List RegRow := [
  ⟨"SLOT_PRES", 0x060, 0x4, 1, 0x0#32, 0x0#32, 0x0#32, 0x0#32, 0x0#32, none⟩,
  ⟨"ALT_INFO", 0x100, 0x4, 64, 0x0#32, 0x0#32, 0x0#32, 0x0#32, 0x0#32, none⟩]

/-- Registers of a STR3 page (R160). -/
def rowsStr3 : List RegRow := [
  ⟨"IMG_VERSION", 0x060, 0x4, 1, 0x0#32, 0x0#32, 0x0#32, 0x0#32, 0x0#32, none⟩,
  ⟨"IMG_LAYOUT", 0x064, 0x4, 1, 0x0#32, 0x0#32, 0x0#32, 0x0#32, 0x0#32, none⟩,
  ⟨"IMG_RATE", 0x068, 0x4, 1, 0x0#32, 0x0#32, 0x0#32, 0x0#32, 0x0#32, none⟩,
  ⟨"IMG_KEY_LO", 0x06C, 0x4, 1, 0x0#32, 0x0#32, 0x0#32, 0x0#32, 0x0#32, none⟩,
  ⟨"IMG_KEY_HI", 0x070, 0x4, 1, 0x0#32, 0x0#32, 0x0#32, 0x0#32, 0x0#32, none⟩]

/-- Registers of a HOP0 page (R182). -/
def rowsHop0 : List RegRow := [
  ⟨"HOP_CFG", 0x060, 0x4, 1, 0x3#32, 0x1F#32, 0x0#32, 0x0#32, 0x0#32, some 0⟩,
  ⟨"SEAL_TICK", 0x064, 0x4, 1, 0x0#32, 0x0#32, 0x0#32, 0x0#32, 0x0#32, none⟩,
  ⟨"SEAL_SUM", 0x068, 0x4, 1, 0x0#32, 0x0#32, 0x0#32, 0x0#32, 0x0#32, none⟩,
  ⟨"RX_FRAMES", 0x06C, 0x4, 1, 0x0#32, 0xFFFFFFFF#32, 0x0#32, 0x0#32, 0x0#32, none⟩,
  ⟨"RX_ASDU", 0x070, 0x4, 1, 0x0#32, 0xFFFFFFFF#32, 0x0#32, 0x0#32, 0x0#32, none⟩,
  ⟨"FRAME_ERR", 0x074, 0x4, 1, 0x0#32, 0xFFFFFFFF#32, 0x0#32, 0x0#32, 0x0#32, none⟩,
  ⟨"UNMATCHED", 0x078, 0x4, 1, 0x0#32, 0xFFFFFFFF#32, 0x0#32, 0x0#32, 0x0#32, none⟩,
  ⟨"ASDU_REJ", 0x07C, 0x4, 1, 0x0#32, 0xFFFFFFFF#32, 0x0#32, 0x0#32, 0x0#32, none⟩,
  ⟨"LATE", 0x080, 0x4, 1, 0x0#32, 0xFFFFFFFF#32, 0x0#32, 0x0#32, 0x0#32, none⟩,
  ⟨"EARLY", 0x084, 0x4, 1, 0x0#32, 0xFFFFFFFF#32, 0x0#32, 0x0#32, 0x0#32, none⟩,
  ⟨"DUP", 0x088, 0x4, 1, 0x0#32, 0xFFFFFFFF#32, 0x0#32, 0x0#32, 0x0#32, none⟩,
  ⟨"SUBST", 0x08C, 0x4, 1, 0x0#32, 0xFFFFFFFF#32, 0x0#32, 0x0#32, 0x0#32, none⟩,
  ⟨"INVALID", 0x090, 0x4, 1, 0x0#32, 0xFFFFFFFF#32, 0x0#32, 0x0#32, 0x0#32, none⟩,
  ⟨"PARSE_LAST", 0x094, 0x4, 1, 0x0#32, 0x0#32, 0x0#32, 0x0#32, 0x0#32, none⟩]

/-- Registers of a HOP1 page (R183). -/
def rowsHop1 : List RegRow := [
  ⟨"HSUB_SEL", 0x060, 0x4, 1, 0x0#32, 0x1FF#32, 0x0#32, 0x0#32, 0x0#32, none⟩,
  ⟨"HSUB_CMD", 0x064, 0x4, 1, 0x0#32, 0x0#32, 0x0#32, 0x3#32, 0x0#32, none⟩,
  ⟨"HSUB_RESULT", 0x068, 0x4, 1, 0x0#32, 0x0#32, 0x0#32, 0x0#32, 0x0#32, none⟩,
  ⟨"SUB_DA_LO", 0x06C, 0x4, 1, 0x0#32, 0xFFFFFFFF#32, 0x0#32, 0x0#32, 0x0#32, none⟩,
  ⟨"SUB_DA_HI", 0x070, 0x4, 1, 0x0#32, 0xFFFFFFFF#32, 0x0#32, 0x0#32, 0x0#32, none⟩,
  ⟨"SUB_VLAN", 0x074, 0x4, 1, 0x0#32, 0x3FFF#32, 0x0#32, 0x0#32, 0x0#32, none⟩,
  ⟨"SUB_CONFREV", 0x078, 0x4, 1, 0x0#32, 0xFFFFFFFF#32, 0x0#32, 0x0#32, 0x0#32, none⟩,
  ⟨"SUB_LAYOUT", 0x07C, 0x4, 1, 0x0#32, 0x1F0DFF#32, 0x0#32, 0x0#32, 0x0#32, none⟩,
  ⟨"SUB_FRAME", 0x080, 0x4, 1, 0x0#32, 0xFFF#32, 0x0#32, 0x0#32, 0x0#32, none⟩,
  ⟨"SUB_POLICY", 0x084, 0x4, 1, 0x0#32, 0xFF1FFF7#32, 0x0#32, 0x0#32, 0x0#32, none⟩,
  ⟨"SUB_SVID_LEN", 0x088, 0x4, 1, 0x0#32, 0x7F#32, 0x0#32, 0x0#32, 0x0#32, none⟩,
  ⟨"SVID", 0x090, 0x4, 16, 0x0#32, 0xFFFFFFFF#32, 0x0#32, 0x0#32, 0x0#32, none⟩]

/-- Registers of a HOP2 page (R184). -/
def rowsHop2 : List RegRow := [
  ⟨"FRANGE", 0x060, 0x4, 16, 0x0#32, 0x1FFF0FFF#32, 0x0#32, 0x0#32, 0x0#32, some 0⟩,
  ⟨"HTEN_EVT", 0x0A0, 0x4, 16, 0x0#32, 0x0#32, 0xF#32, 0x0#32, 0x0#32, none⟩,
  ⟨"HTEN_EVT_EN", 0x0E0, 0x4, 16, 0x0#32, 0xF#32, 0x0#32, 0x0#32, 0x0#32, none⟩]

/-- Registers of a HOP3 page (R185). -/
def rowsHop3 : List RegRow := [
  ⟨"ARR_MAX", 0x060, 0x4, 4, 0x0#32, 0x0#32, 0x0#32, 0x0#32, 0x0#32, none⟩]

/-- Registers of a DEC0 page (R199). -/
def rowsDec0 : List RegRow := [
  ⟨"DCH_SRC", 0x400, 0x20, 64, 0x0#32, 0xF1F01FF#32, 0x0#32, 0x0#32, 0x0#32, some 0⟩,
  ⟨"DCH_OUT", 0x404, 0x20, 64, 0x0#32, 0x770FFF#32, 0x0#32, 0x0#32, 0x0#32, some 0⟩,
  ⟨"DCH_CTRL", 0x408, 0x20, 64, 0x0#32, 0x71#32, 0x0#32, 0x6#32, 0x0#32, none⟩,
  ⟨"DCH_STAT", 0x40C, 0x20, 64, 0x0#32, 0x0#32, 0x80000000#32, 0x0#32, 0x0#32, none⟩,
  ⟨"DCH_SWAP_AT", 0x410, 0x20, 64, 0x0#32, 0xFFFFFFFF#32, 0x0#32, 0x0#32, 0x0#32, none⟩,
  ⟨"DCH_GD", 0x414, 0x20, 64, 0x0#32, 0x0#32, 0x0#32, 0x0#32, 0x0#32, none⟩,
  ⟨"BANK_CFG0", 0x418, 0x20, 64, 0x0#32, 0xFFFF01FF#32, 0x0#32, 0x0#32, 0x0#32, some 0⟩,
  ⟨"BANK_CFG1", 0x41C, 0x20, 64, 0x0#32, 0xFFFF01FF#32, 0x0#32, 0x0#32, 0x0#32, some 0⟩]

/-- Registers of a DEC1 page (R200). -/
def rowsDec1 : List RegRow := [
  ⟨"COEF_SEL", 0x060, 0x4, 1, 0x0#32, 0x13F#32, 0x0#32, 0x0#32, 0x0#32, none⟩,
  ⟨"COEF", 0x200, 0x4, 128, 0x0#32, 0xFFFFFFFF#32, 0x0#32, 0x0#32, 0x0#32, some 0⟩,
  ⟨"DTEN_EVT", 0x400, 0x4, 16, 0x0#32, 0x0#32, 0xF#32, 0x0#32, 0x0#32, none⟩,
  ⟨"DTEN_EVT_EN", 0x440, 0x4, 16, 0x0#32, 0xF#32, 0x0#32, 0x0#32, 0x0#32, none⟩]

/-- Registers of a CAR0 page (R222). -/
def rowsCar0 : List RegRow := [
  ⟨"PUB_POINT", 0x060, 0x4, 1, 0x3A980#32, 0xFFFFF#32, 0x0#32, 0x0#32, 0x0#32, some 0⟩,
  ⟨"PUB_SEQ", 0x064, 0x4, 1, 0x0#32, 0x0#32, 0x0#32, 0x0#32, 0x0#32, none⟩,
  ⟨"CAR_FAULT", 0x068, 0x4, 1, 0x0#32, 0x0#32, 0xF#32, 0x0#32, 0x0#32, none⟩,
  ⟨"CFAULT_INFO", 0x06C, 0x4, 1, 0x0#32, 0x0#32, 0x0#32, 0x0#32, 0x0#32, none⟩,
  ⟨"LATE_COUNT", 0x070, 0x4, 1, 0x0#32, 0xFFFFFFFF#32, 0x0#32, 0x0#32, 0x0#32, none⟩,
  ⟨"OVF_COUNT", 0x074, 0x4, 1, 0x0#32, 0xFFFFFFFF#32, 0x0#32, 0x0#32, 0x0#32, none⟩,
  ⟨"VIOL_COUNT", 0x078, 0x4, 1, 0x0#32, 0xFFFFFFFF#32, 0x0#32, 0x0#32, 0x0#32, none⟩,
  ⟨"DRAIN_LAST", 0x07C, 0x4, 1, 0x0#32, 0x0#32, 0x0#32, 0x0#32, 0x0#32, none⟩,
  ⟨"SLACK_MIN", 0x080, 0x4, 1, 0xFFFFF#32, 0x0#32, 0x0#32, 0x0#32, 0x0#32, none⟩,
  ⟨"LANE_RANGE", 0x800, 0x8, 256, 0x0#32, 0x1FFF0FFF#32, 0x0#32, 0x0#32, 0x0#32, some 0⟩,
  ⟨"LANE_CFG", 0x804, 0x8, 256, 0x0#32, 0x8000013F#32, 0x0#32, 0x0#32, 0x0#32, some 0⟩]

/-- Registers of a CAR1 page (R223). -/
def rowsCar1 : List RegRow := [
  ⟨"CTEN_EVT", 0x060, 0x4, 16, 0x0#32, 0x0#32, 0xF#32, 0x0#32, 0x0#32, none⟩,
  ⟨"CTEN_EVT_EN", 0x0A0, 0x4, 16, 0x0#32, 0xF#32, 0x0#32, 0x0#32, 0x0#32, none⟩]

/-- Registers of a GSE0 page (R224). -/
def rowsGse0 : List RegRow := [
  ⟨"PUB_SEL", 0x060, 0x4, 1, 0x0#32, 0xFF#32, 0x0#32, 0x0#32, 0x0#32, none⟩,
  ⟨"PUB_CMD", 0x064, 0x4, 1, 0x0#32, 0x0#32, 0x0#32, 0x3#32, 0x0#32, none⟩,
  ⟨"PUB_RESULT", 0x068, 0x4, 1, 0x0#32, 0x0#32, 0x0#32, 0x0#32, 0x0#32, none⟩,
  ⟨"P_DA_LO", 0x06C, 0x4, 1, 0x0#32, 0xFFFFFFFF#32, 0x0#32, 0x0#32, 0x0#32, none⟩,
  ⟨"P_DA_HI", 0x070, 0x4, 1, 0x0#32, 0xFFFFFFFF#32, 0x0#32, 0x0#32, 0x0#32, none⟩,
  ⟨"P_VLAN", 0x074, 0x4, 1, 0x0#32, 0xFFFF#32, 0x0#32, 0x0#32, 0x0#32, none⟩,
  ⟨"P_CONFREV", 0x078, 0x4, 1, 0x0#32, 0xFFFFFFFF#32, 0x0#32, 0x0#32, 0x0#32, none⟩,
  ⟨"P_TIMING", 0x07C, 0x4, 1, 0x0#32, 0x7FFFFFF#32, 0x0#32, 0x0#32, 0x0#32, none⟩,
  ⟨"P_POLICY", 0x080, 0x4, 1, 0x0#32, 0x77FFF1#32, 0x0#32, 0x0#32, 0x0#32, none⟩,
  ⟨"P_KEYSLOT", 0x084, 0x4, 1, 0x0#32, 0xFFFF#32, 0x0#32, 0x0#32, 0x0#32, none⟩,
  ⟨"P_KID", 0x088, 0x4, 2, 0x0#32, 0xFFFFFFFF#32, 0x0#32, 0x0#32, 0x0#32, none⟩,
  ⟨"P_STRLEN", 0x090, 0x4, 1, 0x0#32, 0x7F7F7F#32, 0x0#32, 0x0#32, 0x0#32, none⟩,
  ⟨"UTC_CFG", 0x094, 0x4, 1, 0x0#32, 0x8000FFFF#32, 0x0#32, 0x0#32, 0x0#32, none⟩,
  ⟨"P_GOCBREF", 0x200, 0x4, 17, 0x0#32, 0xFFFFFFFF#32, 0x0#32, 0x0#32, 0x0#32, none⟩,
  ⟨"P_DATSET", 0x250, 0x4, 17, 0x0#32, 0xFFFFFFFF#32, 0x0#32, 0x0#32, 0x0#32, none⟩,
  ⟨"P_GOID", 0x2A0, 0x4, 17, 0x0#32, 0xFFFFFFFF#32, 0x0#32, 0x0#32, 0x0#32, none⟩,
  ⟨"P_MEM", 0x400, 0x4, 127, 0x0#32, 0x177FFF#32, 0x0#32, 0x0#32, 0x0#32, none⟩]

/-- Registers of a GSE1 page (R225). -/
def rowsGse1 : List RegRow := [
  ⟨"GSUB_SEL", 0x060, 0x4, 1, 0x0#32, 0x3FF#32, 0x0#32, 0x0#32, 0x0#32, none⟩,
  ⟨"GSUB_CMD", 0x064, 0x4, 1, 0x0#32, 0x0#32, 0x0#32, 0x3#32, 0x0#32, none⟩,
  ⟨"GSUB_RESULT", 0x068, 0x4, 1, 0x0#32, 0x0#32, 0x0#32, 0x0#32, 0x0#32, none⟩,
  ⟨"S_DA_LO", 0x06C, 0x4, 1, 0x0#32, 0xFFFFFFFF#32, 0x0#32, 0x0#32, 0x0#32, none⟩,
  ⟨"S_DA_HI", 0x070, 0x4, 1, 0x0#32, 0xFFFFFFFF#32, 0x0#32, 0x0#32, 0x0#32, none⟩,
  ⟨"S_VLAN", 0x074, 0x4, 1, 0x0#32, 0x3FFF#32, 0x0#32, 0x0#32, 0x0#32, none⟩,
  ⟨"S_CONFREV", 0x078, 0x4, 1, 0x0#32, 0xFFFFFFFF#32, 0x0#32, 0x0#32, 0x0#32, none⟩,
  ⟨"S_POLICY", 0x07C, 0x4, 1, 0x0#32, 0x1FDFFFF1#32, 0x0#32, 0x0#32, 0x0#32, none⟩,
  ⟨"S_OUT", 0x080, 0x4, 1, 0x0#32, 0xFFF#32, 0x0#32, 0x0#32, 0x0#32, none⟩,
  ⟨"S_KEYSLOT", 0x084, 0x4, 1, 0x0#32, 0xFFFF#32, 0x0#32, 0x0#32, 0x0#32, none⟩,
  ⟨"S_KID", 0x088, 0x4, 2, 0x0#32, 0xFFFFFFFF#32, 0x0#32, 0x0#32, 0x0#32, none⟩,
  ⟨"S_REFLEN", 0x090, 0x4, 1, 0x0#32, 0x7F#32, 0x0#32, 0x0#32, 0x0#32, none⟩,
  ⟨"S_GOCBREF", 0x200, 0x4, 17, 0x0#32, 0xFFFFFFFF#32, 0x0#32, 0x0#32, 0x0#32, none⟩,
  ⟨"S_MAP", 0x300, 0x4, 64, 0x0#32, 0x7F077F#32, 0x0#32, 0x0#32, 0x0#32, none⟩,
  ⟨"GTEN_EVT", 0x600, 0x4, 16, 0x0#32, 0x0#32, 0xF#32, 0x0#32, 0x0#32, none⟩,
  ⟨"GTEN_EVT_EN", 0x640, 0x4, 16, 0x0#32, 0xF#32, 0x0#32, 0x0#32, 0x0#32, none⟩]

/-- Registers of a QE0 page (R246). -/
def rowsQe0 : List RegRow := [
  ⟨"QE_DONE", 0x060, 0x4, 1, 0x0#32, 0x0#32, 0x0#32, 0x0#32, 0x0#32, none⟩,
  ⟨"QE_TICK", 0x064, 0x4, 1, 0x0#32, 0x0#32, 0x0#32, 0x0#32, 0x0#32, none⟩,
  ⟨"PTS_EN", 0x068, 0x4, 1, 0x0#32, 0x0#32, 0x0#32, 0x0#32, 0x0#32, none⟩,
  ⟨"SKIP_COUNT", 0x06C, 0x4, 1, 0x0#32, 0xFFFFFFFF#32, 0x0#32, 0x0#32, 0x0#32, none⟩,
  ⟨"QTEN_EVT", 0x100, 0x4, 16, 0x0#32, 0x0#32, 0xF#32, 0x0#32, 0x0#32, none⟩,
  ⟨"QTEN_EVT_EN", 0x140, 0x4, 16, 0x0#32, 0xF#32, 0x0#32, 0x0#32, 0x0#32, none⟩]

/-- Registers of a QE1 page (R247). -/
def rowsQe1 : List RegRow := [
  ⟨"PT_SEL", 0x060, 0x4, 1, 0x0#32, 0x7F#32, 0x0#32, 0x0#32, 0x0#32, none⟩,
  ⟨"PT_CMD", 0x064, 0x4, 1, 0x0#32, 0x0#32, 0x0#32, 0x7#32, 0x0#32, none⟩,
  ⟨"PT_RESULT", 0x068, 0x4, 1, 0x0#32, 0x0#32, 0x0#32, 0x0#32, 0x0#32, none⟩,
  ⟨"PT_CFG", 0x06C, 0x4, 1, 0x310#32, 0xFFFF7FFF#32, 0x0#32, 0x0#32, 0x0#32, none⟩,
  ⟨"PT_HYST", 0x070, 0x4, 1, 0x0#32, 0xFFFFFFFF#32, 0x0#32, 0x0#32, 0x0#32, none⟩,
  ⟨"PT_TFIXED", 0x074, 0x4, 1, 0x0#32, 0xFFFFFFFF#32, 0x0#32, 0x0#32, 0x0#32, none⟩,
  ⟨"PT_TSRC", 0x078, 0x4, 1, 0x0#32, 0x1F0FFF#32, 0x0#32, 0x0#32, 0x0#32, none⟩,
  ⟨"PT_TSCALE", 0x07C, 0x4, 1, 0x0#32, 0xFFFFFFFF#32, 0x0#32, 0x0#32, 0x0#32, none⟩,
  ⟨"QCH_SRC", 0x080, 0x4, 8, 0x0#32, 0x801F01FF#32, 0x0#32, 0x0#32, 0x0#32, none⟩,
  ⟨"QCH_SCALE", 0x0A0, 0x4, 8, 0x0#32, 0xFFFFFFFF#32, 0x0#32, 0x0#32, 0x0#32, none⟩,
  ⟨"TC_T", 0x100, 0x4, 16, 0x0#32, 0xFFFFFFFF#32, 0x0#32, 0x0#32, 0x0#32, none⟩,
  ⟨"TC_GPH", 0x200, 0x4, 256, 0x0#32, 0xFFFFFFFF#32, 0x0#32, 0x0#32, 0x0#32, none⟩]

/-- Registers of a PUL page (R248). -/
def rowsPul : List RegRow := [
  ⟨"PO_CFG", 0x100, 0x20, 8, 0x0#32, 0xF7F77#32, 0x0#32, 0x0#32, 0x0#32, some 0⟩,
  ⟨"PO_KH", 0x104, 0x20, 8, 0x0#32, 0xFFFFFFFF#32, 0x0#32, 0x0#32, 0x0#32, some 0⟩,
  ⟨"PO_WIDTH", 0x108, 0x20, 8, 0x0#32, 0xFFFF#32, 0x0#32, 0x0#32, 0x0#32, some 0⟩,
  ⟨"PO_SRC", 0x10C, 0x20, 8, 0x0#32, 0x7FFF#32, 0x0#32, 0x0#32, 0x0#32, some 0⟩,
  ⟨"PO_STAT", 0x110, 0x20, 8, 0x0#32, 0x0#32, 0x0#32, 0x0#32, 0x0#32, none⟩,
  ⟨"PO_COUNT", 0x114, 0x20, 8, 0x0#32, 0xFFFFFFFF#32, 0x0#32, 0x0#32, 0x0#32, none⟩,
  ⟨"PO_GATED", 0x118, 0x20, 8, 0x0#32, 0xFFFFFFFF#32, 0x0#32, 0x0#32, 0x0#32, none⟩,
  ⟨"PO_LOST", 0x11C, 0x20, 8, 0x0#32, 0xFFFFFFFF#32, 0x0#32, 0x0#32, 0x0#32, none⟩]

/-- Registers of a CAP page (R262). -/
def rowsCap : List RegRow := [
  ⟨"REC_CFG", 0x060, 0x4, 1, 0x0#32, 0x1FF0037#32, 0x0#32, 0x0#32, 0x0#32, some 0⟩,
  ⟨"REC_PRE", 0x064, 0x4, 1, 0x0#32, 0xFFFF#32, 0x0#32, 0x0#32, 0x0#32, some 0⟩,
  ⟨"REC_POST", 0x068, 0x4, 1, 0x0#32, 0x1FFFFF#32, 0x0#32, 0x0#32, 0x0#32, some 0⟩,
  ⟨"RING_LO", 0x06C, 0x4, 1, 0x0#32, 0xFFFFF000#32, 0x0#32, 0x0#32, 0x0#32, some 0⟩,
  ⟨"RING_HI", 0x070, 0x4, 1, 0x0#32, 0xFFFF#32, 0x0#32, 0x0#32, 0x0#32, some 0⟩,
  ⟨"RING_SIZE", 0x074, 0x4, 1, 0x0#32, 0xFFFFF#32, 0x0#32, 0x0#32, 0x0#32, some 0⟩,
  ⟨"REC_CMD", 0x078, 0x4, 1, 0x0#32, 0x0#32, 0x0#32, 0xF#32, 0x0#32, none⟩,
  ⟨"REC_STAT", 0x07C, 0x4, 1, 0x0#32, 0x0#32, 0x0#32, 0x0#32, 0x0#32, none⟩,
  ⟨"WR_PTR", 0x080, 0x4, 1, 0x0#32, 0x0#32, 0x0#32, 0x0#32, 0x0#32, none⟩,
  ⟨"HOLD_PTR", 0x084, 0x4, 1, 0x0#32, 0x0#32, 0x0#32, 0x0#32, 0x0#32, none⟩,
  ⟨"DEAD_LAST", 0x088, 0x4, 1, 0x0#32, 0x0#32, 0x0#32, 0x0#32, 0x0#32, none⟩,
  ⟨"DEAD_MAX", 0x08C, 0x4, 1, 0x0#32, 0xFFFFFFFF#32, 0x0#32, 0x0#32, 0x0#32, none⟩,
  ⟨"MISSED", 0x090, 0x4, 1, 0x0#32, 0xFFFFFFFF#32, 0x0#32, 0x0#32, 0x0#32, none⟩,
  ⟨"TRIG_COUNT", 0x094, 0x4, 1, 0x0#32, 0xFFFFFFFF#32, 0x0#32, 0x0#32, 0x0#32, none⟩,
  ⟨"TRG_CFG", 0x100, 0x10, 4, 0x0#32, 0xFF07#32, 0x0#32, 0x0#32, 0x0#32, some 0⟩,
  ⟨"TRG_LEVEL", 0x104, 0x10, 4, 0x0#32, 0xFFFFFFFF#32, 0x0#32, 0x0#32, 0x0#32, some 0⟩,
  ⟨"TRG_HYST", 0x108, 0x10, 4, 0x0#32, 0xFFFFFFFF#32, 0x0#32, 0x0#32, 0x0#32, some 0⟩,
  ⟨"CH_SRC", 0x400, 0x4, 256, 0x0#32, 0x71F0FFF#32, 0x0#32, 0x0#32, 0x0#32, some 0⟩]

/-- Registers of a LGR0 page (R284). -/
def rowsLgr0 : List RegRow := [
  ⟨"BUSY_LAST", 0x060, 0x4, 1, 0x0#32, 0x0#32, 0x0#32, 0x0#32, 0x0#32, none⟩,
  ⟨"HW_FREE", 0x064, 0x4, 1, 0x200#32, 0x0#32, 0x0#32, 0x0#32, 0x0#32, none⟩,
  ⟨"BUDGET_USED", 0x068, 0x4, 1, 0x0#32, 0x0#32, 0x0#32, 0x0#32, 0x0#32, none⟩,
  ⟨"LP_CTRL", 0x100, 0x40, 16, 0x0#32, 0x1FF1FF3#32, 0x0#32, 0x0#32, 0x0#32, some 0⟩,
  ⟨"LP_ELEM", 0x104, 0x40, 16, 0x0#32, 0xFFFFFFFF#32, 0x0#32, 0x0#32, 0x0#32, some 0⟩,
  ⟨"LP_TMR", 0x108, 0x40, 16, 0x0#32, 0x1FFF0FFF#32, 0x0#32, 0x0#32, 0x0#32, some 0⟩,
  ⟨"LP_EDG", 0x10C, 0x40, 16, 0x0#32, 0x3FFF1FFF#32, 0x0#32, 0x0#32, 0x0#32, some 0⟩,
  ⟨"LP_OUT", 0x110, 0x40, 16, 0x0#32, 0x1FFF0FFF#32, 0x0#32, 0x0#32, 0x0#32, some 0⟩,
  ⟨"LP_GPIO", 0x114, 0x40, 16, 0x0#32, 0xFFFFFFFF#32, 0x0#32, 0x0#32, 0x0#32, some 0⟩,
  ⟨"LP_STAT", 0x118, 0x40, 16, 0x0#32, 0x0#32, 0x0#32, 0x0#32, 0x0#32, none⟩,
  ⟨"IDLE_LAST", 0x11C, 0x40, 16, 0x0#32, 0x0#32, 0x0#32, 0x0#32, 0x0#32, none⟩,
  ⟨"IDLE_MIN", 0x120, 0x40, 16, 0xFFFFFFFF#32, 0x0#32, 0x0#32, 0x0#32, 0x0#32, none⟩,
  ⟨"SCANS", 0x124, 0x40, 16, 0x0#32, 0xFFFFFFFF#32, 0x0#32, 0x0#32, 0x0#32, none⟩,
  ⟨"SKIPS", 0x128, 0x40, 16, 0x0#32, 0xFFFFFFFF#32, 0x0#32, 0x0#32, 0x0#32, none⟩]

/-- Registers of a LGR1 page (R285). -/
def rowsLgr1 : List RegRow := [
  ⟨"LLD_ADDR_LO", 0x060, 0x4, 1, 0x0#32, 0xFFFFFFFF#32, 0x0#32, 0x0#32, 0x0#32, none⟩,
  ⟨"LLD_ADDR_HI", 0x064, 0x4, 1, 0x0#32, 0xFFFF#32, 0x0#32, 0x0#32, 0x0#32, none⟩,
  ⟨"LLD_LEN", 0x068, 0x4, 1, 0x0#32, 0xFFFFFFFF#32, 0x0#32, 0x0#32, 0x0#32, none⟩,
  ⟨"LLD_CMD", 0x06C, 0x4, 1, 0x0#32, 0xF00#32, 0x0#32, 0x1#32, 0x0#32, none⟩,
  ⟨"LLD_STAT", 0x070, 0x4, 1, 0x0#32, 0x0#32, 0x0#32, 0x0#32, 0x0#32, none⟩,
  ⟨"ONL_SEL", 0x080, 0x4, 1, 0x0#32, 0xFFFF001F#32, 0x0#32, 0x0#32, 0x0#32, none⟩,
  ⟨"ONL_VALUE", 0x084, 0x4, 1, 0x0#32, 0xFFFFFFFF#32, 0x0#32, 0x0#32, 0x0#32, none⟩,
  ⟨"ONL_AT", 0x088, 0x4, 1, 0x0#32, 0xFFFFFFFF#32, 0x0#32, 0x0#32, 0x0#32, none⟩,
  ⟨"ONL_CMD", 0x08C, 0x4, 1, 0x0#32, 0x0#32, 0x0#32, 0x1#32, 0x0#32, none⟩,
  ⟨"ONL_STAT", 0x090, 0x4, 1, 0x0#32, 0x0#32, 0x0#32, 0x0#32, 0x0#32, none⟩,
  ⟨"FRC_SEL", 0x0A0, 0x4, 1, 0x0#32, 0x3F#32, 0x0#32, 0x0#32, 0x0#32, none⟩,
  ⟨"FRC_TGT", 0x0A4, 0x4, 1, 0x0#32, 0xFFFF000F#32, 0x0#32, 0x0#32, 0x0#32, none⟩,
  ⟨"FRC_VAL", 0x0A8, 0x4, 1, 0x0#32, 0xFFFFFFFF#32, 0x0#32, 0x0#32, 0x0#32, none⟩,
  ⟨"FRC_AT", 0x0AC, 0x4, 1, 0x0#32, 0xFFFFFFFF#32, 0x0#32, 0x0#32, 0x0#32, none⟩,
  ⟨"FRC_CMD", 0x0B0, 0x4, 1, 0x0#32, 0x0#32, 0x0#32, 0x3#32, 0x0#32, none⟩,
  ⟨"FRC_STAT", 0x0B4, 0x4, 1, 0x0#32, 0x0#32, 0x0#32, 0x0#32, 0x0#32, none⟩,
  ⟨"LTEN_EVT", 0x100, 0x4, 16, 0x0#32, 0x0#32, 0xF#32, 0x0#32, 0x0#32, none⟩,
  ⟨"LTEN_EVT_EN", 0x140, 0x4, 16, 0x0#32, 0xF#32, 0x0#32, 0x0#32, 0x0#32, none⟩]

/-- Registers of a TEN page (R311). -/
def rowsTen : List RegRow := [
  ⟨"TEN_STATE", 0x060, 0x4, 1, 0x0#32, 0x0#32, 0x0#32, 0x0#32, 0x0#32, none⟩,
  ⟨"TEN_CMD", 0x064, 0x4, 1, 0x0#32, 0x0#32, 0x0#32, 0x7FF#32, 0x0#32, none⟩,
  ⟨"TEN_AT", 0x068, 0x4, 1, 0x0#32, 0xFFFFFFFF#32, 0x0#32, 0x0#32, 0x0#32, none⟩,
  ⟨"TEN_RESULT", 0x06C, 0x4, 1, 0x0#32, 0x0#32, 0x0#32, 0x0#32, 0x0#32, none⟩,
  ⟨"FAULT_LIMIT", 0x070, 0x4, 1, 0x8#32, 0xFF#32, 0x0#32, 0x0#32, 0x0#32, some 0⟩,
  ⟨"FAULT_RUN", 0x074, 0x4, 1, 0x0#32, 0x0#32, 0x0#32, 0x0#32, 0x0#32, none⟩,
  ⟨"TMISSED", 0x078, 0x4, 1, 0x0#32, 0x0#32, 0x0#32, 0x0#32, 0x0#32, none⟩,
  ⟨"RESET_COUNT", 0x07C, 0x4, 1, 0x0#32, 0xFFFFFFFF#32, 0x0#32, 0x0#32, 0x0#32, none⟩,
  ⟨"TDRAIN_LAST", 0x080, 0x4, 1, 0x0#32, 0x0#32, 0x0#32, 0x0#32, 0x0#32, none⟩,
  ⟨"TEVT", 0x084, 0x4, 1, 0x0#32, 0x0#32, 0xFF#32, 0x0#32, 0x0#32, none⟩,
  ⟨"TEVT_EN", 0x088, 0x4, 1, 0x0#32, 0xFF#32, 0x0#32, 0x0#32, 0x0#32, none⟩,
  ⟨"MAX_AGE", 0x08C, 0x4, 1, 0x12C0#32, 0xFFFFFFFF#32, 0x0#32, 0x0#32, 0x0#32, some 0⟩,
  ⟨"SHARE", 0x090, 0x4, 4, 0x0#32, 0x7FF#32, 0x0#32, 0x0#32, 0x0#32, some 0⟩,
  ⟨"OCC", 0x0A0, 0x4, 4, 0x0#32, 0x0#32, 0x0#32, 0x0#32, 0x0#32, none⟩,
  ⟨"MIG_ADDR_LO", 0x0B0, 0x4, 1, 0x0#32, 0xFFFFFFC0#32, 0x0#32, 0x0#32, 0x0#32, none⟩,
  ⟨"MIG_ADDR_HI", 0x0B4, 0x4, 1, 0x0#32, 0xFFFF#32, 0x0#32, 0x0#32, 0x0#32, none⟩,
  ⟨"MIG_LEN", 0x0B8, 0x4, 1, 0x0#32, 0xFFFFFFFF#32, 0x0#32, 0x0#32, 0x0#32, none⟩,
  ⟨"MIG_USED", 0x0BC, 0x4, 1, 0x0#32, 0x0#32, 0x0#32, 0x0#32, 0x0#32, none⟩,
  ⟨"DDR_WIN", 0x0C0, 0x4, 4, 0x0#32, 0x3FFF3FFF#32, 0x0#32, 0x0#32, 0x0#32, some 0⟩,
  ⟨"EVT_MIRROR", 0x100, 0x4, 6, 0x0#32, 0x0#32, 0xF#32, 0x0#32, 0x0#32, none⟩,
  ⟨"PART_FAULT_ENG", 0x118, 0x4, 1, 0x0#32, 0x0#32, 0x0#32, 0x0#32, 0x0#32, none⟩]

/-- Registers of a TENS page (R312). -/
def rowsTens : List RegRow := [
  ⟨"STATES_LO", 0x060, 0x4, 1, 0x0#32, 0x0#32, 0x0#32, 0x0#32, 0x0#32, none⟩,
  ⟨"STATES_HI", 0x064, 0x4, 1, 0x0#32, 0x0#32, 0x0#32, 0x0#32, 0x0#32, none⟩,
  ⟨"RESET_BUSY", 0x068, 0x4, 1, 0x0#32, 0x0#32, 0x0#32, 0x0#32, 0x0#32, none⟩,
  ⟨"TOTAL", 0x070, 0x4, 4, 0x0#32, 0x0#32, 0x0#32, 0x0#32, 0x0#32, none⟩,
  ⟨"FREE", 0x080, 0x4, 4, 0x0#32, 0x0#32, 0x0#32, 0x0#32, 0x0#32, none⟩]

/-- Registers of a PAIR0 page (R341). -/
def rowsPair0 : List RegRow := [
  ⟨"PAIR_CFG", 0x060, 0x4, 1, 0x10010A04#32, 0xFF037F1F#32, 0x0#32, 0x0#32, 0x0#32, some 0⟩,
  ⟨"REVERT_HOLD", 0x064, 0x4, 1, 0x1E#32, 0xFFF#32, 0x0#32, 0x0#32, 0x0#32, some 0⟩,
  ⟨"PEER_MAC_LO", 0x068, 0x4, 1, 0x0#32, 0xFFFFFFFF#32, 0x0#32, 0x0#32, 0x0#32, some 0⟩,
  ⟨"PEER_MAC_HI", 0x06C, 0x4, 1, 0x0#32, 0xFFFF#32, 0x0#32, 0x0#32, 0x0#32, some 0⟩,
  ⟨"BK_CFG", 0x070, 0x4, 1, 0x70000#32, 0xFFFFF#32, 0x0#32, 0x0#32, 0x0#32, some 0⟩,
  ⟨"PAIR_CMD", 0x074, 0x4, 1, 0x0#32, 0x0#32, 0x0#32, 0x7F#32, 0x0#32, none⟩,
  ⟨"HO_TICK", 0x078, 0x4, 1, 0x0#32, 0xFFFFFFFF#32, 0x0#32, 0x0#32, 0x0#32, none⟩,
  ⟨"PAIR_STAT", 0x07C, 0x4, 1, 0x0#32, 0x0#32, 0x0#32, 0x0#32, 0x0#32, none⟩,
  ⟨"LEASE_LEFT", 0x080, 0x4, 1, 0x0#32, 0x0#32, 0x0#32, 0x0#32, 0x0#32, none⟩,
  ⟨"COPY_LEFT", 0x084, 0x4, 1, 0x0#32, 0x0#32, 0x0#32, 0x0#32, 0x0#32, none⟩,
  ⟨"HO_STAT", 0x088, 0x4, 1, 0x0#32, 0x0#32, 0x0#32, 0x0#32, 0x0#32, none⟩,
  ⟨"GATE_STAT", 0x08C, 0x4, 1, 0x0#32, 0x0#32, 0x0#32, 0x0#32, 0x0#32, none⟩,
  ⟨"OPEN_TICK", 0x090, 0x4, 1, 0x0#32, 0x0#32, 0x0#32, 0x0#32, 0x0#32, none⟩,
  ⟨"CLOSE_TICK", 0x094, 0x4, 1, 0x0#32, 0x0#32, 0x0#32, 0x0#32, 0x0#32, none⟩,
  ⟨"ADMIT_STAT", 0x098, 0x4, 1, 0x0#32, 0x0#32, 0x0#32, 0x0#32, 0x0#32, none⟩]

/-- Registers of a PAIR1 page (R342). -/
def rowsPair1 : List RegRow := [
  ⟨"SKEW", 0x060, 0x4, 1, 0x0#32, 0x0#32, 0x0#32, 0x0#32, 0x0#32, none⟩,
  ⟨"LINK_DELAY", 0x064, 0x4, 1, 0x0#32, 0x0#32, 0x0#32, 0x0#32, 0x0#32, none⟩,
  ⟨"LAST_CMP", 0x068, 0x4, 1, 0x0#32, 0x0#32, 0x0#32, 0x0#32, 0x0#32, none⟩,
  ⟨"CMP_MASK", 0x06C, 0x4, 1, 0x0#32, 0x0#32, 0x0#32, 0x0#32, 0x0#32, none⟩,
  ⟨"PAIR_CNT", 0x070, 0x4, 9, 0x0#32, 0xFFFFFFFF#32, 0x0#32, 0x0#32, 0x0#32, none⟩,
  ⟨"MISS_RUN", 0x094, 0x4, 1, 0x0#32, 0x0#32, 0x0#32, 0x0#32, 0x0#32, none⟩,
  ⟨"INCOMP_HOLD", 0x100, 0x4, 16, 0x12C0#32, 0xFFFF#32, 0x0#32, 0x0#32, 0x0#32, some 0⟩]

/-- Registers of a PORT page (R367). -/
def rowsPort : List RegRow := [
  ⟨"PCFG", 0x060, 0x4, 1, 0x2110#32, 0x1F3F773#32, 0x0#32, 0x0#32, 0x0#32, some 0⟩,
  ⟨"MAC_LO", 0x064, 0x4, 1, 0x0#32, 0xFFFFFFFF#32, 0x0#32, 0x0#32, 0x0#32, some 0⟩,
  ⟨"MAC_HI", 0x068, 0x4, 1, 0x0#32, 0xFFFF#32, 0x0#32, 0x0#32, 0x0#32, some 0⟩,
  ⟨"MAXLEN", 0x06C, 0x4, 1, 0x600#32, 0xFFF#32, 0x0#32, 0x0#32, 0x0#32, some 0⟩,
  ⟨"PAUSE_CFG", 0x070, 0x4, 1, 0x40C0FFFF#32, 0xFFFFFFFF#32, 0x0#32, 0x0#32, 0x0#32, some 0⟩,
  ⟨"VERIFY_CFG", 0x074, 0x4, 1, 0xA#32, 0x7F#32, 0x0#32, 0x0#32, 0x0#32, some 0⟩,
  ⟨"LINK_STAT", 0x078, 0x4, 1, 0x0#32, 0x0#32, 0x0#32, 0x0#32, 0x0#32, none⟩,
  ⟨"QMAP", 0x07C, 0x4, 1, 0x22C688#32, 0xFFFFFF#32, 0x0#32, 0x0#32, 0x0#32, some 0⟩,
  ⟨"PCNT", 0x080, 0x4, 16, 0x0#32, 0xFFFFFFFF#32, 0x0#32, 0x0#32, 0x0#32, none⟩,
  ⟨"TXR_BASE_LO", 0x100, 0x20, 16, 0x0#32, 0xFFFFFFC0#32, 0x0#32, 0x0#32, 0x0#32, some 1⟩,
  ⟨"TXR_BASE_HI", 0x104, 0x20, 16, 0x0#32, 0xFFFF#32, 0x0#32, 0x0#32, 0x0#32, some 1⟩,
  ⟨"TXR_CFG", 0x108, 0x20, 16, 0x0#32, 0xFFFBFF1#32, 0x0#32, 0x0#32, 0x0#32, some 1⟩,
  ⟨"RXR_BASE_LO", 0x10C, 0x20, 16, 0x0#32, 0xFFFFFFC0#32, 0x0#32, 0x0#32, 0x0#32, some 1⟩,
  ⟨"RXR_BASE_HI", 0x110, 0x20, 16, 0x0#32, 0xFFFF#32, 0x0#32, 0x0#32, 0x0#32, some 1⟩,
  ⟨"RXR_CFG", 0x114, 0x20, 16, 0x0#32, 0xF1#32, 0x0#32, 0x0#32, 0x0#32, some 1⟩,
  ⟨"RX_NODESC", 0x118, 0x20, 16, 0x0#32, 0xFFFFFFFF#32, 0x0#32, 0x0#32, 0x0#32, none⟩,
  ⟨"TX_REFUSED", 0x11C, 0x20, 16, 0x0#32, 0xFFFFFFFF#32, 0x0#32, 0x0#32, 0x0#32, none⟩,
  ⟨"DB_TX_TAIL", 0x400, 0x10, 16, 0x0#32, 0xFFF#32, 0x0#32, 0x0#32, 0x0#32, none⟩,
  ⟨"DB_RX_TAIL", 0x404, 0x10, 16, 0x0#32, 0xFFF#32, 0x0#32, 0x0#32, 0x0#32, none⟩,
  ⟨"DB_HEADS", 0x408, 0x10, 16, 0x0#32, 0x0#32, 0x0#32, 0x0#32, 0x0#32, none⟩,
  ⟨"DB_EVT", 0x40C, 0x10, 16, 0x0#32, 0xF00#32, 0xF#32, 0x0#32, 0x0#32, none⟩,
  ⟨"CL_DA_LO", 0x600, 0x10, 32, 0x0#32, 0xFFFFFFFF#32, 0x0#32, 0x0#32, 0x0#32, some 2⟩,
  ⟨"CL_DA_HI", 0x604, 0x10, 32, 0x0#32, 0x3FFFFF#32, 0x0#32, 0x0#32, 0x0#32, some 2⟩,
  ⟨"CL_MATCH", 0x608, 0x10, 32, 0x0#32, 0xFFFF1FFF#32, 0x0#32, 0x0#32, 0x0#32, some 2⟩,
  ⟨"CL_TMASK", 0x60C, 0x10, 32, 0x0#32, 0x8001FFFF#32, 0x0#32, 0x0#32, 0x0#32, some 2⟩]

/-- Registers of a RED page (R369). -/
def rowsRed : List RegRow := [
  ⟨"RED_CFG", 0x060, 0x4, 2, 0x1900000#32, 0x3FF0077#32, 0x0#32, 0x0#32, 0x0#32, some 0⟩,
  ⟨"SUP_CFG", 0x068, 0x4, 2, 0x140000#32, 0x3FFFF01#32, 0x0#32, 0x0#32, 0x0#32, some 0⟩,
  ⟨"NODE_CFG", 0x070, 0x4, 2, 0x3C#32, 0xFFF#32, 0x0#32, 0x0#32, 0x0#32, some 0⟩,
  ⟨"RED_CNT0", 0x100, 0x4, 10, 0x0#32, 0xFFFFFFFF#32, 0x0#32, 0x0#32, 0x0#32, none⟩,
  ⟨"RED_CNT1", 0x140, 0x4, 10, 0x0#32, 0xFFFFFFFF#32, 0x0#32, 0x0#32, 0x0#32, none⟩]

/-- Registers of a TIME0 page (R387). -/
def rowsTime0 : List RegRow := [
  ⟨"TICK_CFG", 0x060, 0x4, 1, 0x0#32, 0x3#32, 0x0#32, 0x0#32, 0x0#32, some 0⟩,
  ⟨"TICK_STAT", 0x064, 0x4, 1, 0x0#32, 0x0#32, 0x0#32, 0x0#32, 0x0#32, none⟩,
  ⟨"CLAMP_COUNT", 0x068, 0x4, 1, 0x0#32, 0xFFFFFFFF#32, 0x0#32, 0x0#32, 0x0#32, none⟩,
  ⟨"PPS_IN_CFG", 0x070, 0x4, 2, 0x0#32, 0xFFFF000F#32, 0x0#32, 0x0#32, 0x0#32, some 1⟩,
  ⟨"PPS_GLITCH", 0x078, 0x4, 2, 0x0#32, 0xFFFFFFFF#32, 0x0#32, 0x0#32, 0x0#32, some 1⟩,
  ⟨"PPS_OUT_CFG", 0x080, 0x8, 2, 0x20#32, 0x3FF0F3F#32, 0x0#32, 0x0#32, 0x0#32, some 1⟩,
  ⟨"PPS_OUT_WIDTH", 0x084, 0x8, 2, 0x186A0#32, 0x7FFFF#32, 0x0#32, 0x0#32, 0x0#32, some 1⟩]

/-- Registers of a TIME1 page (R388). -/
def rowsTime1 : List RegRow := [
  ⟨"CLOCK_ID_LO", 0x060, 0x4, 1, 0x0#32, 0xFFFFFFFF#32, 0x0#32, 0x0#32, 0x0#32, some 0⟩,
  ⟨"CLOCK_ID_HI", 0x064, 0x4, 1, 0x0#32, 0xFFFFFFFF#32, 0x0#32, 0x0#32, 0x0#32, some 0⟩,
  ⟨"TB_CFG", 0x100, 0x40, 5, 0x42410000#32, 0xFFFF7FFF#32, 0x0#32, 0x0#32, 0x0#32, some 0⟩,
  ⟨"TB_CMD", 0x104, 0x40, 5, 0x0#32, 0x0#32, 0x0#32, 0x1F#32, 0x0#32, none⟩,
  ⟨"TB_STAT", 0x108, 0x40, 5, 0x0#32, 0x0#32, 0x0#32, 0x0#32, 0x0#32, none⟩,
  ⟨"TB_RATE", 0x10C, 0x40, 5, 0x0#32, 0x0#32, 0x0#32, 0x0#32, 0x0#32, none⟩,
  ⟨"TB_OFFSET", 0x110, 0x40, 5, 0x0#32, 0x0#32, 0x0#32, 0x0#32, 0x0#32, none⟩,
  ⟨"JUMP_THRESH", 0x114, 0x40, 5, 0x2710#32, 0xFFFFF#32, 0x0#32, 0x0#32, 0x0#32, some 0⟩,
  ⟨"LOCK_THRESH", 0x118, 0x40, 5, 0x64#32, 0xFFFF#32, 0x0#32, 0x0#32, 0x0#32, some 0⟩,
  ⟨"HOLD_MAX", 0x11C, 0x40, 5, 0x3C#32, 0xFFFF#32, 0x0#32, 0x0#32, 0x0#32, some 0⟩,
  ⟨"SET_NS", 0x120, 0x40, 5, 0x0#32, 0x3FFFFFFF#32, 0x0#32, 0x0#32, 0x0#32, none⟩,
  ⟨"SET_SEC_LO", 0x124, 0x40, 5, 0x0#32, 0xFFFFFFFF#32, 0x0#32, 0x0#32, 0x0#32, none⟩,
  ⟨"SET_SEC_HI", 0x128, 0x40, 5, 0x0#32, 0xFFFF#32, 0x0#32, 0x0#32, 0x0#32, none⟩,
  ⟨"PARENT_LO", 0x12C, 0x40, 5, 0x0#32, 0xFFFFFFFF#32, 0x0#32, 0x0#32, 0x0#32, some 0⟩,
  ⟨"PARENT_MID", 0x130, 0x40, 5, 0x0#32, 0xFFFFFFFF#32, 0x0#32, 0x0#32, 0x0#32, some 0⟩,
  ⟨"PARENT_HI", 0x134, 0x40, 5, 0x0#32, 0xFFFF#32, 0x0#32, 0x0#32, 0x0#32, some 0⟩,
  ⟨"TB_REFUSED", 0x138, 0x40, 5, 0x0#32, 0xFFFFFFFF#32, 0x0#32, 0x0#32, 0x0#32, none⟩,
  ⟨"TB_ACCEPTED", 0x13C, 0x40, 5, 0x0#32, 0xFFFFFFFF#32, 0x0#32, 0x0#32, 0x0#32, none⟩]

/-- Registers of a TIME2 page (R389). -/
def rowsTime2 : List RegRow := [
  ⟨"PTP_RXR_BASE_LO", 0x060, 0x4, 1, 0x0#32, 0xFFFFFFC0#32, 0x0#32, 0x0#32, 0x0#32, some 0⟩,
  ⟨"PTP_RXR_BASE_HI", 0x064, 0x4, 1, 0x0#32, 0xFFFF#32, 0x0#32, 0x0#32, 0x0#32, some 0⟩,
  ⟨"PTP_RXR_CFG", 0x068, 0x4, 1, 0x0#32, 0xF1#32, 0x0#32, 0x0#32, 0x0#32, some 0⟩,
  ⟨"PTP_TXR_BASE_LO", 0x06C, 0x4, 1, 0x0#32, 0xFFFFFFC0#32, 0x0#32, 0x0#32, 0x0#32, some 0⟩,
  ⟨"PTP_TXR_BASE_HI", 0x070, 0x4, 1, 0x0#32, 0xFFFF#32, 0x0#32, 0x0#32, 0x0#32, some 0⟩,
  ⟨"PTP_TXR_CFG", 0x074, 0x4, 1, 0x0#32, 0xFFFBFF1#32, 0x0#32, 0x0#32, 0x0#32, some 0⟩,
  ⟨"PTP_TAILS", 0x078, 0x4, 1, 0x0#32, 0xFFF0FFF#32, 0x0#32, 0x0#32, 0x0#32, some 0⟩,
  ⟨"PTP_HEADS", 0x07C, 0x4, 1, 0x0#32, 0x0#32, 0x0#32, 0x0#32, 0x0#32, none⟩,
  ⟨"PP_CFG", 0x100, 0x40, 4, 0x0#32, 0xFFFF01F3#32, 0x0#32, 0x0#32, 0x0#32, some 0⟩,
  ⟨"TX_ADJ", 0x104, 0x40, 4, 0x0#32, 0xFFFFFFFF#32, 0x0#32, 0x0#32, 0x0#32, some 0⟩,
  ⟨"RX_ADJ", 0x108, 0x40, 4, 0x0#32, 0xFFFFFFFF#32, 0x0#32, 0x0#32, 0x0#32, some 0⟩,
  ⟨"PD_STAT_P", 0x10C, 0x40, 4, 0x0#32, 0x0#32, 0x0#32, 0x0#32, 0x0#32, none⟩,
  ⟨"MEAN_DELAY", 0x110, 0x40, 4, 0x0#32, 0x0#32, 0x0#32, 0x0#32, 0x0#32, none⟩,
  ⟨"NRR", 0x114, 0x40, 4, 0x0#32, 0x0#32, 0x0#32, 0x0#32, 0x0#32, none⟩,
  ⟨"RX_EVT", 0x118, 0x40, 4, 0x0#32, 0xFFFFFFFF#32, 0x0#32, 0x0#32, 0x0#32, some 0⟩,
  ⟨"TX_EVT", 0x11C, 0x40, 4, 0x0#32, 0xFFFFFFFF#32, 0x0#32, 0x0#32, 0x0#32, some 0⟩,
  ⟨"PD_FAIL", 0x120, 0x40, 4, 0x0#32, 0xFFFFFFFF#32, 0x0#32, 0x0#32, 0x0#32, some 0⟩,
  ⟨"RX_DROP", 0x124, 0x40, 4, 0x0#32, 0xFFFFFFFF#32, 0x0#32, 0x0#32, 0x0#32, some 0⟩]

/-- Registers of a TIME3 page (R390). -/
def rowsTime3 : List RegRow := [
  ⟨"CMP_CFG", 0x100, 0x10, 16, 0x0#32, 0xE#32, 0x0#32, 0x1#32, 0x0#32, some 0⟩,
  ⟨"CMP_TARGET", 0x104, 0x10, 16, 0x0#32, 0xFFFFFFFF#32, 0x0#32, 0x0#32, 0x0#32, some 0⟩,
  ⟨"CMP_PERIOD", 0x108, 0x10, 16, 0x0#32, 0xFFFFFFFF#32, 0x0#32, 0x0#32, 0x0#32, some 0⟩,
  ⟨"CMP_COUNT", 0x10C, 0x10, 16, 0x0#32, 0xFFFFFFFF#32, 0x0#32, 0x0#32, 0x0#32, none⟩]

/-- Registers of a VLT page (R419). -/
def rowsVlt : List RegRow := [
  ⟨"VLT_STAT", 0x060, 0x4, 1, 0x0#32, 0x0#32, 0x0#32, 0x0#32, 0x0#32, none⟩,
  ⟨"BOOT_INFO", 0x064, 0x4, 1, 0x0#32, 0x0#32, 0x0#32, 0x0#32, 0x0#32, none⟩,
  ⟨"BOOT_VERSION", 0x068, 0x4, 1, 0x0#32, 0x0#32, 0x0#32, 0x0#32, 0x0#32, none⟩,
  ⟨"CNT_OTP", 0x06C, 0x4, 3, 0x0#32, 0x0#32, 0x0#32, 0x0#32, 0x0#32, none⟩,
  ⟨"REC_GEN", 0x078, 0x4, 1, 0x0#32, 0x0#32, 0x0#32, 0x0#32, 0x0#32, none⟩,
  ⟨"SLOTS_USED", 0x07C, 0x4, 1, 0x0#32, 0x0#32, 0x0#32, 0x0#32, 0x0#32, none⟩,
  ⟨"VQ_BASE_LO", 0x400, 0x10, 16, 0x0#32, 0xFFFFFFC0#32, 0x0#32, 0x0#32, 0x0#32, some 0⟩,
  ⟨"VQ_BASE_HI", 0x404, 0x10, 16, 0x0#32, 0x8F00FFFF#32, 0x0#32, 0x0#32, 0x0#32, some 0⟩,
  ⟨"VQ_PTR", 0x408, 0x10, 16, 0x0#32, 0xFF#32, 0x0#32, 0x0#32, 0x0#32, none⟩,
  ⟨"VQ_EVT", 0x40C, 0x10, 16, 0x0#32, 0x300#32, 0x3#32, 0x0#32, 0x0#32, none⟩]

/-- Registers of a DDR page (R17). -/
def rowsDdr : List RegRow := [
]

/-- Registers of a GIO page (R17). -/
def rowsGio : List RegRow := [
]

/-- The register table of a page kind. -/
def rowsOf : PageKind → List RegRow
  | .dir => rowsDir
  | .mode => rowsMode
  | .clk => rowsClk
  | .irq0 => rowsIrq0
  | .irq1 => rowsIrq1
  | .me => rowsMe
  | .clu => rowsClu
  | .str0 => rowsStr0
  | .str1 => rowsStr1
  | .str2 => rowsStr2
  | .str3 => rowsStr3
  | .hop0 => rowsHop0
  | .hop1 => rowsHop1
  | .hop2 => rowsHop2
  | .hop3 => rowsHop3
  | .dec0 => rowsDec0
  | .dec1 => rowsDec1
  | .car0 => rowsCar0
  | .car1 => rowsCar1
  | .gse0 => rowsGse0
  | .gse1 => rowsGse1
  | .qe0 => rowsQe0
  | .qe1 => rowsQe1
  | .pul => rowsPul
  | .cap => rowsCap
  | .lgr0 => rowsLgr0
  | .lgr1 => rowsLgr1
  | .ten => rowsTen
  | .tens => rowsTens
  | .pair0 => rowsPair0
  | .pair1 => rowsPair1
  | .port => rowsPort
  | .red => rowsRed
  | .time0 => rowsTime0
  | .time1 => rowsTime1
  | .time2 => rowsTime2
  | .time3 => rowsTime3
  | .vlt => rowsVlt
  | .ddr => rowsDdr
  | .gio => rowsGio

/-- The header bits of a page kind. -/
def headerBits : PageKind → HeaderBits
  | .dir => ⟨0x0#32, 0x0#32, 0x0#32, 0x0#32, 0x0#32, 0x0#32⟩
  | .mode => ⟨0x0#32, 0x0#32, 0x0#32, 0x7#32, 0x100#32, 0x1#32⟩
  | .clk => ⟨0x0#32, 0x0#32, 0x0#32, 0x3#32, 0x100#32, 0x1#32⟩
  | .irq0 => ⟨0x0#32, 0x0#32, 0x0#32, 0x0#32, 0x0#32, 0x0#32⟩
  | .irq1 => ⟨0x0#32, 0x0#32, 0x0#32, 0x0#32, 0x100#32, 0x0#32⟩
  | .me => ⟨0xC#32, 0x0#32, 0x0#32, 0x7#32, 0x100#32, 0x1#32⟩
  | .clu => ⟨0x4#32, 0x0#32, 0x8#32, 0x3#32, 0x0#32, 0x1#32⟩
  | .str0 => ⟨0x0#32, 0x0#32, 0x0#32, 0xF#32, 0x0#32, 0x0#32⟩
  | .str1 => ⟨0x0#32, 0x0#32, 0x0#32, 0x0#32, 0x0#32, 0x0#32⟩
  | .str2 => ⟨0x0#32, 0x0#32, 0x0#32, 0x0#32, 0x0#32, 0x0#32⟩
  | .str3 => ⟨0x0#32, 0x0#32, 0x0#32, 0x0#32, 0x0#32, 0x0#32⟩
  | .hop0 => ⟨0x0#32, 0x0#32, 0x0#32, 0xF#32, 0xB00#32, 0x3#32⟩
  | .hop1 => ⟨0x0#32, 0x0#32, 0x0#32, 0x0#32, 0x0#32, 0x0#32⟩
  | .hop2 => ⟨0x0#32, 0x0#32, 0x0#32, 0x0#32, 0x400#32, 0x0#32⟩
  | .hop3 => ⟨0x0#32, 0x4#32, 0x0#32, 0x0#32, 0x0#32, 0x0#32⟩
  | .dec0 => ⟨0x0#32, 0x0#32, 0x0#32, 0x7#32, 0x700#32, 0x1#32⟩
  | .dec1 => ⟨0x0#32, 0x0#32, 0x0#32, 0x0#32, 0x400#32, 0x0#32⟩
  | .car0 => ⟨0x0#32, 0x4#32, 0x0#32, 0x3#32, 0x300#32, 0x1#32⟩
  | .car1 => ⟨0x0#32, 0x0#32, 0x0#32, 0x0#32, 0x0#32, 0x0#32⟩
  | .gse0 => ⟨0x0#32, 0x0#32, 0x0#32, 0x0#32, 0x100#32, 0x1#32⟩
  | .gse1 => ⟨0x0#32, 0x0#32, 0x0#32, 0x0#32, 0x100#32, 0x0#32⟩
  | .qe0 => ⟨0x0#32, 0x0#32, 0x0#32, 0x1#32, 0x100#32, 0x1#32⟩
  | .qe1 => ⟨0x0#32, 0x0#32, 0x0#32, 0x0#32, 0x0#32, 0x0#32⟩
  | .pul => ⟨0x0#32, 0x0#32, 0x0#32, 0x7#32, 0x300#32, 0x1#32⟩
  | .cap => ⟨0x0#32, 0x0#32, 0x0#32, 0xF#32, 0x700#32, 0x1#32⟩
  | .lgr0 => ⟨0x0#32, 0x4#32, 0x0#32, 0x3#32, 0x300#32, 0x1#32⟩
  | .lgr1 => ⟨0x0#32, 0x0#32, 0x0#32, 0x0#32, 0x0#32, 0x0#32⟩
  | .ten => ⟨0x0#32, 0x0#32, 0x0#32, 0x0#32, 0x700#32, 0x1#32⟩
  | .tens => ⟨0x0#32, 0x0#32, 0x0#32, 0x7#32, 0x0#32, 0x0#32⟩
  | .pair0 => ⟨0x0#32, 0x0#32, 0x0#32, 0x1FF#32, 0xF00#32, 0x1#32⟩
  | .pair1 => ⟨0x0#32, 0x0#32, 0x0#32, 0x7#32, 0x0#32, 0x0#32⟩
  | .port => ⟨0x0#32, 0x0#32, 0x0#32, 0xF#32, 0xF00#32, 0x7#32⟩
  | .red => ⟨0x0#32, 0x0#32, 0x0#32, 0x7#32, 0x100#32, 0x1#32⟩
  | .time0 => ⟨0x0#32, 0x0#32, 0x0#32, 0xF#32, 0x300#32, 0x3#32⟩
  | .time1 => ⟨0x0#32, 0x0#32, 0x0#32, 0x31F1F#32, 0x700#32, 0x1#32⟩
  | .time2 => ⟨0x0#32, 0x0#32, 0x0#32, 0x3#32, 0x700#32, 0x1#32⟩
  | .time3 => ⟨0x0#32, 0x0#32, 0x0#32, 0xFFFF#32, 0x100#32, 0x1#32⟩
  | .vlt => ⟨0x0#32, 0x0#32, 0x0#32, 0x7#32, 0x700#32, 0x1#32⟩
  | .ddr => ⟨0x0#32, 0x0#32, 0x0#32, 0x0#32, 0x0#32, 0x0#32⟩
  | .gio => ⟨0x0#32, 0x0#32, 0x0#32, 0x0#32, 0x0#32, 0x0#32⟩

/-- The page of number `pg` (address 0x1000_0000 + pg * 0x1000): its kind and the number of the unit it belongs to
(R17). -/
def pageAt (pg : Nat) : Option (PageKind × Nat) :=
  if 0x10 ≤ pg ∧ pg < 0x20 then some (.me, pg - 0x10)
  else if 0x20 ≤ pg ∧ pg < 0x24 then some (.clu, pg - 0x20)
  else if 0x70 ≤ pg ∧ pg < 0x78 then some (.cap, pg - 0x70)
  else if 0x90 ≤ pg ∧ pg < 0xA0 then some (.ten, pg - 0x90)
  else if 0xB0 ≤ pg ∧ pg < 0xB5 then some (.port, pg - 0xB0)
  else match pg with
    | 0x00 => some (.dir, 0) | 0x01 => some (.mode, 0) | 0x02 => some (.clk, 0)
    | 0x04 => some (.irq0, 0) | 0x05 => some (.irq1, 0)
    | 0x30 => some (.str0, 0) | 0x31 => some (.str1, 0) | 0x32 => some (.str2, 0) | 0x33 => some (.str3, 0)
    | 0x40 => some (.hop0, 0) | 0x41 => some (.hop1, 0) | 0x42 => some (.hop2, 0) | 0x43 => some (.hop3, 0)
    | 0x48 => some (.dec0, 0) | 0x49 => some (.dec1, 0)
    | 0x50 => some (.car0, 0) | 0x51 => some (.car1, 0) | 0x52 => some (.gse0, 0) | 0x53 => some (.gse1, 0)
    | 0x60 => some (.qe0, 0) | 0x61 => some (.qe1, 0) | 0x64 => some (.pul, 0)
    | 0x80 => some (.lgr0, 0) | 0x81 => some (.lgr1, 0)
    | 0xA0 => some (.pair0, 0) | 0xA1 => some (.pair1, 0) | 0xA8 => some (.tens, 0)
    | 0xB8 => some (.red, 0)
    | 0xC0 => some (.time0, 0) | 0xC1 => some (.time1, 0) | 0xC2 => some (.time2, 0) | 0xC3 => some (.time3, 0)
    | 0xD0 => some (.vlt, 0) | 0xE0 => some (.ddr, 0) | 0xE8 => some (.gio, 0)
    | _ => none

/-- Engines of a part (spec/00_scope.md R2). -/
def numEngines : Config.Variant → Nat | .wln4840 => 16 | .wln4830 => 12 | .wln4820 => 8
/-- Clusters of a part (R2). -/
def numClusters : Config.Variant → Nat | .wln4840 => 4 | .wln4830 => 3 | .wln4820 => 2
/-- Tenants of a part (R2). -/
def numTids : Config.Variant → Nat | .wln4840 => 16 | .wln4830 => 16 | .wln4820 => 8
/-- Network ports of a part besides the String link port (R2). -/
def numPorts : Config.Variant → Nat | .wln4840 => 4 | .wln4830 => 4 | .wln4820 => 2

/-- Whether a part has the page (spec/00_scope.md R5). -/
def pagePresent (v : Config.Variant) (pg : Nat) : Bool :=
  match pageAt pg with
  | none => false
  | some (.me, n) => n < numEngines v
  | some (.clu, c) => c < numClusters v
  | some (.ten, t) => t < numTids v
  | some (.port, p) => p < numPorts v || p == 4
  | some (.qe0, _) => v == .wln4840
  | some (.qe1, _) => v == .wln4840
  | some _ => true

/-- The type code and page index of a page kind (R17). -/
def typeCode : PageKind → Nat × Nat
  | .dir => (0x01, 0) | .mode => (0x02, 0) | .clk => (0x03, 0) | .irq0 => (0x04, 0) | .irq1 => (0x04, 1)
  | .me => (0x10, 0) | .clu => (0x11, 0)
  | .str0 => (0x12, 0) | .str1 => (0x12, 1) | .str2 => (0x12, 2) | .str3 => (0x12, 3)
  | .hop0 => (0x20, 0) | .hop1 => (0x20, 1) | .hop2 => (0x20, 2) | .hop3 => (0x20, 3)
  | .dec0 => (0x21, 0) | .dec1 => (0x21, 1) | .car0 => (0x22, 0) | .car1 => (0x22, 1)
  | .gse0 => (0x23, 0) | .gse1 => (0x23, 1) | .qe0 => (0x30, 0) | .qe1 => (0x30, 1) | .pul => (0x31, 0)
  | .cap => (0x32, 0) | .lgr0 => (0x33, 0) | .lgr1 => (0x33, 1) | .ten => (0x40, 0) | .tens => (0x40, 16)
  | .pair0 => (0x41, 0) | .pair1 => (0x41, 1) | .port => (0x50, 0) | .red => (0x51, 0)
  | .time0 => (0x60, 0) | .time1 => (0x60, 1) | .time2 => (0x60, 2) | .time3 => (0x60, 3)
  | .vlt => (0x70, 0) | .ddr => (0x80, 0) | .gio => (0x81, 0)

/-- The interrupt source of a page (R34). -/
def pageSource (k : PageKind) (n : Nat) : Nat :=
  match k with
  | .dir => 0 | .mode => 1 | .clk => 2 | .irq0 => 3 | .irq1 => 4 | .ddr => 5 | .gio => 6 | .vlt => 7
  | .me => 8 + n | .clu => 24 + n | .str0 => 28 | .str1 => 29 | .str2 => 30 | .str3 => 31
  | .hop0 => 32 | .hop1 => 33 | .hop2 => 34 | .hop3 => 35 | .dec0 => 36 | .dec1 => 37 | .car0 => 38 | .car1 => 39
  | .gse0 => 40 | .gse1 => 41 | .qe0 => 42 | .qe1 => 43 | .pul => 44 | .cap => 45 + n | .lgr0 => 53 | .lgr1 => 54
  | .ten => 55 + n | .tens => 71 | .pair0 => 72 | .pair1 => 73 | .port => 74 + n | .red => 79
  | .time0 => 80 | .time1 => 81 | .time2 => 82 | .time3 => 83

/-- The page numbers of the pages of a part, ascending. -/
def presentPages (v : Config.Variant) : List Nat := (List.range 0x100).filter (pagePresent v)

/-- CAP_NEXT of a page: the distance to the next present page, 0 on the last (R18). -/
def capNext (v : Config.Variant) (pg : Nat) : Nat :=
  match (presentPages v).find? (fun q => pg < q) with
  | some q => q - pg
  | none => 0

/-- The page whose LOCK register governs the groups of a page: page 0 of the block, and the TEN page itself (R27). -/
def lockPage (pg : Nat) : Nat :=
  match pg with
  | 0x41 => 0x40 | 0x42 => 0x40 | 0x43 => 0x40 | 0x49 => 0x48 | 0x51 => 0x50 | 0x53 => 0x52 | 0x61 => 0x60
  | 0x81 => 0x80 | 0xA1 => 0xA0
  | p => p

/-- The row of `rs` that covers offset `o`, with the index of the register in the row. -/
def findRow (rs : List RegRow) (o : Nat) : Option (RegRow × Nat) :=
  match rs with
  | [] => none
  | r :: rest =>
    if r.off ≤ o ∧ (o - r.off) % r.stride = 0 ∧ (o - r.off) / r.stride < r.count then
      some (r, (o - r.off) / r.stride)
    else findRow rest o

/-- The physical address of offset `o` of page `pg`. -/
def pageAddr (pg o : Nat) : Nat := 0x10000000 + pg * 0x1000 + o

/-- Page numbers of the units. -/
abbrev pgMode : Nat := 0x01
abbrev pgClk : Nat := 0x02
abbrev pgIrq0 : Nat := 0x04
abbrev pgIrq1 : Nat := 0x05
abbrev pgMe (n : Nat) : Nat := 0x10 + n
abbrev pgClu (c : Nat) : Nat := 0x20 + c
abbrev pgStr0 : Nat := 0x30
abbrev pgStr1 : Nat := 0x31
abbrev pgStr2 : Nat := 0x32
abbrev pgStr3 : Nat := 0x33
abbrev pgHop0 : Nat := 0x40
abbrev pgHop1 : Nat := 0x41
abbrev pgHop2 : Nat := 0x42
abbrev pgHop3 : Nat := 0x43
abbrev pgDec0 : Nat := 0x48
abbrev pgDec1 : Nat := 0x49
abbrev pgCar0 : Nat := 0x50
abbrev pgCar1 : Nat := 0x51
abbrev pgGse0 : Nat := 0x52
abbrev pgGse1 : Nat := 0x53
abbrev pgQe0 : Nat := 0x60
abbrev pgQe1 : Nat := 0x61
abbrev pgPul : Nat := 0x64
abbrev pgCap (k : Nat) : Nat := 0x70 + k
abbrev pgLgr0 : Nat := 0x80
abbrev pgLgr1 : Nat := 0x81
abbrev pgTen (t : Nat) : Nat := 0x90 + t
abbrev pgPair0 : Nat := 0xA0
abbrev pgPair1 : Nat := 0xA1
abbrev pgTens : Nat := 0xA8
abbrev pgPort (p : Nat) : Nat := 0xB0 + p
abbrev pgRed : Nat := 0xB8
abbrev pgTime0 : Nat := 0xC0
abbrev pgTime1 : Nat := 0xC1
abbrev pgTime2 : Nat := 0xC2
abbrev pgTime3 : Nat := 0xC3
abbrev pgVlt : Nat := 0xD0
abbrev pgDdr : Nat := 0xE0
abbrev pgGio : Nat := 0xE8

end Sys2Proof.Machine
end

