-- ==== Sys2Proof/Machine/Units/Capture.lean ====
section
/-!
DEFINITION. The state of the Capture unit (spec/10_capture_unit.md).
-/
namespace Sys2Proof

/-- A trigger unit (R252): armed for a rising and for a falling edge, and the previous record sample's value where it was usable. -/
structure TrigUnit where
  rising : Bool
  falling : Bool
  prev : Option Word
  deriving DecidableEq, Repr

/-- A unit after EN. -/
def TrigUnit.init : TrigUnit := { rising := false, falling := false, prev := none }

/-- A record in progress (R255). -/
structure RecNow where
  start : Nat
  first : Nat
  primary : Nat
  frac : Nat
  unit : Nat
  preShort : Bool
  samples : Nat
  /-- post-trigger samples still to come -/
  left : Nat
  secondary : Nat
  gap : Bool
  deriving DecidableEq, Repr

/-- An entry of the record table (R263). -/
structure RecEntry where
  start : Nat
  stop : Nat
  primary : Nat
  frac : Nat
  unit : Nat
  trunc : Bool
  preShort : Bool
  samples : Nat
  first : Nat
  deriving DecidableEq, Repr

/-- A recorder. -/
structure Recorder where
  units : Tab TrigUnit
  /-- the record table, oldest first -/
  table : List RecEntry
  now : Option RecNow
  /-- retained pre-trigger samples, oldest first: ring offset and sample tick -/
  retained : List (Nat × Nat)
  /-- a gap among the retained samples stands before the sample tick -/
  gaps : List Nat
  manual : Bool
  /-- START waits for space -/
  starting : Bool
  /-- dead time counted so far -/
  dead : Option Nat
  missedSince : Nat
  /-- the previous record sample tick -/
  prev : Option Nat
  deriving DecidableEq, Repr

/-- A recorder after EN. -/
def Recorder.init : Recorder :=
  { units := [], table := [], now := none, retained := [], gaps := [], manual := false, starting := false, dead := none
    missedSince := 0, prev := none }

/-- The Capture unit: its recorders, and the publish table of the latest flip (R251). -/
structure Capture where
  recs : Tab Recorder
  table : Tab (Word × Word)
  deriving DecidableEq, Repr

/-- After reset. -/
def Capture.init : Capture := { recs := [], table := [] }

end Sys2Proof
end

