-- ==== Sys2Proof/Machine/Units/Core.lean ====
section
/-!
DEFINITION. State that belongs to every page and to the interrupt router (spec/01_register_pages.md).
-/
namespace Sys2Proof

/-- What the device answered to the latest access (R14): nothing yet, done, a value, bytes, or an access error. -/
inductive Resp where
  | none | done | value (w : Word) | bytes (bs : List Byte) | error
  deriving DecidableEq, Repr

/-- A register access held by a soft reset (R20): a write, or the read of a CLAIM register. -/
structure HeldWrite where
  tid : Nat
  page : Nat
  off : Nat
  data : Word
  read : Bool
  deriving DecidableEq, Repr

/-- The mailbox of a page (R29): the selector that waits to be captured, the owner, VALID and the words held. -/
structure Mailbox where
  waiting : Option Word
  owner : Nat
  valid : Bool
  data : List Word
  deriving DecidableEq, Repr

/-- A mailbox after reset. -/
def Mailbox.init : Mailbox := { waiting := none, owner := 0, valid := false, data := [] }

/-- A slow-domain access in progress (R31): a write of a value, or a read. -/
inductive IndAccess where
  | write (v : Word) | read
  deriving DecidableEq, Repr

/-- An event stamp (R41-R42): TB0's value, the source, the claimer, the wait and the tick count. -/
structure Stamp where
  ns : Nat
  sec : Nat
  sub : Nat
  source : Nat
  tid : Nat
  hart : Nat
  overwritten : Bool
  notime : Bool
  waitNs : Nat
  tick : Nat
  /-- a snapshot of this stamp has been taken -/
  taken : Bool
  deriving DecidableEq, Repr

/-- The interrupt router (R34-R41): the claiming context of each claimed source, the instant at which each pending
source became pending, each context's latest stamp, and the contexts whose lines are asserted. -/
structure Router where
  claimed : Tab Nat
  since : Tab Nat
  stamps : Tab Stamp
  lines : List Nat
  deriving DecidableEq, Repr

/-- The router after reset. -/
def Router.init : Router := { claimed := [], since := [], stamps := [], lines := [] }

/-- The tick (spec/02_tick_contract.md R43-R47, R460). -/
structure Tick where
  /-- instant of the latest tick edge, none before the first -/
  edgeAt : Option Nat
  /-- an edge has been issued since TB0 and the generator last both started -/
  running : Bool
  /-- TB0's value in 2^−16 ns when TB0 or the generator last started: the first tick instant at or after it gives the first edge (R46) -/
  since : Nat
  /-- TB0 tick count of the latest edge (64 bits) -/
  count : Nat
  /-- last tick interval in ME cycles (R387) -/
  interval : Nat
  /-- the instant of the latest edge in TB0 time: ns, seconds, sub-ns -/
  ns : Nat
  sec : Nat
  sub : Nat
  /-- TIDs RUNNING at the latest edge (R92) -/
  runners : List Nat
  /-- a tick edge has begun the present tick and the seal point of it has passed -/
  sealedTick : Bool
  deriving DecidableEq, Repr

/-- The tick generator after reset. -/
def Tick.init : Tick :=
  { edgeAt := none, running := false, since := 0, count := 0, interval := 0, ns := 0, sec := 0, sub := 0, runners := [],
    sealedTick := false }

/-- A received frame that a port has handed to the unit that consumes it (spec/14_network_ports.md R356, R357): the port, the
frame, the PCS instant of its first bit, the correction of that stamp in 2^−16 ns (spec/15_time_unit.md R372), and the LAN that
the RED block reports (0 none, 1 A, 2 B). -/
structure Handed where
  port : Nat
  frame : List Byte
  stamp : Nat
  corr : Int
  lan : Nat
  deriving DecidableEq, Repr

/-- What the device itself did to registers in the latest fabric cycle in which it set a flag or advanced a counter: the flags set and the
increments, by physical address (spec/01_register_pages.md R25). -/
structure CycleHits where
  cycle : Nat
  flags : Tab Word
  counts : Tab Nat
  deriving DecidableEq, Repr

end Sys2Proof
end

