-- ==== Sys2Proof/Machine/Units/Dec.lean ====
section
/-!
DEFINITION. The state of the Decimation chain (spec/07_decimation_chain.md).
-/
namespace Sys2Proof

/-- A running fade (R195): FADE as read when it began, and the step of the last output. -/
structure Fade where
  fade : Nat
  step : Nat
  deriving DecidableEq, Repr

/-- A chain (R186-R197). -/
structure Chain where
  /-- the latest inputs, newest first: value and quality (R188) -/
  inputs : List (Word × Word)
  /-- inputs since the synchronising reset -/
  count : Nat
  /-- sample tick of the previous input -/
  prev : Option Nat
  /-- the latest output: sample tick, value and quality without NEW (R190) -/
  out : Option (Nat × Word × Word)
  /-- ACT_BANK -/
  act : Nat
  swapPending : Bool
  fade : Option Fade
  /-- FIRST_VALID has been delivered since the synchronising reset -/
  firstDone : Bool
  /-- the seal in progress began before the synchronising reset -/
  skip : Bool
  /-- the bank that DCH_GD shows (R193) -/
  gdBank : Nat
  result : Nat
  why : Nat
  deriving DecidableEq, Repr

/-- A chain after reset. -/
def Chain.init : Chain :=
  { inputs := [], count := 0, prev := none, out := none, act := 0, swapPending := false, fade := none, firstDone := false,
    skip := false, gdBank := 0, result := 0, why := 0 }

/-- The Decimation chain: its chains, and the coefficients by 128 * (2 * chain + bank) + index. -/
structure Decimation where
  chains : Tab Chain
  coef : Tab Word
  deriving DecidableEq, Repr

/-- The Decimation chain after reset. -/
def Decimation.init : Decimation := { chains := [], coef := [] }

end Sys2Proof
end

