-- ==== Sys2Proof/Machine/Units/Goose.lean ====
section
/-!
DEFINITION. The state of the GOOSE publisher and subscriber (spec/08_carafe_publication.md R210-R225).
-/
namespace Sys2Proof

/-- A publication: its window words by offset (R224), and what R212, R213 and R217 keep. -/
structure GsePub where
  words : Tab Word
  stNum : Nat
  sqNum : Nat
  /-- TB0 value of the publish point of the latest state change, in 2^−16 ns -/
  changedAt : Nat
  /-- the encodings of the TRIG members in the latest transmission -/
  trig : List (List Byte)
  /-- interval to the next scheduled transmission, and its tick, none while no schedule runs -/
  interval : Nat
  next : Option Nat
  /-- enabled and not yet transmitted -/
  fresh : Bool
  /-- transmits at the next flip with stNum as it is (R462) -/
  restart : Bool
  sent : Nat
  gated : Nat
  keyErrs : Nat
  deriving DecidableEq, Repr

/-- A publication after reset. -/
def GsePub.init : GsePub :=
  { words := [], stNum := 0, sqNum := 0, changedAt := 0, trig := [], interval := 0, next := none, fresh := false, restart := false,
    sent := 0, gated := 0, keyErrs := 0 }

/-- The state of a subscription (R219). -/
inductive GseState where
  | never | valid | expired
  deriving DecidableEq, Repr

/-- A subscription: its window words by offset (R225), the last accepted frame and its counts. -/
structure GseSub where
  words : Tab Word
  state : GseState
  stNum : Nat
  sqNum : Nat
  seqBack : Bool
  /-- TAL deadline in ns of TB0 -/
  deadline : Nat
  /-- the last accepted frame was simulated; one has been accepted since the last commit -/
  sim : Bool
  simSeen : Bool
  /-- value and quality of the mapped members of the last accepted frame -/
  values : List (Word × Word)
  /-- the image at the latest flip (R220) -/
  image : List (Word × Word)
  accepted : Nat
  failed : Nat
  expiries : Nat
  deriving DecidableEq, Repr

/-- A subscription after reset. -/
def GseSub.init : GseSub :=
  { words := [], state := .never, stNum := 0, sqNum := 0, seqBack := false, deadline := 0, sim := false, simSeen := false,
    values := [], image := [], accepted := 0, failed := 0, expiries := 0 }

/-- The GOOSE units. -/
structure Goose where
  pubs : Tab GsePub
  subs : Tab GseSub
  /-- subscriptions whose image changed at the latest flip (R220) -/
  changed : List Nat
  deriving DecidableEq, Repr

/-- The GOOSE units after reset. -/
def Goose.init : Goose := { pubs := [], subs := [], changed := [] }

end Sys2Proof
end

