-- ==== Sys2Proof/Machine/Units/Hopper.lean ====
section
/-!
DEFINITION. The state of the Hopper (spec/06_hopper_ingest.md).
-/
namespace Sys2Proof

/-- A subscription entry as its window words (R167, R183), with its counters (R185): stored, LATE, DUP, other
rejections, seals substituted, seals invalid. -/
structure HopSub where
  daLo : Word
  daHi : Word
  vlan : Word
  confRev : Word
  layout : Word
  frame : Word
  policy : Word
  svidLen : Word
  svid : List Word
  counters : List Nat
  /-- a simulated ASDU has been stored since the last commit (R170, reason 13) -/
  simStored : Bool
  deriving DecidableEq, Repr

/-- An empty entry. -/
def HopSub.init : HopSub :=
  { daLo := 0, daHi := 0, vlan := 0, confRev := 0, layout := 0, frame := 0, policy := 0, svidLen := 0,
    svid := List.replicate 16 0, counters := [0, 0, 0, 0, 0, 0], simStored := false }

/-- An arrival record (R181). -/
structure HopRec where
  tick : Nat
  present : Bool
  unsync : Bool
  sim : Bool
  port : Nat
  lan : Nat
  synch : Nat
  delay : Nat
  deriving DecidableEq, Repr

/-- A slot's decision at the latest seal: SOURCE, the count c, and whether a subscription uses it (R165, R175). -/
structure HopFrame where
  /-- the sample tick sealed, none where the buffer has no frame -/
  tick : Option Nat
  sealTick : Nat
  received : Nat
  substituted : Nat
  invalid : Nat
  lag : Nat
  rate : Nat
  late : Nat
  /-- slot status words (R165), by slot; one that is not listed is NOSUB -/
  status : Tab (Word × Word)
  /-- slots substituted or invalid (block 1) -/
  map : List Nat
  /-- channel entries by 8 * block + position: value and quality; one that is not listed is value 0, quality
  0x8000_0001 (R164, R166) -/
  chan : Tab (Word × Word)
  deriving DecidableEq, Repr

/-- A frame buffer after reset. -/
def HopFrame.init : HopFrame :=
  { tick := none, sealTick := 0, received := 0, substituted := 0, invalid := 0, lag := 0, rate := 0, late := 0,
    status := [], map := [], chan := [] }

/-- An ASDU as the parser reads it (R171). -/
structure Asdu where
  svid : List Byte
  smpCnt : Nat
  confRev : Nat
  smpSynch : Nat
  smpRate : Option Nat
  data : List Byte
  deriving DecidableEq, Repr

/-- The Hopper. -/
structure Hopper where
  subs : Tab HopSub
  /-- ring entries by 64 * slot + (k mod 64): value and quality of each channel (R181) -/
  ring : Tab (List (Word × Word))
  recs : Tab HopRec
  even : HopFrame
  odd : HopFrame
  /-- STAT.BUF: the latest seal's buffer is the odd one -/
  bufOdd : Bool
  /-- sample tick of the latest seal since the Hopper was last enabled or soft-reset (R172) -/
  lastSealed : Option Nat
  /-- ASDUs discarded as late since the previous seal (R165) -/
  lateSince : Nat
  /-- SOURCE of each slot at the latest seal, for the per-tenant events (R184) -/
  source : Tab Nat
  /-- the frame decided at the seal point and not yet complete -/
  forming : Option HopFrame
  deriving DecidableEq, Repr

/-- The Hopper after reset. -/
def Hopper.init : Hopper :=
  { subs := [], ring := [], recs := [], even := HopFrame.init, odd := HopFrame.init, bufOdd := false,
    lastSealed := none, lateSince := 0, source := [], forming := none }

end Sys2Proof
end

