-- ==== Sys2Proof/Machine/Units/Logic.lean ====
section
/-!
DEFINITION. The state of the Logic runner (spec/11_logic_runner.md).
-/
namespace Sys2Proof

/-- The point of an element (R270): U and V with their INV flags, and FRC. -/
structure LPoint where
  u : Word
  v : Word
  invU : Bool
  invV : Bool
  frc : Bool
  deriving DecidableEq, Repr

/-- The point before the first scan. -/
def LPoint.init : LPoint := { u := 0, v := 0, invU := false, invV := false, frc := false }

/-- A timer (R274), with the tick count of the scan in which E first met PT (R276). -/
structure LTimer where
  pt : Nat
  e : Nat
  st : Nat
  pv : Bool
  expiry : Option Nat
  deriving DecidableEq, Repr

/-- A timer with preset 0 after reset. -/
def LTimer.init : LTimer := { pt := 0, e := 0, st := 0, pv := false, expiry := none }

/-- A scan queued or running (R266): the fabric cycle behind its last, and the image that it writes. -/
structure LScan where
  doneAt : Nat
  image : List (Word × Word)
  deriving DecidableEq, Repr

/-- A partition (R264). -/
structure LogicPart where
  /-- elements of the loaded program, NOP behind its end -/
  elems : List (BitVec 64)
  points : List LPoint
  timers : Tab LTimer
  edges : List Nat
  /-- no scan has run since the program was loaded or the state was reset -/
  first : Bool
  lastScan : Option Nat
  scan : Option LScan
  /-- fabric cycle at which the latest scan ended -/
  endAt : Option Nat
  deriving DecidableEq, Repr

/-- A partition after reset. -/
def LogicPart.init : LogicPart :=
  { elems := [], points := [], timers := [], edges := [], first := true, lastScan := none, scan := none, endAt := none }

/-- A pending on-line change (R277). -/
structure LChange where
  tid : Nat
  timer : Bool
  index : Nat
  value : Word
  target : Word
  deriving DecidableEq, Repr

/-- A force entry (R277): the value in force, the value that comes in force at a tick, and the tick of its release. -/
structure LForce where
  tid : Nat
  elem : Nat
  cur : Option Word
  next : Option (Word × Word)
  release : Option Word
  deriving DecidableEq, Repr

/-- A load in its write phase (R281). -/
structure LLoad where
  tid : Nat
  elems : List (BitVec 64)
  presets : List Nat
  doneAt : Nat
  /-- SHA3-512 of the image's body -/
  digest : Nat
  deriving DecidableEq, Repr

/-- The Logic runner. -/
structure Logic where
  parts : Tab LogicPart
  changes : List LChange
  forces : Tab LForce
  load : Option LLoad
  /-- fabric cycle behind the last queued scan -/
  busyUntil : Nat
  /-- GPIO levels sampled at the latest flip -/
  gpio : Word
  deriving DecidableEq, Repr

/-- After reset. -/
def Logic.init : Logic := { parts := [], changes := [], forces := [], load := none, busyUntil := 0, gpio := 0 }

end Sys2Proof
end

