-- ==== Sys2Proof/Machine/Units/Meter.lean ====
section
/-!
DEFINITION. The state of the Quantity engine and of the pulse outputs (spec/09_quantity_engine.md).
-/
namespace Sys2Proof

/-- An energy accumulator (R237): 64 bits, its binary64 residue and its wrap count. -/
structure EnergyAcc where
  value : Nat
  residue : BitVec 64
  wraps : Nat
  deriving DecidableEq, Repr

/-- Frequency measurement of a point (R234); binary64 patterns. -/
structure FreqState where
  /-- accepted crossings, newest first -/
  crossings : List (BitVec 64)
  prevCross : Option (BitVec 64)
  /-- the channel has been at or below −HYST since the previous crossing -/
  armed : Bool
  /-- the sample before -/
  lastX : Option (BitVec 64)
  /-- sample ticks since the latest accepted crossing -/
  since : Nat
  valid : Bool
  value : BitVec 64
  deriving DecidableEq, Repr

/-- No crossing yet. -/
def FreqState.init : FreqState :=
  { crossings := [], prevCross := none, armed := false, lastX := none, since := 0, valid := false, value := 0 }

/-- A point of the Quantity engine (R226-R241). -/
structure QePoint where
  /-- committed configuration by offset of the staging window -/
  cfg : Tab Word
  /-- windows by channel, newest input first: value and quality -/
  wins : Tab (List (Word × Word))
  /-- inputs since the windows were cleared, and the sample tick of the latest -/
  count : Nat
  prev : Option Nat
  freq : FreqState
  /-- latest valid temperature since EN was set, binary64 -/
  temp : Option (BitVec 64)
  accs : Tab EnergyAcc
  /-- TB0 tick count of the latest step -/
  lastStep : Nat
  missed : Nat
  eclr : Bool
  deriving DecidableEq, Repr

/-- A point after reset. -/
def QePoint.init : QePoint :=
  { cfg := [], wins := [], count := 0, prev := none, freq := FreqState.init, temp := none, accs := [], lastStep := 0, missed := 0
    eclr := false }

/-- A pulse output (R242-R245). Its BACKLOG, HIGH and counters are in its registers. -/
structure PulseOut where
  pcnt : Nat
  /-- ACC_RES as it stood before fabric cycle `since`, none while nothing is added -/
  acc : Nat
  since : Option Nat
  inc : Nat
  kres : BitVec 64
  /-- pulses that start at the next tick edge (R243) -/
  due : Nat
  /-- end of the pulse, its width in ME cycles, and end of the low time after it -/
  highEnd : Nat
  width : Nat
  lowEnd : Option Nat
  deriving DecidableEq, Repr

/-- A pulse output after reset. -/
def PulseOut.init : PulseOut :=
  { pcnt := 0, acc := 0, since := none, inc := 0, kres := 0, due := 0, highEnd := 0, width := 0, lowEnd := none }

/-- The Quantity engine and the pulse outputs. -/
structure Meter where
  points : Tab QePoint
  outs : Tab PulseOut
  deriving DecidableEq, Repr

/-- After reset. -/
def Meter.init : Meter := { points := [], outs := [] }

end Sys2Proof
end

