-- ==== Sys2Proof/Machine/Units/Tenant.lean ====
section
/-!
DEFINITION. The state of the tenant manager (spec/12_tenants.md).
-/
namespace Sys2Proof

/-- The states of a tenant (R289). -/
inductive TenState where
  | empty | loaded | running | frozen | resetting | faulted
  deriving DecidableEq, Repr

/-- A command that waits for a tick (R460): its number in its own command register, the target tick count, and whether the
edge of the tick before has been issued since it was accepted. -/
structure AtCmd where
  kind : Nat
  target : Nat
  sawPrev : Bool
  deriving DecidableEq, Repr

/-- A SAVE (5), RESTORE (6) or RELOAD (7) in progress, with the bytes that it will write. -/
structure TenJob where
  op : Nat
  data : List Byte
  /-- freeze tick of an image that is being restored -/
  freezeTick : Nat
  deriving DecidableEq, Repr

/-- A tenant. -/
structure Tenant where
  state : TenState
  pend : Option AtCmd
  /-- a FAULT command waits for the next tick edge (R290) -/
  faultPend : Bool
  dirty : Bool
  restored : Bool
  job : Option TenJob
  fcause : Nat
  freezeTick : Nat
  thawTick : Nat
  lastStamp : Nat
  /-- instant of the fence of a reset in progress, and the engines that still drain, by row of R297 -/
  fenceAt : Nat
  draining : List Nat
  lastDrain : Nat
  /-- depths in effect (R293-R295) -/
  depth : List Nat
  deriving DecidableEq, Repr

/-- A tenant after reset (R293). -/
def Tenant.init : Tenant :=
  { state := .empty, pend := none, faultPend := false, dirty := false, restored := false, job := none, fcause := 0,
    freezeTick := 0, thawTick := 0, lastStamp := 0, fenceAt := 0, draining := [], lastDrain := 0, depth := [0, 0, 0, 0] }

/-- TID 0 after reset holds its shares (R293). -/
def Tenant.initZero : Tenant := { Tenant.init with depth := [16, 256, 128, 256] }

end Sys2Proof
end

