-- ==== Sys2Proof/Machine/Units/Modes.lean ====
section
/-!
DEFINITION. The state of the mode controller (spec/17_modes_clocks_power.md).
-/
namespace Sys2Proof

/-- The boot image that has passed the checks of R396 (spec/16_vault_and_boot.md): its slot, VERSION, PLAT_FW content, the digests that are
measured, and whether it was signed under the provisioning digest and enables core debug. -/
structure BootImage where
  slot : Nat
  version : Nat
  plat : List Byte
  body : List Byte
  vaultFw : List Byte
  debug : Option (List Byte)
  prov : Bool
  deriving DecidableEq, Repr

/-- The mode controller: MODE_STAT and the other registers hold the rest. -/
structure Modes where
  /-- a TEST (1) or TEST_END (2) command that waits for MODE_AT -/
  pend : Option AtCmd
  /-- main power is applied; VBAT is above its retention threshold -/
  power : Bool
  vbat : Bool
  /-- PORST_N is low -/
  porst : Bool
  /-- instant of a power warning (R427), none where PWR_FAIL_N is high -/
  warnAt : Option Nat
  /-- PWR_FAIL_N has not returned high since a warning -/
  failLow : Bool
  /-- instant at which WDOG_LEFT reaches 0, while the watchdog runs (R428) -/
  wdogAt : Option Nat
  /-- consecutive windows of the clock monitor beyond ±400 ppm (R433) -/
  monBad : Nat
  /-- the image that boots, and the harts released with their entry addresses (R436) -/
  boot : Option BootImage
  harts : Tab Nat
  deriving DecidableEq, Repr

/-- The mode controller of a device whose supplies are good. -/
def Modes.init : Modes :=
  { pend := none, power := true, vbat := true, porst := false, warnAt := none, failLow := false, wdogAt := none, monBad := 0,
    boot := none, harts := [] }

end Sys2Proof
end

