-- ==== Sys2Proof/Machine/Units/Net.lean ====
section
/-!
DEFINITION. The state of the network ports and of the RED block (spec/14_network_ports.md). Instants on the wire are in 1/25 of
an ME cycle, in which an octet lasts 24 at 10 Gb/s and 240 at 1 Gb/s (R343).
-/
namespace Sys2Proof

/-- A message that the Time unit sends, for what its transmit stamp does (spec/15_time_unit.md R375, R376). -/
inductive PtpSent where
  /-- Pdelay_Req of a sequenceId -/
  | request (seq : Nat)
  /-- Sync of a time base with its sequenceId, one-step or two-step -/
  | sync (tb seq : Nat) (oneStep : Bool)
  /-- Pdelay_Resp: sequenceId, requesting port identity, domain, receive stamp t2 on the local counter and correctionField of the
  request in 2^−16 ns, one-step or two-step -/
  | response (seq : Nat) (identity : List Byte) (domain : Nat) (t2 corr : Int) (oneStep : Bool)
  /-- a Follow_Up or a Pdelay_Resp_Follow_Up -/
  | other
  deriving DecidableEq, Repr

/-- Where a frame to be sent comes from (R346). -/
inductive TxSrc where
  | ring (tid desc : Nat) (stamp : Bool)
  | ptpRing (desc : Nat) (stamp : Bool)
  | goose (pub : Nat)
  | pair
  | ptp (msg : PtpSent)
  | forwarded
  | supervision
  | pause
  /-- a GOOSE frame that the gate has cut (spec/13_redundant_pair.md R325) -/
  | aborted
  deriving DecidableEq, Repr

/-- A frame in a transmit queue: its octets before the FCS. -/
structure TxFrame where
  queue : Nat
  bytes : List Byte
  src : TxSrc
  deriving DecidableEq, Repr

/-- The frame on the wire, or what is left of a preempted one: the instants of the start of its first and of its present
mPacket, the octets left at that start with the FCS, where it is to be cut, and the end with the gap (R348, R349). -/
structure TxWire where
  frame : TxFrame
  first : Nat
  start : Nat
  left : Nat
  cut : Option Nat
  endAt : Nat
  /-- the link is down, or the frame is discarded otherwise (R345) -/
  dead : Bool
  deriving DecidableEq, Repr

/-- A frame in the receive FIFO: octets, flags of R352, the rings that still take a copy, the port of those rings, instant of the
first bit and its correction in 2^−16 ns, LAN and classification entry. -/
structure RxFrame where
  bytes : List Byte
  flags : Nat
  tids : List Nat
  ringPort : Nat
  stamp : Nat
  corr : Int
  lan : Nat
  entry : Nat
  deriving DecidableEq, Repr

/-- A port. -/
structure Port where
  queue : List TxFrame
  /-- pause frames to be sent: their pause times (R361) -/
  pauses : List Nat
  wire : Option TxWire
  preempted : Option TxWire
  /-- the source served last in each queue: a TID, or 16 for forwarded frames (R347) -/
  last : Tab Nat
  /-- descriptors completed before an earlier one of their ring, by TID; 16 is the PTP ring -/
  done : Tab (List Nat)
  pauseUntil : Option Nat
  pausing : Bool
  pauseAt : Nat
  fifo : List RxFrame
  verifying : Bool
  attempts : Nat
  verifyAt : Nat
  deriving DecidableEq, Repr

/-- A port after reset. -/
def Port.init : Port :=
  { queue := [], pauses := [], wire := none, preempted := none, last := [], done := [], pauseUntil := none, pausing := false,
    pauseAt := 0, fifo := [], verifying := false, attempts := 0, verifyAt := 0 }

/-- A node of the node table (R366): address, ticks last seen on A and on B, instant last seen, and whether it is a proxied SAN. -/
structure RedNode where
  addr : Nat
  tickA : Nat
  tickB : Nat
  seen : Nat
  proxied : Bool
  deriving DecidableEq, Repr

/-- A pair of ports (R362-R366). Keys are held oldest first: source address, SeqNr, instant of the first copy. -/
structure RedPair where
  seqNr : Nat
  supSeq : Nat
  lastSup : Option Nat
  keys : List (Nat × Nat × Nat)
  forwarded : List (Nat × Nat × Nat)
  nodes : Tab RedNode
  /-- addresses learned on the interlink, with the instant last seen -/
  proxy : Tab (Nat × Nat)
  deriving DecidableEq, Repr

/-- A pair after reset. -/
def RedPair.init : RedPair :=
  { seqNr := 0, supSeq := 0, lastSup := none, keys := [], forwarded := [], nodes := [], proxy := [] }

end Sys2Proof
end

