-- ==== Sys2Proof/Machine/Units/Pair.lean ====
section
/-!
DEFINITION. The state of the Pair block (spec/13_redundant_pair.md).
-/
namespace Sys2Proof

/-- ROLE of PAIR_STAT (R341): the standby role, or the Top, leased or solo (R322). -/
inductive PairRole where
  | none | standby | leased | solo
  deriving DecidableEq, Repr

/-- COORD of a DIGEST or HEARTBEAT (R319): the pending reshape, and each tenant's command and AT. -/
structure Coord where
  pend : Bool
  alt : Nat
  tick : Nat
  cmds : List (Nat × Nat)
  deriving DecidableEq, Repr

/-- What a DIGEST holds that is compared (R319, R330). -/
structure DigRec where
  tick : Nat
  run : Nat
  gpio : Word
  dig : List Nat
  subst : List Byte
  change : List Byte
  deriving DecidableEq, Repr

/-- The latest compared tick (R342): masks of tenants compared, mismatching and incomparable, and both units' digests. -/
structure PairCmp where
  tick : Nat
  compared : Nat
  mismatch : Nat
  incomp : Nat
  own : List Nat
  peer : List Nat
  stringDown : Bool
  deriving DecidableEq, Repr

/-- HO_STAT and a pending handover (R334-R337, R341). -/
structure PairHo where
  state : Nat
  kind : Nat
  result : Nat
  drill : Nat
  h : Nat
  /-- the edges of H − 1 and H have been issued since it was accepted (R460) -/
  sawPrev : Bool
  sawH : Bool
  /-- SKEW_OK was checked at the edge of H − 1 (R335) -/
  checked : Bool
  /-- RELEASE(H) has arrived before the tick edge of H -/
  released : Bool
  deriving DecidableEq, Repr

/-- No handover. -/
def PairHo.init : PairHo :=
  { state := 0, kind := 0, result := 0, drill := 0, h := 0, sawPrev := false, sawH := false, checked := false, released := false }

/-- The Pair block. Paths are 0 for the String link and 1 for the backup path. -/
structure Pair where
  /-- LINK: 0 none, 1 HELLO, 2 admitted -/
  link : Nat
  role : PairRole
  expiry : Nat
  /-- EXPIRY at the latest tick edge, for the report of a drill (R337) -/
  expiryPrev : Nat
  /-- nonces of the admission in progress: the own one; the peer's with the CFG, FLAGS and UNIT of its HELLO; that of a RESPONSE that
  has verified -/
  nonce : List Byte
  hello : Option (List Byte × Nat × Nat × Nat)
  answered : Option (List Byte)
  firstHello : Option Nat
  /-- next SEQ of each message type -/
  seq : Tab Nat
  /-- TYPE with TICK or H of the messages accepted in this session (R320) -/
  seen : List (Nat × Nat)
  /-- tick of the latest valid message of each path, and whether each path is down -/
  lastString : Nat
  lastBackup : Nat
  stringDown : Bool
  backupDown : Bool
  fit : Bool
  peerFlags : Nat
  peerMode : Nat
  /-- CFG and RUN of the peer's latest message, none before the first -/
  peerCfg : Option Nat
  peerRun : Nat
  /-- tick of the peer's latest DIGEST, and the last tick that it reported with TOP = 1 -/
  peerTick : Nat
  peerTop : Option Nat
  /-- requests that the peer has reported in COORD (R333): RS_ALT and RS_TICK; TID, command and AT -/
  coordRs : List (Nat × Nat)
  coordCmd : List (Nat × Nat × Nat)
  /-- instant at which COPY_LEFT reaches 0, whether it has, and the tick edges since (R323, R326) -/
  copyAt : Option Nat
  copyOut : Bool
  copyEdges : Nat
  /-- highest tick granted, and whether a GRANT has been sent since admission -/
  granted : Option Nat
  grantSent : Bool
  /-- RESIGN sent (R327), and RESIGN received while holding the Top since the latest admission -/
  resigned : Bool
  peerResigned : Bool
  soloPend : Bool
  claimPend : Bool
  ho : PairHo
  /-- consecutive tick edges that meet the conditions of a revert, and a mismatch since the latest edge (R336) -/
  revert : Nat
  mismatched : Bool
  /-- PCS stamps of the own DIGESTs sent and of the peer's received, by tick -/
  txStamp : Tab Nat
  rxStamp : Tab Nat
  /-- θ has been measured -/
  skewKnown : Bool
  /-- the latest DIGESTs of each unit that wait for a comparison -/
  own : List DigRec
  peer : List DigRec
  /-- tick of the latest difference that makes a tenant incomparable, by TID -/
  diffAt : Tab Nat
  cmp : PairCmp
  deriving DecidableEq, Repr

/-- The Pair block after reset. -/
def Pair.init : Pair :=
  { link := 0, role := .none, expiry := 0, expiryPrev := 0, nonce := [], hello := none, answered := none, firstHello := none, seq := []
    seen := [], lastString := 0, lastBackup := 0, stringDown := false, backupDown := false, fit := false, peerFlags := 0, peerMode := 0
    peerCfg := none, peerRun := 0, peerTick := 0, peerTop := none, coordRs := [], coordCmd := [], copyAt := none, copyOut := false
    copyEdges := 0, granted := none, grantSent := false, resigned := false, peerResigned := false, soloPend := false, claimPend := false
    ho := PairHo.init, revert := 0, mismatched := false, txStamp := [], rxStamp := [], skewKnown := false, own := [], peer := []
    diffAt := [], cmp := { tick := 0, compared := 0, mismatch := 0, incomp := 0, own := List.replicate 16 0, peer := List.replicate 16 0, stringDown := false } }

end Sys2Proof
end

