-- ==== Sys2Proof/Machine/Units/Strings.lean ====
section
/-!
DEFINITION. The state of the string loader (spec/05_string_images.md).
-/
namespace Sys2Proof

/-- A partition descriptor of an image (R145). -/
structure PartDesc where
  pidx : Nat
  tid : Nat
  start : Nat
  stop : Nat
  entry : Nat
  tail : Nat
  imem : Nat × Nat
  dmem0 : Nat × Nat
  dmem1 : Nat × Nat
  clm : Nat × Nat
  hop : Nat × Nat
  outInfl : Nat
  headInfl : Nat
  need : List Nat
  lastDep : Nat
  lanes : Nat × Nat
  deriving DecidableEq, Repr

/-- An alternate of an engine that the loaded image holds (R145, R159). -/
structure EngineAlt where
  engine : Nat
  alt : Nat
  minP : Nat
  parts : List PartDesc
  deriving DecidableEq, Repr

/-- A slot set of a cluster that the loaded image holds: eight words (R140). -/
structure SlotSet where
  cluster : Nat
  alt : Nat
  words : List Word
  deriving DecidableEq, Repr

/-- A section-table entry of an image (R139). -/
structure ImgSection where
  type : Nat
  flags : Nat
  unit : Nat
  alt : Nat
  tid : Nat
  offset : Nat
  length : Nat
  deriving DecidableEq, Repr

/-- A load in its write phase (R151): the image body, its sections and its alternates. -/
structure StrLoad where
  body : List Byte
  sections : List ImgSection
  alts : List EngineAlt
  sets : List SlotSet
  deriving DecidableEq, Repr

/-- A pending reshape (R152-R155): alternates, target tick, and what has been seen of its edges. -/
structure Reshape where
  alt : Nat
  target : Nat
  sawPrev : Bool
  staged : Bool
  deriving DecidableEq, Repr

/-- The string loader. -/
structure Strings where
  /-- the image held: alternates, slot sets, digest of the body, and the messages that the tenants' signatures sign (R143) -/
  alts : List EngineAlt
  sets : List SlotSet
  digest : Nat
  tenantMsg : Tab Nat
  load : Option StrLoad
  /-- tables of a load wait for the tick edge (PHASE 6), and clusters whose alternate 0 takes effect then -/
  awaiting : Bool
  reshape : Option Reshape
  deriving DecidableEq, Repr

/-- The string loader after reset. -/
def Strings.init : Strings :=
  { alts := [], sets := [], digest := 0, tenantMsg := [], load := none, awaiting := false, reshape := none }

end Sys2Proof
end

