-- ==== Sys2Proof/Machine/Units/Time.lean ====
section
/-!
DEFINITION. The state of the Time unit (spec/15_time_unit.md).
-/
namespace Sys2Proof

/-- The states of a time base (R378). -/
inductive TbState where
  | stopped | freerun | locking | locked | holdover
  deriving DecidableEq, Repr

/-- A two-step Sync that waits for its Follow_Up (R377): sequenceId, receive stamp and correction in 2^−16 ns, instant. -/
structure PendSync where
  seq : Nat
  t2 : Int
  corr : Int
  tm : Nat
  deriving DecidableEq, Repr

/-- A time base (R370, R371, R377-R382). -/
structure TimeBase where
  state : TbState
  /-- internal count of 2^−48 / 3 ns at fabric cycle `since` -/
  base : Nat
  since : Nat
  rate : Int
  integ : Int
  stepArmed : Bool
  slewing : Bool
  switching : Bool
  refS : Bool
  swResult : Nat
  /-- a switch waits for the next tick edge (R382) -/
  swPend : Bool
  qualRun : Nat
  lockRun : Nat
  unlockRun : Nat
  refusedRun : Nat
  /-- latest offset in 2^−16 ns -/
  offset : Int
  /-- instants of the latest accepted measurement of the reference followed, and of the own source -/
  lastMeas : Nat
  ownMeas : Option Nat
  holdSince : Nat
  /-- HOLD_MAX has passed in HOLDOVER -/
  holdSpent : Bool
  pendSync : Option PendSync
  deriving DecidableEq, Repr

/-- A time base after reset. -/
def TimeBase.init : TimeBase :=
  { state := .stopped, base := 0, since := 0, rate := 0, integ := 0, stepArmed := false, slewing := false,
    switching := false, refS := false, swResult := 0, swPend := false, qualRun := 0, lockRun := 0, unlockRun := 0,
    refusedRun := 0, offset := 0, lastMeas := 0, ownMeas := none, holdSince := 0, holdSpent := false, pendSync := none }

/-- The peer-delay state of a port (R375); stamps of the free-running local counter in 2^−16 ns. -/
structure PtpPort where
  seq : Nat
  /-- instant of the latest Pdelay_Req -/
  reqAt : Option Nat
  t1 : Int
  /-- the latest Pdelay_Req has had no complete response yet -/
  waiting : Bool
  /-- a two-step response that waits for its Follow_Up: t4, t2 and its correction -/
  resp : Option (Int × Int × Int)
  /-- t3 and t4 of the exchange before, for the rate ratio -/
  last : Option (Int × Int)
  /-- NRR − 1 in 2^−32 -/
  nrr : Int
  meanDelay : Int
  /-- exchanges since reset, and since PD_VALID was last cleared -/
  exchanges : Nat
  good : Nat
  missed : Nat
  valid : Bool
  /-- sequenceId of the next Sync message, by time base (R376) -/
  syncSeq : Tab Nat
  deriving DecidableEq, Repr

/-- A port's peer-delay state after reset. -/
def PtpPort.init : PtpPort :=
  { seq := 0, reqAt := none, t1 := 0, waiting := false, resp := none, last := none, nrr := 0, meanDelay := 0, exchanges := 0
    good := 0, missed := 0, valid := false, syncSeq := [] }

/-- A PPS input (R385, R387): instant of the latest accepted edge, its stamp in ns of the TB named, offset, TB and count. -/
structure PpsIn where
  lastAt : Option Nat
  stamp : Nat
  offset : Int
  tb : Nat
  count : Nat
  deriving DecidableEq, Repr

/-- A PPS input after reset. -/
def PpsIn.init : PpsIn := { lastAt := none, stamp := 0, offset := 0, tb := 0, count := 0 }

/-- A PPS output (R386): its level and the instant at which a pulse ends. -/
structure PpsOut where
  high : Bool
  endAt : Nat
  deriving DecidableEq, Repr

/-- A PPS output after reset: low. -/
def PpsOut.init : PpsOut := { high := false, endAt := 0 }

/-- The Time unit. -/
structure TimeUnit where
  tbs : Tab TimeBase
  ports : Tab PtpPort
  ppsIn : Tab PpsIn
  ppsOut : Tab PpsOut
  deriving DecidableEq, Repr

/-- The Time unit after reset. -/
def TimeUnit.init : TimeUnit := { tbs := [], ports := [], ppsIn := [], ppsOut := [] }

end Sys2Proof
end

