-- ==== Sys2Proof/Machine/Units/Vault.lean ====
section
/-!
DEFINITION. The state of the key vault, the OTP and the VBAT domain (spec/16_vault_and_boot.md).
-/
namespace Sys2Proof

/-- The KIND of a slot (R403); roots are slots 1 and 2. -/
inductive KeyKind where
  | empty | derived | imported | verify | root
  deriving DecidableEq, Repr

/-- A key slot (R403). An emptied slot keeps its GEN. -/
structure KeySlot where
  kind : KeyKind
  use : Nat
  tid : Nat
  depth : Nat
  parent : Nat
  label : List Byte
  pgen : Nat
  gen : Nat
  persist : Bool
  counted : Bool
  count : Nat
  /-- the key of a root, of an imported slot or of slot 8 -/
  key : Nat
  /-- the public keys of a verify slot, laid out as BOOT_KEYS -/
  pub : List Byte
  keyId : Nat
  purpose : Nat
  deriving DecidableEq, Repr

/-- An empty slot. -/
def KeySlot.init : KeySlot :=
  { kind := .empty, use := 0, tid := 0, depth := 0, parent := 0, label := [], pgen := 0, gen := 0, persist := false,
    counted := false, count := 0, key := 0, pub := [], keyId := 0, purpose := 0 }

/-- A vault record (R415). -/
structure VaultRecord where
  gen : Nat
  epoch : Nat
  slots : Tab KeySlot
  deriving DecidableEq, Repr

/-- The OTP (R392). -/
structure Otp where
  dus : Nat
  serial : List Byte
  lifecycle : Nat
  revoke : Nat
  /-- OWNER_BK digests by entry; an entry that is not listed is empty -/
  ownerBk : Tab (List Byte)
  bootVer : Nat
  stringVer : Nat
  recEpoch : Nat
  deriving DecidableEq, Repr

/-- An OTP action of a record update (R415): a counter advanced (0 BOOT_VER, 1 STRING_VER), REC_EPOCH, an entry revoked, digests
programmed, LIFECYCLE set to OWNED. -/
inductive OtpAct where
  | counter (k v : Nat)
  | epoch (e : Nat)
  | revoke (k : Nat)
  | digests (ds : List (List Byte))
  | owned
  deriving DecidableEq, Repr

/-- A PREPARE entry of the journal (R415): GEN and the OTP actions. -/
structure Prepare where
  gen : Nat
  acts : List OtpAct
  deriving DecidableEq, Repr

/-- The VBAT domain (R417, R418), with the journal: PREPARE, and the commit word, area and GEN (R415). -/
structure Vbat where
  regs : Tab Word
  latch : Nat
  times : Tab Nat
  boots : Nat
  tampers : Nat
  rtcSec : Nat
  rtcAt : Nat
  retLost : Bool
  retained : Bool
  /-- RETAIN has been entered since the latest boot began -/
  retainSeen : Bool
  commit : Option (Nat × Nat)
  prepare : Option Prepare
  deriving DecidableEq, Repr

/-- The VBAT domain after a fall of VBAT. -/
def Vbat.init : Vbat :=
  { regs := [], latch := 0, times := [], boots := 0, tampers := 0, rtcSec := 0, rtcAt := 0, retLost := true, retained := false, retainSeen := false,
    commit := none, prepare := none }

/-- The vault. -/
structure Vault where
  otp : Otp
  slots : Tab KeySlot
  areas : Tab VaultRecord
  /-- area, GEN and EPOCH of the record in use -/
  area : Nat
  gen : Nat
  epoch : Nat
  journal : Nat
  meas : List Nat
  lastTid : Nat
  entropyOk : Bool
  debug : Bool
  vbat : Vbat
  deriving DecidableEq, Repr

/-- The vault of a device as it leaves manufacture, in lifecycle BLANK (R400; assumption 7). -/
def Vault.init : Vault :=
  { otp := { dus := 0, serial := List.replicate 16 0, lifecycle := 0, revoke := 0, ownerBk := [], bootVer := 0, stringVer := 0, recEpoch := 0 }
    slots := [], areas := [], area := 1, gen := 0, epoch := 0, journal := 0, meas := List.replicate 8 0, lastTid := 15,
    entropyOk := false, debug := false, vbat := Vbat.init }

end Sys2Proof
end

