-- ==== Sys2Proof/Machine/State.lean ====
section
/-!
DEFINITION. The state of the WLN-4840 as plain data, its reset, and the reasons for which a step stops.
-/
namespace Sys2Proof.Machine

/-- The device. -/
structure State where
  /-- the part (spec/00_scope.md R2) -/
  variant : Config.Variant
  /-- the commands that wait, first in, first out (assumption 1) -/
  pending : List Instr
  /-- device time in ME cycles (spec/00_scope.md R11) -/
  now : Nat
  /-- number of free values taken so far (assumption 5) -/
  free : Nat
  /-- answer of the latest access -/
  resp : Resp
  /-- registers by physical address; one that is not listed holds its reset value -/
  regs : Tab Word
  /-- memory by physical address (spec/01_register_pages.md R13) -/
  mem : List Host.Cell
  /-- resets so far: LPDDR4X does not keep its contents over one, so each has stored bits of its own (assumption 8) -/
  epoch : Nat
  /-- 64-bit words by index that hold an uncorrectable, or a corrected single-bit, error (spec/03 R96) -/
  eccUe : List Nat
  eccCe : List Nat
  mbx : Tab Mailbox
  held : List HeldWrite
  ind : Tab IndAccess
  irq : Router
  /-- frames that ports have handed to their consumers -/
  handed : List Handed
  tick : Tick
  eng : Tab Engine
  clu : Tab Cluster
  xfers : List Xfer
  fabric : List FabricAccess
  car : Carafe
  hop : Hopper
  ten : Tab Tenant
  tim : TimeUnit
  dec : Decimation
  net : Tab Port
  red : Tab RedPair
  vlt : Vault
  gse : Goose
  met : Meter
  cap : Capture
  lgr : Logic
  pair : Pair
  str : Strings
  mod : Modes
  /-- SerDes PMA registers by 0x100 * port + address (spec/14_network_ports.md R367) -/
  pma : Tab Word
  /-- what the device did to registers in the present fabric cycle (spec/01_register_pages.md R25) -/
  hits : CycleHits
  deriving DecidableEq, Repr

/-- The machine stops. -/
inductive Fault where
  /-- Raised by REGISTER_WRITE at a block-specific offset of the DDR page or of the GIO page, whose registers the spec
  does not give (spec/01_register_pages.md R17). Safe: the device would go on. -/
  | deviceUndescribed (addr : Nat)
  deriving DecidableEq, Repr

/-- A command has no meaning. -/
inductive Refusal where
  /-- Raised by `exec` for a command whose meaning is not written. Safe: nothing is claimed of it. -/
  | notModelled (mnemonic : String)
  deriving DecidableEq, Repr

/-- The device right after reset: mode RESET, every register and unit at its reset value (spec/17_modes_clocks_power.md R426, R434), main
power good (assumption 35), every unit disabled and every output inert (spec/00_scope.md R10); RESET_RELEASE starts the boot. -/
def State.reset : State :=
  { variant := .wln4840, pending := [], now := 0, free := 0, resp := .none, regs := [], mem := [], epoch := 0, eccUe := [],
    eccCe := [], mbx := [], held := [], ind := [], irq := Router.init, handed := [], tick := Tick.init, eng := [], clu := [],
    xfers := [], fabric := [], car := Carafe.init, hop := Hopper.init, ten := [(0, Tenant.initZero)], tim := TimeUnit.init,
    dec := Decimation.init,
    net := [],
    red := [],
    vlt := Vault.init,
    gse := Goose.init,
    met := Meter.init,
    cap := Capture.init,
    lgr := Logic.init,
    pair := Pair.init,
    str := Strings.init,
    mod := Modes.init,
    pma := [],
    hits := ⟨0, [], []⟩ }

end Sys2Proof.Machine
end

