-- ==== Sys2Proof/Machine/Ops.lean ====
section
/-!
DEFINITION. The named operations over registers: reading and writing them, setting interrupt and error flags, judging
an access of software, the soft-reset domain and the mailbox (spec/01_register_pages.md).
-/
namespace Sys2Proof.Machine

/-! ### Device time -/

/-- The device at instant `tm`: time never runs backwards (assumption 1). -/
def advance (s : State) (tm : Nat) : State := { s with now := max s.now tm }

/-- The ME cycle of the present tick, counted from the tick edge (R48). -/
def meCycle (s : State) : Nat :=
  match s.tick.edgeAt with
  | some e => s.now - e
  | none => 0

/-- A free value of 32 bits, and the state that has taken it (assumption 5). -/
def fresh (s : State) : Word × State := (Config.freeWord s.free, { s with free := s.free + 1 })

/-! ### Registers -/

/-- The reset value of the register at offset `o` of page `pg`. -/
def resetWord (v : Config.Variant) (pg o : Nat) : Word :=
  match pageAt pg with
  | none => 0
  | some (k, n) =>
    if o < 0x60 then
      match o with
      | 0x000 => word ((typeCode k).1 + (if k = .tens then 0xFF else n) * 0x10000 + (if k = .ten then n else (typeCode k).2) * 0x1000000)
      | 0x004 => word (Config.blkMinor (typeCode k).1 % 0x100 + 0x100)
      | 0x008 => word (capNext v pg)
      | 0x00C => Config.blkCaps pg
      | 0x014 => (headerBits k).statReset
      | _ => 0
    else match k, o with
      | .dir, 0x060 => word (Config.stepping % 0x100)
      | .dir, 0x064 => word (presentPages v).length
      | .clk, 0x070 => word (2 ^ numClusters v - 1)
      | .ten, 0x090 => if n = 0 then 16 else 0
      | .ten, 0x094 => if n = 0 then 256 else 0
      | .ten, 0x098 => if n = 0 then 128 else 0
      | .ten, 0x09C => if n = 0 then 256 else 0
      | .port, 0x060 => if n = 4 then 0x2010 else 0x2110
      | .tens, 0x070 => 64
      | .tens, 0x074 => 1024
      | .tens, 0x078 => 512
      | .tens, 0x07C => 1024
      | _, _ =>
        match findRow (rowsOf k) o with
        | some (r, _) => r.reset
        | none => 0

/-- The register at offset `o` of page `pg`. -/
def reg (s : State) (pg o : Nat) : Word := tget (resetWord s.variant pg o) s.regs (pageAddr pg o)

/-- The register at offset `o` of page `pg` set to `w`, by the device itself. -/
def setReg (s : State) (pg o : Nat) (w : Word) : State := { s with regs := tset s.regs (pageAddr pg o) w }

/-- A field of a register. -/
def regFld (s : State) (pg o lo n : Nat) : Nat := fld (reg s pg o) lo n

/-- A bit of a register. -/
def regBit (s : State) (pg o i : Nat) : Bool := bit (reg s pg o) i

/-- A field of a register set. -/
def setRegFld (s : State) (pg o lo n v : Nat) : State := setReg s pg o (setFld (reg s pg o) lo n v)

/-- What the device has done to registers in the present fabric cycle (R25). -/
def hitsNow (s : State) : CycleHits := if s.hits.cycle = s.now / 2 then s.hits else ⟨s.now / 2, [], []⟩

/-- The flags of a register that the device has set in the present fabric cycle. -/
def hitFlags (s : State) (pg o : Nat) : Word := tget 0 (hitsNow s).flags (pageAddr pg o)

/-- The increments of a counter in the present fabric cycle. -/
def hitCount (s : State) (pg o : Nat) : Nat := tget 0 (hitsNow s).counts (pageAddr pg o)

/-- Flags of a register that the device sets in the present fabric cycle noted (R25). -/
def noteFlags (pg o : Nat) (m : Word) (s : State) : State :=
  { s with hits := { hitsNow s with flags := tset (hitsNow s).flags (pageAddr pg o) (hitFlags s pg o ||| m) } }

/-- Increments of a counter in the present fabric cycle noted (R25). -/
def noteCount (pg o n : Nat) (s : State) : State :=
  { s with hits := { hitsNow s with counts := tset (hitsNow s).counts (pageAddr pg o) (hitCount s pg o + n) } }

/-- A register with bits set by the device. -/
def orReg (s : State) (pg o : Nat) (m : Word) : State := setReg (noteFlags pg o m s) pg o (reg s pg o ||| m)

/-- A register with bits cleared. -/
def clearReg (s : State) (pg o : Nat) (m : Word) : State := setReg s pg o (reg s pg o &&& ~~~m)

/-- A counter of 32 bits increased, modulo 2^32. -/
def countReg (s : State) (pg o n : Nat) : State := setReg (noteCount pg o n s) pg o (reg s pg o + word n)

/-! ### Interrupt sources -/

/-- The page whose source has number `n`, for the page sources of R34. -/
def sourcePage (n : Nat) : Option Nat :=
  if 8 ≤ n ∧ n < 24 then some (0x10 + (n - 8))
  else if 24 ≤ n ∧ n < 28 then some (0x20 + (n - 24))
  else if 28 ≤ n ∧ n < 32 then some (0x30 + (n - 28))
  else if 32 ≤ n ∧ n < 36 then some (0x40 + (n - 32))
  else if 45 ≤ n ∧ n < 53 then some (0x70 + (n - 45))
  else if 55 ≤ n ∧ n < 71 then some (0x90 + (n - 55))
  else if 74 ≤ n ∧ n < 79 then some (0xB0 + (n - 74))
  else if 80 ≤ n ∧ n < 84 then some (0xC0 + (n - 80))
  else match n with
    | 1 => some 0x01 | 2 => some 0x02 | 3 => some 0x04 | 4 => some 0x05 | 5 => some 0xE0 | 6 => some 0xE8
    | 7 => some 0xD0 | 36 => some 0x48 | 37 => some 0x49 | 38 => some 0x50 | 39 => some 0x51 | 40 => some 0x52
    | 41 => some 0x53 | 42 => some 0x60 | 43 => some 0x61 | 44 => some 0x64 | 53 => some 0x80 | 54 => some 0x81
    | 71 => some 0xA8 | 72 => some 0xA0 | 73 => some 0xA1 | 79 => some 0xB8 | _ => none

/-- Whether enabled events stand in a pair of flag and enable registers. -/
def evtOn (s : State) (pg evt en : Nat) : Bool := (reg s pg evt &&& reg s pg en) ≠ 0

/-- Whether the doorbell event bits `m` of tenant `t` stand enabled on any port (R368). -/
def doorbellOn (s : State) (t : Nat) (m : Word) : Bool :=
  (List.range 5).any (fun p =>
    let w := reg s (pgPort p) (Off.DB_EVT + 0x10 * t)
    (w &&& (w >>> 8) &&& m) ≠ 0)

/-- Whether tenant source `class` of tenant `t` is asserted (R35). -/
def tenantAsserted (s : State) (t cls : Nat) : Bool :=
  match cls with
  | 0 => doorbellOn s t 0x5
  | 1 => doorbellOn s t 0xA
  | 2 => evtOn s pgHop2 (Off.HTEN_EVT + 4 * t) (Off.HTEN_EVT_EN + 4 * t)
         || evtOn s pgDec1 (Off.DTEN_EVT + 4 * t) (Off.DTEN_EVT_EN + 4 * t)
  | 3 => evtOn s pgCar1 (Off.CTEN_EVT + 4 * t) (Off.CTEN_EVT_EN + 4 * t)
         || evtOn s pgGse1 (Off.GTEN_EVT + 4 * t) (Off.GTEN_EVT_EN + 4 * t)
  | 4 => evtOn s pgQe0 (Off.QTEN_EVT + 4 * t) (Off.QTEN_EVT_EN + 4 * t)
  | 5 => (List.range 8).any (fun k =>
           regFld s (pgCap k) Off.TID_OWNER 0 4 = t && evtOn s (pgCap k) Off.IRQ_STAT Off.IRQ_EN)
  | 6 => evtOn s pgLgr1 (Off.LTEN_EVT + 4 * t) (Off.LTEN_EVT_EN + 4 * t)
  | _ => evtOn s (pgTen t) Off.TEVT Off.TEVT_EN
         || (let w := reg s pgVlt (Off.VQ_EVT + 0x10 * t); (w &&& (w >>> 8) &&& 0x3) ≠ 0)

/-- Whether source `n` is asserted (R34, R35). Sources of absent pages and tenants never are. -/
def asserted (s : State) (n : Nat) : Bool :=
  if n < 128 then
    match sourcePage n with
    | some pg => pagePresent s.variant pg && evtOn s pg Off.IRQ_STAT Off.IRQ_EN
    | none => false
  else (n - 128) / 8 < numTids s.variant && tenantAsserted s ((n - 128) / 8) ((n - 128) % 8)

/-- Whether source `n` is pending: asserted and not claimed (R38). -/
def pendingSrc (s : State) (n : Nat) : Bool :=
  asserted s n && tget none (s.irq.claimed.map (fun p => (p.1, some p.2))) n = (none : Option Nat)

/-- Source `n` looked at after a change: the instant at which it became pending is kept for the event stamp (R41). -/
def noteSource (n : Nat) (s : State) : State :=
  if pendingSrc s n then
    if tget none (s.irq.since.map (fun p => (p.1, some p.2))) n = (none : Option Nat) then
      { s with irq := { s.irq with since := tset s.irq.since n s.now } }
    else s
  else { s with irq := { s.irq with since := tdel s.irq.since n } }

/-- The source of page `pg` (R34). -/
def srcOfPage (pg : Nat) : Nat :=
  match pageAt pg with
  | some (k, n) => pageSource k n
  | none => 0

/-- Interrupt flags `m` of page `pg` set by the device. -/
def setIrq (pg : Nat) (m : Word) (s : State) : State := noteSource (srcOfPage pg) (orReg s pg Off.IRQ_STAT m)

/-- Event flags `m` of a per-tenant event register set, for tenant `t`'s source of class `cls` (R35). -/
def setTenEvt (pg o t cls : Nat) (m : Word) (s : State) : State := noteSource (128 + 8 * t + cls) (orReg s pg o m)

/-! ### Errors (R21) -/

/-- The ERR_INFO word of an error at offset `off` by `tid`. -/
def errInfoWord (off tid : Nat) (write : Bool) : Word :=
  word (off % 0x1000 + tid % 16 * 0x10000 + b2n write * 0x100000)

/-- Error flag `i` of page `pg` set, with `info` recorded if it is the first error (R21). -/
def flagErrInfo (pg i : Nat) (info : Word) (s : State) : State :=
  let e := reg s pg Off.ERR_STAT
  let s1 := orReg s pg Off.ERR_STAT (1 <<< i)
  let s2 := if e = 0 then setReg s1 pg Off.ERR_INFO info else orReg s1 pg Off.ERR_INFO 0x80000000
  if bit e i then s2 else setIrq pg 0x80000000 s2

/-- Error flag `i` of page `pg` set by an access. -/
def flagErr (pg i off tid : Nat) (write : Bool) (s : State) : State :=
  flagErrInfo pg i (errInfoWord off tid write) s

/-- Error flag `i` of page `pg` set by the device without an access: the offset, TID and direction that ERR_INFO then
holds are not stated, so they are free values (assumption 10). -/
def hwErr (pg i : Nat) (s : State) : State :=
  let p := fresh s
  flagErrInfo pg i (p.1 &&& 0x001F0FFF) p.2

/-- An access error as the answer (R14). -/
def deny (s : State) : State := { s with resp := .error }

/-- An access refused with error flag `i` of the page written (R27). -/
def refuse (pg i off tid : Nat) (s : State) : State := deny (flagErr pg i off tid true s)

/-! ### Access rights (R22, R23) -/

/-- Tenant `t`. -/
def tenOf (s : State) (t : Nat) : Tenant := tget Tenant.init s.ten t

/-- Whether the part has the TID (spec/00_scope.md R7). -/
def tidExists (s : State) (t : Nat) : Bool := t < numTids s.variant

/-- Whether offset `off` of the page lies in a doorbell or context block, and of which tenant (R36, R368, R419). -/
def blockTenant (k : PageKind) (off : Nat) : Option Nat :=
  match k with
  | .irq1 => if 0x100 ≤ off ∧ off < 0x300 then some ((off - 0x100) / 8 % 16) else none
  | .port => if 0x400 ≤ off ∧ off < 0x500 then some ((off - 0x400) / 0x10) else none
  | .vlt => if 0x400 ≤ off ∧ off < 0x500 then some ((off - 0x400) / 0x10) else none
  | _ => none

/-- The fields of a TEN page that TID 0 alone writes (R311). -/
def tenTid0Only (off : Nat) : Bool :=
  off = Off.FAULT_LIMIT || off = Off.MAX_AGE || (Off.SHARE ≤ off && off < Off.SHARE + 16)
  || (Off.MIG_ADDR_LO ≤ off && off ≤ Off.MIG_LEN) || (Off.DDR_WIN ≤ off && off < Off.DDR_WIN + 16)

/-- Whether `tid` may write offset `off` of page `pg` (R22 and its exceptions). -/
def mayWrite (s : State) (tid pg off : Nat) : Bool :=
  match pageAt pg with
  | none => false
  | some (k, _) =>
    if tid = 0 then true
    else if off = Off.TID_OWNER then false
    else if k = .irq1 ∧ 0x30 ≤ off ∧ off < 0x50 then true
    else if blockTenant k off = some tid then !(k = .vlt && off % 0x10 < 8)
    else if k = .tens ∨ k = .dir ∨ k = .irq0 then false
    else if k = .ten ∧ tenTid0Only off then false
    else regFld s pg Off.TID_OWNER 0 4 = tid

/-! ### Blocks and their pages -/

/-- The first page and the number of pages of the block that page `pg` belongs to (R17). -/
def blockPages (pg : Nat) : List Nat :=
  if pg = 0x04 ∨ pg = 0x05 then [0x04, 0x05]
  else if 0x30 ≤ pg ∧ pg < 0x34 then [0x30, 0x31, 0x32, 0x33]
  else if 0x40 ≤ pg ∧ pg < 0x44 then [0x40, 0x41, 0x42, 0x43]
  else if pg = 0x48 ∨ pg = 0x49 then [0x48, 0x49]
  else if pg = 0x50 ∨ pg = 0x51 then [0x50, 0x51]
  else if pg = 0x52 ∨ pg = 0x53 then [0x52, 0x53]
  else if pg = 0x60 ∨ pg = 0x61 then [0x60, 0x61]
  else if pg = 0x80 ∨ pg = 0x81 then [0x80, 0x81]
  else if pg = 0xA0 ∨ pg = 0xA1 then [0xA0, 0xA1]
  else if 0xC0 ≤ pg ∧ pg < 0xC4 then [0xC0, 0xC1, 0xC2, 0xC3]
  else [pg]

/-- Whether offset `off` of page kind `k` is implemented (R26). -/
def implemented (k : PageKind) (n off : Nat) : Bool :=
  if off < 0x60 then off % 4 = 0
  else if k = .port ∧ n = 4 ∧ 0x100 ≤ off ∧ off < 0x800 then false
  else (findRow (rowsOf k) off).isSome

/-- The descriptor of the register at offset `off`: header registers take theirs from R19, R27, R29 and R31. -/
def rowAt (k : PageKind) (off : Nat) : RegRow :=
  let h := headerBits k
  match off with
  | 0x010 => ⟨"CTRL", 0x010, 4, 1, 0, 0x1 ||| h.ctrlRw, 0, 0x2 ||| h.ctrlSc, 0, none⟩
  | 0x018 => ⟨"IRQ_STAT", 0x018, 4, 1, 0, 0, 0x80000000 ||| h.irq, 0, 0, none⟩
  | 0x01C => ⟨"IRQ_EN", 0x01C, 4, 1, 0, 0xFFFFFFFF, 0, 0, 0, none⟩
  | 0x024 => ⟨"ERR_STAT", 0x024, 4, 1, 0, 0, 0x7F ||| h.err, 0, 0, none⟩
  | 0x02C => ⟨"TID_OWNER", 0x02C, 4, 1, 0, 0xF, 0, 0, 0, if k = .cap then some 0 else none⟩
  | 0x050 => ⟨"IND_ADDR", 0x050, 4, 1, 0, 0xFFFFFFFF, 0, 0, 0, none⟩
  | 0x054 => ⟨"IND_DATA", 0x054, 4, 1, 0, 0xFFFFFFFF, 0, 0, 0, none⟩
  | 0x058 => ⟨"IND_CTRL", 0x058, 4, 1, 0, 0xF, 0, 0x100, 0, none⟩
  | o =>
    match findRow (rowsOf k) o with
    | some (r, _) => r
    | none => ⟨"", o, 4, 1, 0, 0, 0, 0, 0, none⟩

/-- Whether the lock group of a register is set in the LOCK register of its block (R27). -/
def lockedGrp (s : State) (pg : Nat) (g : Option Nat) : Bool :=
  match g with
  | some i => regBit s (lockPage pg) Off.LOCK i
  | none => false

/-- Whether a WO1 register has taken its write (R28). -/
def onceWritten (s : State) (pg off : Nat) (r : RegRow) : Bool :=
  r.wo1 ≠ 0 && (s.regs.any (fun p => p.1 = pageAddr pg off))

/-- What becomes of a register access: it is performed, held until a soft reset ends (R20), or answered with an access
error, with an error flag or without. -/
inductive Verdict where
  | ok | hold | error (flag : Option Nat)
  deriving DecidableEq, Repr

/-- Whether the page belongs to a cluster that is powered down, whose block registers then answer access errors
(spec/17_modes_clocks_power.md R435). -/
def poweredDown (s : State) (k : PageKind) (n : Nat) : Bool :=
  match k with
  | .me => !(regBit s pgClk Off.PD_STAT (n / 4))
  | .clu => !(regBit s pgClk Off.PD_STAT n)
  | _ => false

/-- The judgement of a write by `tid` to offset `off` of page `pg`, in this order: the fence of a tenant that is reset
(spec/12_tenants.md R296), absent page or reserved offset (R14, R26), power (R435), soft reset (R20), rights (R22), locks (R27), WO1 (R28), indirect access in progress (R32). -/
def judge (s : State) (tid pg off : Nat) : Verdict :=
  match pageAt pg with
  | none => .error none
  | some (k, n) =>
    if tid ≠ 0 ∧ (tenOf s tid).state = .resetting then .error none
    else if !pagePresent s.variant pg then .error none
    else if !implemented k n off then .error none
    else if 0x60 ≤ off ∧ poweredDown s k n then .error none
    else if 0x60 ≤ off ∧ regBit s pg Off.STAT 1 then .hold
    else if !mayWrite s tid pg off then .error (some 2)
    else if lockedGrp s pg (rowAt k off).grp then .error (some 0)
    else if onceWritten s pg off (rowAt k off) then .error (some 1)
    else if 0x50 ≤ off ∧ off ≤ 0x58 ∧ regBit s pg Off.IND_CTRL 9 then .error (some 6)
    else .ok

/-- A register write by `tid`, whose effect is `body` where the access is in order. -/
def access (tid pg off : Nat) (data : Word) (body : State → State) (s : State) : State :=
  match judge s tid pg off with
  | .error none => deny s
  | .error (some i) => refuse pg i off tid s
  | .hold => { s with held := s.held ++ [⟨tid, pg, off, data, false⟩], resp := .none }
  | .ok => body { s with resp := .done }

/-- A write to an entry of tenant `t`, which is refused while a SAVE, RESTORE or RELOAD of `t` runs (spec/12_tenants.md R302). -/
def entryWrite (t tid pg off : Nat) (body : State → State) (s : State) : State :=
  if (tenOf s t).job.isSome then refuse pg 2 off tid s else body s

/-- The word that a write of `data` leaves in a register, by the types of its fields (R24). A flag that the device sets in the same fabric
cycle (`flags`) stays set, and the increments of that cycle (`count`) are added to the value written to a counter (R25). -/
def fieldWrite (r : RegRow) (old data flags : Word) (count : Nat) : Word :=
  let st := r.rw ||| r.wo1
  (((old &&& ~~~st) ||| (data &&& st)) &&& ~~~(data &&& r.w1c &&& ~~~flags)) + (if r.rw = 0xFFFFFFFF then word count else 0)

/-- A plain register write: RW and WO1 fields store, W1C bits clear (R24). -/
def plainWrite (pg off : Nat) (data : Word) (s : State) : State :=
  match pageAt pg with
  | none => s
  | some (k, _) =>
    setReg s pg off (fieldWrite (rowAt k off) (reg s pg off) data (hitFlags s pg off) (hitCount s pg off))

/-! ### The mailbox (R29, R30, R42) -/

/-- The mailbox of page `pg`. -/
def mailbox (s : State) (pg : Nat) : Mailbox := tget Mailbox.init s.mbx pg

/-- The mailbox of page `pg` changed. -/
def setMailbox (s : State) (pg : Nat) (m : Mailbox) : State := { s with mbx := tset s.mbx pg m }

/-- Whether `tid` may write selector `sel` of page `pg`: on IRQ page 1 a tenant may name only the event stamps of its
own contexts (R42). -/
def mayset (tid pg : Nat) (sel : Word) : Bool :=
  if pg = pgIrq1 ∧ tid ≠ 0 then
    fld sel 0 16 = 1 && fld sel 16 8 < 64 && fld sel 16 8 % 16 = tid
  else true

/-- A write of MBX_SEL: VALID clears, the writer becomes the OWNER, and the selector waits for its capture where the
page defines it; an undefined one sets SEL_BAD, CODE 0 releases the snapshot (R29, R30). -/
def selectMailbox (tid pg : Nat) (sel : Word) (defined : Bool) (s : State) : State :=
  access tid pg Off.MBX_SEL sel (fun s =>
    if !mayset tid pg sel then refuse pg 2 Off.MBX_SEL tid s
    else
      let s1 := setReg s pg Off.MBX_SEL (sel &&& 0x00FFFFFF)
      if fld sel 0 16 = 0 then setMailbox s1 pg { waiting := none, owner := tid, valid := false, data := [] }
      else if defined then
        setMailbox s1 pg { waiting := some (sel &&& 0x00FFFFFF), owner := tid, valid := false, data := [] }
      else flagErr pg 5 Off.MBX_SEL tid true
        (setMailbox s1 pg { waiting := none, owner := tid, valid := false, data := [] })) s

/-- The selector word of a code and an index. -/
def selWord (code index : Nat) : Word := word (code % 0x10000 + index % 0x100 * 0x10000)

/-- The snapshot of page `pg` released (R33). -/
def releaseMailbox (pg : Nat) (s : State) : State :=
  setMailbox s pg { (mailbox s pg) with waiting := none, valid := false, data := [] }

/-! ### The soft-reset domain of the header (R33) -/

/-- The header of page `pg` after a soft reset or a TEN reset: CTRL, IRQ_EN, MBX_SEL, IND_*, IRQ_STAT and STAT at their
reset values, the snapshot released. -/
def resetHeader (pg : Nat) (s : State) : State :=
  let s1 := [Off.CTRL, Off.STAT, Off.IRQ_STAT, Off.IRQ_EN, Off.MBX_SEL, Off.IND_ADDR, Off.IND_DATA, Off.IND_CTRL].foldl
    (fun s o => setReg s pg o (resetWord s.variant pg o)) s
  noteSource (srcOfPage pg) (releaseMailbox pg { s1 with ind := tdel s1.ind pg })

/-! ### Modes (spec/00_scope.md, spec/17_modes_clocks_power.md R436) -/

/-- The mode code of MODE_STAT. -/
def mode (s : State) : Nat := regFld s pgMode Off.MODE_STAT 0 4

abbrev mOff : Nat := 0
abbrev mRetain : Nat := 1
abbrev mReset : Nat := 2
abbrev mVerify : Nat := 3
abbrev mProvision : Nat := 4
abbrev mConfigure : Nat := 5
abbrev mShadow : Nat := 6
abbrev mActive : Nat := 7
abbrev mFenced : Nat := 8
abbrev mTest : Nat := 9
abbrev mMaintain : Nat := 10
abbrev mSafe : Nat := 11

/-- The modes in which strings start and the real-time units work (R421). -/
def realTimeMode (s : State) : Bool := mConfigure ≤ mode s && mode s ≤ mMaintain

/-- The tick rate: 0 for 4800 Hz, 1 for 4000 Hz (R383). -/
def rateHz (s : State) : Nat := if regBit s pgTime0 Off.TICK_CFG 1 then 4000 else 4800

/-- Last ME cycle in which a string may issue a bundle (R49). -/
def windowEnd (s : State) : Nat := if rateHz s = 4000 then 287999 else 237999

/-- Latest permitted publish point (R49). -/
def latestP (s : State) : Nat := if rateHz s = 4000 then 290000 else 240000

/-- Tenant `t` changed. -/
def updTen (t : Nat) (f : Tenant → Tenant) (s : State) : State := { s with ten := tset s.ten t (f (tenOf s t)) }

/-- Whether tenant `t` is RUNNING; TID 0 is from CONFIGURE on (R289). -/
def tenRunning (s : State) (t : Nat) : Bool :=
  if t = 0 then mConfigure ≤ mode s && mode s ≤ mMaintain else (tenOf s t).state = .running

/-- ME cycles in a time of 2^−16 ns. -/
def cyclesOf (d : Int) : Int := (d * 6).fdiv (5 * 65536)

/-- The PCS instant of the first bit of a frame that a port has handed over, its correction and its LAN, and the state without it;
a frame that no port has handed is stamped at `tm`, uncorrected, and has no LAN (assumption 16). -/
def takeHandedRaw (port : Nat) (frame : List Byte) (tm : Nat) (s : State) : (Nat × Int × Nat) × State :=
  match s.handed.find? (fun h => h.port = port && h.frame = frame) with
  | some h => ((h.stamp, h.corr, h.lan), { s with handed := s.handed.erase h })
  | none => ((tm, 0, 0), s)

/-- The corrected instant of such a frame, and its LAN. -/
def takeHanded (port : Nat) (frame : List Byte) (tm : Nat) (s : State) : (Nat × Nat) × State :=
  let h := takeHandedRaw port frame tm s
  ((((h.1.1 : Int) - cyclesOf h.1.2.1).toNat, h.1.2.2), h.2)

/-! ### Memory -/

/-- The bits that a byte of LPDDR4X or flash holds which nothing has written, for LPDDR4X since the latest reset (spec/17_modes_clocks_power.md
R426; assumption 8). -/
def storedAt (s : State) (a : Nat) : Option Byte := Config.storedByte (if 0x800000000 ≤ a then a + s.epoch * 2 ^ 48 else a)

/-- Bytes of memory; a byte of LPDDR4X or flash that nothing has written reads what the part stored (assumption 8). -/
def readMem (s : State) (a n : Nat) : List Byte :=
  Memory.readBytes s.mem (fun a => (storedAt s a).getD 0) a n

/-- Bytes written to memory. -/
def writeMem (s : State) (a : Nat) (bs : List Byte) : State := { s with mem := Memory.writeBytes s.mem a bs }

/-- Whether every byte from `a` can be read: none of them is a stored byte that in-line ECC rejects (R426). -/
def readableMem (s : State) (a n : Nat) : Bool :=
  (List.range n).all (fun i => (Memory.read s.mem (a + i)).isSome || (storedAt s (a + i)).isSome)

/-- A little-endian number of `n` bytes read from memory. -/
def readNat (s : State) (a n : Nat) : Nat := leNat (readMem s a n)

/-- A little-endian number of `n` bytes written to memory. -/
def writeNat (s : State) (a n v : Nat) : State := writeMem s a (leBytes n v)

end Sys2Proof.Machine
end

