-- ==== Sys2Proof/Machine/Engine.lean ====
section
/-!
DEFINITION. The operations that every engine command shares: violations, register and memory writes that fall due, the
issue of an operation, and transfers (spec/02_tick_contract.md, spec/03_marionette_engines.md).
-/
namespace Sys2Proof.Machine

/-- Engine `n`. -/
def engOf (s : State) (n : Nat) : Engine := tget Engine.init s.eng n

/-- Engine `n` changed. -/
def updEng (n : Nat) (f : Engine → Engine) (s : State) : State := { s with eng := tset s.eng n (f (engOf s n)) }

/-- Physical address of byte `a` of the DMEM of engine `n` (spec/01_register_pages.md R13). -/
def dmemPhys (n a : Nat) : Nat := 0x20000000 + n * 0x100000 + 0x40000 + a
/-- Physical address of byte `a` of the IMEM of engine `n`. -/
def imemPhys (n a : Nat) : Nat := 0x20000000 + n * 0x100000 + a
/-- Physical address of byte `a` of the memory of cluster `c`. -/
def clmPhys (c a : Nat) : Nat := 0x30000000 + c * 0x200000 + a % 0x200000

/-- An instant as an ME cycle of the present tick. -/
def cycleOf (s : State) (tm : Nat) : Nat := tm - s.tick.edgeAt.getD 0

/-- An entry of a list taken once. -/
def insertNew (x : Nat) (l : List Nat) : List Nat := if l.contains x then l else l ++ [x]

/-! ### Violations (R66, R98) -/

/-- Every SRC 0 lane of `tid` publishes invalid at the flip of this tick, or at the next flip where this tick's has
passed (R66). -/
def markBad (tid : Nat) (s : State) : State :=
  if s.car.flipped then { s with car := { s.car with nextBadTids := insertNew tid s.car.nextBadTids } }
  else { s with car := { s.car with badTids := insertNew tid s.car.badTids } }

/-- The partition's lanes become invalid, its bit is kept for PART_FAULT, and class 7 of its tenant is raised. -/
def breachKey (n key tid : Nat) (s : State) : State :=
  markBad tid (setTenEvt (pgTen tid) Off.TEVT tid 7 0x80
    (updEng n (fun e => { e with violators := insertNew key e.violators }) s))

/-- A violation that another page flags (SLOT_MISS, LANE_VIOL). -/
def breach (n part tid : Nat) (s : State) : State := breachKey n (16 * part + 15) tid s

/-- A violation flagged by bit `code` of FAULT_STAT, once per partition and tick (R98, spec/04_engine_instruction_set.md R136); a repeat still invalidates the lanes of the flip on
which it acts (R66). -/
def violate (n part tid pc code tm : Nat) (s : State) : State :=
  if (engOf s n).violators.contains (16 * part + code) then markBad tid s
  else
    let pg := pgMe n
    let old := reg s pg Off.FAULT_STAT
    let s1 := orReg s pg Off.FAULT_STAT (1 <<< code)
    let s2 :=
      if old &&& 0x0FFF = 0 then
        setReg (setReg s1 pg Off.FAULT_INFO (word (cycleOf s tm % 2 ^ 20 + part % 16 * 2 ^ 20 + code % 32 * 2 ^ 24)))
          pg Off.FAULT_PC (word (pc % 2 ^ 13))
      else orReg s1 pg Off.FAULT_INFO 0x80000000
    let s3 := if bit old code then s2 else setIrq pg 1 s2
    breachKey n (16 * part + code) tid s3

/-! ### ECC (R54, R96) -/

/-- The 64-bit words that `len` bytes from physical address `a` touch. -/
def eccWords (a len : Nat) : List Nat := (List.range ((a % 8 + len + 7) / 8)).map (fun i => a / 8 + i)

/-- Whether an uncorrectable error stands in the bytes. -/
def hasUe (s : State) (a len : Nat) : Bool := (eccWords a len).any (fun w => s.eccUe.contains w)

/-- ECC_ADDR of page `pg` of an engine or of a cluster: the place of the 64-bit word `w` in the window, and whether its error is
uncorrectable (R101, R102). -/
def noteEcc (pg w : Nat) (ue : Bool) (s : State) : State :=
  if pg < 0x20 then setReg s pg Off.ME_ECC_ADDR (word (8 * w % 2 ^ 20 + b2n ue * 2 ^ 31))
  else setReg s pg Off.CLU_ECC_ADDR (word (8 * w % 2 ^ 21 + b2n ue * 2 ^ 31))

/-- Corrected errors in the bytes read count in CE_COUNT of the page that owns the storage, whose ECC_ADDR shows the latest event
(R54, R96; assumption 56). -/
def countCe (pg off a len : Nat) (s : State) : State :=
  match ((eccWords a len).filter (fun w => s.eccCe.contains w)).getLast? with
  | none => s
  | some w => noteEcc pg w false (countReg s pg off ((eccWords a len).filter (fun w => s.eccCe.contains w)).length)

/-- An uncorrectable error in the bytes: ECC of the page that owns the storage, and its ECC_ADDR (R96). -/
def flagUe (pg a len : Nat) (s : State) : State :=
  match ((eccWords a len).filter (fun w => s.eccUe.contains w)).getLast? with
  | none => s
  | some w => noteEcc pg w true (hwErr pg 3 s)

/-- The words wholly written with fresh ECC: `len` bytes from `a` (R96). -/
def freshEcc (a len : Nat) (s : State) : State :=
  let whole := fun w => decide (a ≤ 8 * w) && decide (8 * w + 8 ≤ a + len)
  { s with eccUe := s.eccUe.filter (fun w => !whole w), eccCe := s.eccCe.filter (fun w => !whole w) }

/-- A partition's access met an uncorrectable word among `len` bytes of its engine's memory from physical address `a` (R96). -/
def engineUe (n part tid pc a len tm : Nat) (s : State) : State := violate n part tid pc 9 tm (flagUe (pgMe n) a len s)

/-! ### Writes that fall due (R71, R72, R83) -/

/-- A pending register write put in its place: by due instant, then issue, then slot. -/
def insertWrite (w : PendWrite) : List PendWrite → List PendWrite
  | [] => [w]
  | x :: r =>
    if w.due < x.due ∨ (w.due = x.due ∧ (w.issued < x.issued ∨ (w.issued = x.issued ∧ w.slot < x.slot))) then w :: x :: r
    else x :: insertWrite w r

/-- One register write; Q0 discards it (R73). A write gives the lane fresh parity. -/
def putReg (e : Engine) (w : PendWrite) : Engine :=
  match w.dest with
  | .v n =>
    { e with
      v := tset e.v n (mergeLanes w.lanes (regV e n) w.value),
      parity := e.parity.filter (fun k => !(k / 4 = n && k < 256 && w.lanes.getLsbD (k % 4))) }
  | .a n => { e with a := tset e.a n (lane w.value 0), parity := e.parity.filter (fun k => k ≠ 256 + n) }
  | .q n =>
    if n = 0 then e
    else { e with q := tset e.q n ((w.value.setWidth 4 &&& w.lanes) ||| (regQ e n &&& ~~~w.lanes)) }

/-- Whether two writes of the list collide: the same register and lane in the same ME cycle (R72). -/
def collides : List PendWrite → Bool
  | [] => false
  | w :: r =>
    r.any (fun x => x.due = w.due && x.dest = w.dest && (x.lanes &&& w.lanes) ≠ 0 && w.dest ≠ .q 0) || collides r

/-- Register writes due by `tm` take effect in their order, so that the later issue and the higher slot win (R71, R72). -/
def settleRegs (n tm : Nat) (s : State) : State :=
  let e := engOf s n
  let dueNow := e.writes.filter (fun w => w.due ≤ tm)
  let s1 := updEng n (fun e => { (dueNow.foldl putReg e) with writes := e.writes.filter (fun w => !(w.due ≤ tm)) }) s
  if collides dueNow then orReg s1 (pgMe n) Off.FAULT_STAT 0x1000 else s1

/-- The cells of a store written; a 64-bit word that they cover gets fresh ECC, another keeps its error (R96). -/
def putCells (cells : List (Nat × Word)) (s : State) : State :=
  cells.foldl (fun s c =>
    let s1 := writeNat s c.1 4 c.2.toNat
    if cells.any (fun d => d.1 = c.1 / 8 * 8) && cells.any (fun d => d.1 = c.1 / 8 * 8 + 4) then freshEcc (c.1 / 8 * 8) 8 s1
    else s1) s

/-- Stores of engine `n` visible at `tm` or before are written (R83). -/
def settleStores (n tm : Nat) (s : State) : State :=
  let ready := (engOf s n).stores.filter (fun w => w.visible ≤ tm)
  ready.foldl (fun s w => putCells w.cells s)
    (updEng n (fun e => { e with stores := e.stores.filter (fun w => !(w.visible ≤ tm)) }) s)

/-- Words of a list of bytes, from address `a`. -/
def cellsOf (a : Nat) : List Byte → List (Nat × Word)
  | b0 :: b1 :: b2 :: b3 :: r => (a, b3 ++ b2 ++ b1 ++ b0) :: cellsOf (a + 4) r
  | _ => []

/-- The source read of transfer `x`: 64 bytes of DMEM as the stores visible by then leave them (R52, R83). -/
def sourceRead (x : Xfer) (d : Nat) (s : State) : Xfer × State :=
  let s1 := settleStores x.engine d s
  let a := dmemPhys x.engine x.loc
  let s2 := countCe (pgMe x.engine) Off.ME_CE_COUNT a 64 s1
  let live := x.live && x.localOk && !x.lost
  let s3 :=
    if live && hasUe s a 64 then engineUe x.engine x.part x.tid x.pc a 64 d s2 else s2
  ({ x with srcDue := none, data := if live then readMem s1 a 64 else x.data }, s3)

/-- Source reads of engine `n` due by `tm`. A cluster write that found no slot entry is over then (R86). -/
def settleSources (n tm : Nat) (s : State) : State :=
  let r := s.xfers.foldl (fun (p : List Xfer × State) x =>
    match x.srcDue with
    | some d =>
      if x.engine = n ∧ d ≤ tm then
        let q := sourceRead x d p.2
        (p.1 ++ [q.1], q.2)
      else (p.1 ++ [x], p.2)
    | none => (p.1 ++ [x], p.2)) ([], s)
  { r.2 with xfers := r.1.filter (fun x => !(x.kind = .clwr && x.srcDue = none && x.bankDue = none)) }

/-! ### Cluster memory (R58, R59, R85-R87) -/

/-- The bank access of transfer `x` in its fabric cycle: a read takes the row, a write replaces it. -/
def bankAccess (x : Xfer) (s : State) : Xfer × State :=
  let c := x.engine / 4
  let a := clmPhys c x.remote
  match x.kind with
  | .clwr =>
    let s1 :=
      if x.live && x.localOk && x.remoteOk && !x.lost then freshEcc a 64 (writeMem s a x.data) else s
    ({ x with bankDue := none }, s1)
  | _ =>
    if x.live && x.remoteOk then
      let s1 := countCe (pgClu c) Off.CLU_CE_COUNT a 64 s
      let s2 :=
        if hasUe s a 64 then violate x.engine x.part x.tid x.pc 9 (x.bankDue.getD 0) (flagUe (pgClu c) a 64 s1) else s1
      ({ x with bankDue := none, data := readMem s a 64 }, s2)
    else ({ x with bankDue := none }, s)

/-- A transfer put in its place by the instant of its bank access. -/
def insertBank (x : Xfer) : List Xfer → List Xfer
  | [] => [x]
  | y :: r => if x.bankDue.getD 0 < y.bankDue.getD 0 then x :: y :: r else y :: insertBank x r

/-- Bank accesses of cluster `c` due by `tm`, in fabric-cycle order; a write is complete then. -/
def settleBanks (c tm : Nat) (s : State) : State :=
  let s0 := (List.range 4).foldl (fun s i => settleSources (4 * c + i) tm s) s
  let ready := fun (x : Xfer) => decide (x.engine / 4 = c) &&
    (match x.bankDue with | some d => decide (d ≤ tm) | none => false)
  let due := (s0.xfers.filter ready).foldl (fun l x => insertBank x l) []
  let s1 := { s0 with xfers := s0.xfers.filter (fun x => !ready x) }
  due.foldl (fun s x =>
    let q := bankAccess x s
    if x.kind = .clwr then q.2 else { q.2 with xfers := q.2.xfers ++ [q.1] }) s1

/-! ### Landings (R52, R83, R84) -/

/-- The landing of a read in DMEM: its store is visible one ME cycle later (R83). A landing that lost a bank conflict is
discarded and flags it (R55). -/
def landDmem (x : Xfer) (s : State) : State :=
  let s1 := if x.lost then violate x.engine x.part x.tid x.pc 2 x.landDue s else s
  if x.live && x.localOk && !x.lost then
    updEng x.engine (fun e => { e with stores := e.stores ++
      [⟨x.landDue + 1, cellsOf (dmemPhys x.engine x.loc) x.data⟩] }) s1
  else s1

/-- The landing of an overlay in its IMEM line (R84). -/
def landImem (x : Xfer) (s : State) : State :=
  if x.live && x.localOk then
    freshEcc (imemPhys x.engine (64 * x.loc)) 64 (writeMem s (imemPhys x.engine (64 * x.loc)) x.data)
  else s

/-- Landings of kind `k` of engine `n` due by `tm`. -/
def settleLandings (k : XferKind) (n tm : Nat) (s : State) : State :=
  let ready := fun (x : Xfer) => x.engine = n && x.kind = k && x.landDue ≤ tm
  let due := s.xfers.filter ready
  let s1 := { s with xfers := s.xfers.filter (fun x => !ready x) }
  due.foldl (fun s x =>
    match k with
    | .ovl => landImem x s
    | .clrd => landDmem x s
    | .hrd => landDmem x s
    | _ => s) s1

/-- Everything of engine `n` that falls due by `tm`, in the order in which reads see it (R71, R83, R84). -/
def settle (n tm : Nat) (s : State) : State :=
  let s1 := settleSources n tm (settleBanks (n / 4) tm s)
  let s2 := settleLandings .ovl n tm s1
  let s3 := settleLandings .clrd n tm (settleLandings .hrd n tm s2)
  settleRegs n tm (settleStores n tm s3)

/-! ### Partitions and regions (R88, R93) -/

/-- The partition entry `p` in force on engine `n`. -/
def partEntry (s : State) (n p : Nat) : PartEntry :=
  tget ⟨0, 0, 0, 0, false, 0, 0, 0, 0, 0, 0, 0, 0, 0, 0⟩ (engOf s n).table p

/-- Whether `len` units from `a` lie in a region. -/
def inRegion (base limit a len : Nat) : Bool := base ≤ a && a + len ≤ limit

/-- Whether `len` bytes of DMEM from `a` lie in one of the partition's regions. -/
def inDmem (p : PartEntry) (a len : Nat) : Bool :=
  inRegion (p.dmem0Base * 1024) (p.dmem0Limit * 1024) a len || inRegion (p.dmem1Base * 1024) (p.dmem1Limit * 1024) a len

/-- The lanes that predicate `qp` lets an operation act on. -/
def predMask (e : Engine) (qp : BitVec 3) : BitVec 4 := regQ e qp.toNat

/-- Whether predicate `qp` lets a scalar operation act (R73). -/
def predOn (e : Engine) (qp : BitVec 3) : Bool := (regQ e qp.toNat).getLsbD 0

/-! ### Issue (R70, R79, R96) -/

/-- The register lanes that an operation reads, as parity numbers: V lanes as 4n + lane, A registers as 256 + n (R96). -/
def readsOf : EngOp → List Nat
  | .mac op _ _ va vb vc =>
    let v := fun (n : BitVec 6) => (List.range 4).map (fun i => 4 * n.toNat + i)
    if op = 7 ∨ op = 8 ∨ op = 9 then v va else if op = 4 ∨ op = 5 ∨ op = 6 ∨ op = 0x11 then v va ++ v vb ++ v vc else v va ++ v vb
  | .aop _ _ aa ab fn => if fn = 0x0E then [256 + aa.toNat] else [256 + aa.toNat, 256 + ab.toNat]
  | .aluImm _ _ _ aa _ => [256 + aa.toNat]
  | .li _ ad sel _ => if sel.toNat < 2 then [] else [256 + ad.toNat]
  | .vr op _ _ fa fb fn =>
    let v := fun (n : BitVec 6) => (List.range 4).map (fun i => 4 * n.toNat + i)
    match op with
    | 0x10 => if fn.toNat = 0x12 ∨ fn.toNat = 0x13 ∨ fn.toNat = 0x14 ∨ 0x17 ≤ fn.toNat then v fa else v fa ++ v fb
    | 0x11 => v fa ++ v fb
    | 0x12 => v fa ++ v fb
    | 0x13 => [256 + aOf fa]
    | 0x14 => [4 * fa.toNat + fn.toNat % 4]
    | 0x15 => v fa
    | 0x1A => [256 + aOf fa]
    | 0x1C => [256 + aOf fa, 256 + aOf fb]
    | _ => []
  | .ls op _ rg ab _ =>
    (256 + ab.toNat) :: (if op = 4 then [256 + aOf rg] else if op = 5 ∨ op = 7 then (List.range 4).map (fun i => 4 * rg.toNat + i) else [])
  | .xfer _ _ al ar _ _ => [256 + al.toNat, 256 + ar.toNat]
  | .bra _ aa => [256 + aa.toNat]
  | .waita _ aa => [256 + aa.toNat]
  | _ => []

/-- A register operand with a parity error is used as stored, and flagged (R96). -/
def parityCheck (n : Nat) (op : EngOp) (l : Latch) (tid : Nat) (s : State) : State :=
  match (readsOf op).find? (fun k => (engOf s n).parity.contains k) with
  | none => s
  | some k =>
    let r := if k < 256 then k / 4 else 64 + (k - 256)
    violate n l.part tid l.pc 8 l.tm (setReg s (pgMe n) Off.ME_ECC_ADDR (word (r + 0x40000000)))

/-- Operation `op` of slot `slot` of the bundle that engine `n` executes issues: it leaves the bundle, its operands are
checked, and `body` is its effect. An operation that the bundle does not hold has no effect (assumption 11). -/
def issueOp (n slot : Nat) (op : EngOp) (body : Engine → Latch → PartEntry → State → State) (s : State) : State :=
  match (engOf s n).latch with
  | none => s
  | some l =>
    if l.ops.contains (slot, op) then
      let p := partEntry s n l.part
      let s1 := updEng n (fun e => { e with latch := some { l with ops := l.ops.filter (fun o => o.1 ≠ slot) } }) s
      body (engOf s1 n) l p (parityCheck n op l p.tid s1)
    else s

/-- An operation in flight until instant `last` (R79). -/
def addFlight (n last : Nat) (s : State) : State := updEng n (fun e => { e with inflight := e.inflight ++ [last] }) s

/-- A register write due at `due` (R71). -/
def addWrite (n due : Nat) (dest : RegDest) (lanes : BitVec 4) (value : BitVec 128) (l : Latch) (slot : Nat) (s : State) : State :=
  if lanes = 0 then s
  else updEng n (fun e => { e with writes := insertWrite ⟨due, dest, lanes, value, l.tm, slot⟩ e.writes }) s

/-- A scalar write, made only where predicate bit 0 allows it (R73). -/
def addScalar (n due : Nat) (dest : RegDest) (value : BitVec 128) (on : Bool) (l : Latch) (slot : Nat) (s : State) : State :=
  if on then addWrite n due dest 0xF value l slot s else s

end Sys2Proof.Machine
end

