-- ==== Sys2Proof/Machine/EngineCtl.lean ====
section
/-!
DEFINITION. The operations of the CTL slot (spec/04_engine_instruction_set.md R127-R129; spec/03_marionette_engines.md
R75-R77, R91) and the illegal operation (R135).
-/
namespace Sys2Proof.Machine

/-- A taken branch redirects the first bundle executed at or after m + 3 (R75). -/
def redirect (n target : Nat) (l : Latch) (s : State) : State :=
  updEng n (fun e => { e with redirects := e.redirects ++ [(l.tm + 3, target)] }) s

/-- BR: branch to bundle TGT (R127). -/
def issueBr (n : Nat) (qp : BitVec 3) (tgt : BitVec 13) (s : State) : State :=
  issueOp n 5 (.br qp tgt) (fun e l _ s => if predOn e qp then redirect n tgt.toNat l s else s) s

/-- BRA: branch to bundle A[AA][12:0] (R127). -/
def issueBra (n : Nat) (qp : BitVec 3) (aa : BitVec 5) (s : State) : State :=
  issueOp n 5 (.bra qp aa) (fun e l _ s =>
    if predOn e qp then redirect n ((regA e aa.toNat).toNat % 2 ^ 13) l s else s) s

/-- No further bundle issues until ME cycle `c` of the tick (R76); a target at most the issue cycle has no effect (R129). -/
def waitFor (n c : Nat) (l : Latch) (s : State) : State :=
  if cycleOf s l.tm < c then updEng n (fun e => { e with waitUntil := s.tick.edgeAt.getD 0 + c }) s else s

/-- WAIT: wait for ME cycle N (R76, R127). -/
def issueWait (n : Nat) (qp : BitVec 3) (c : BitVec 20) (s : State) : State :=
  issueOp n 5 (.wait qp c) (fun e l _ s => if predOn e qp then waitFor n c.toNat l s else s) s

/-- WAITA: wait for ME cycle A[AA][19:0] (R127). -/
def issueWaita (n : Nat) (qp : BitVec 3) (aa : BitVec 5) (s : State) : State :=
  issueOp n 5 (.waita qp aa) (fun e l _ s =>
    if predOn e qp then waitFor n ((regA e aa.toNat).toNat % 2 ^ 20) l s else s) s

/-- LOOP: opens a loop of CM1 + 1 passes over bundles a + 1 to a + 1 + LEN; a third level, or an inner loop that ends
beyond its outer loop, opens none and sets LOOP_NEST (R77, R127). -/
def issueLoop (n : Nat) (qp : BitVec 3) (cm1 : BitVec 12) (len : BitVec 11) (s : State) : State :=
  issueOp n 5 (.loop qp cm1 len) (fun e l p s =>
    if predOn e qp then
      let stop := l.pc + 1 + len.toNat
      let bad := match e.loops with
        | [] => false
        | o :: r => r ≠ [] || o.stop < stop
      if bad then violate n l.part p.tid l.pc 7 l.tm s
      else updEng n (fun e => { e with loops := ⟨l.pc + 1, stop, cm1.toNat + 1⟩ :: e.loops }) s
    else s) s

/-- The last valid window of an engine's table ends with partition `p`: no valid window starts later (R91). -/
def lastWindow (e : Engine) (p : Nat) : Bool :=
  match e.table.find? (fun x => x.1 = p) with
  | some (_, q) => !(e.table.any (fun x => x.2.valid && q.stop < x.2.start))
  | none => true

/-- PEND: ends the partition for the tick; in the last valid window it ends the string (R91). -/
def issuePend (n : Nat) (qp : BitVec 3) (s : State) : State :=
  issueOp n 5 (.pend qp) (fun e l _ s =>
    if predOn e qp then
      updEng n (fun e => { e with
        pendAt := some (e.pendAt.getD l.tm)
        running := if lastWindow e l.part then false else e.running }) s
    else s) s

/-- An illegal operation executes as a NOP and is a violation, whatever its predicate (R135). -/
def issueIllegal (n slot : Nat) (w : Word) (s : State) : State :=
  issueOp n slot (.illegal slot w) (fun _ l p s => violate n l.part p.tid l.pc 10 l.tm s) s

/-- BR (R127). -/
def execBr (engine : Nat) (qp : BitVec 3) (tgt : BitVec 13) (s : State) : Host.Outcome State Fault Refusal :=
  .next (issueBr engine qp tgt s)

/-- BRA (R127). -/
def execBra (engine : Nat) (qp : BitVec 3) (aa : BitVec 5) (s : State) : Host.Outcome State Fault Refusal :=
  .next (issueBra engine qp aa s)

/-- WAIT (R76). -/
def execWaitUntil (engine : Nat) (qp : BitVec 3) (n : BitVec 20) (s : State) : Host.Outcome State Fault Refusal :=
  .next (issueWait engine qp n s)

/-- WAITA (R127). -/
def execWaita (engine : Nat) (qp : BitVec 3) (aa : BitVec 5) (s : State) : Host.Outcome State Fault Refusal :=
  .next (issueWaita engine qp aa s)

/-- LOOP (R77). -/
def execLoopOpen (engine : Nat) (qp : BitVec 3) (cm1 : BitVec 12) (len : BitVec 11) (s : State) :
    Host.Outcome State Fault Refusal :=
  .next (issueLoop engine qp cm1 len s)

/-- PEND (R91). -/
def execPend (engine : Nat) (qp : BitVec 3) (s : State) : Host.Outcome State Fault Refusal :=
  .next (issuePend engine qp s)

/-- ILLEGAL_OPERATION (R135). -/
def execIllegalOperation (engine slot : Nat) (w : Word) (s : State) : Host.Outcome State Fault Refusal :=
  .next (issueIllegal engine slot w s)

end Sys2Proof.Machine
end

