-- ==== Sys2Proof/Machine/HopperFrame.lean ====
section
/-!
DEFINITION. Reading the sealed frame (spec/06_hopper_ingest.md R164-R166, R176, R181).
-/
namespace Sys2Proof.Machine

/-- An entry of the channel area that nothing uses: value 0, quality 0x8000_0001 (R164, R166). -/
def unusedEntry : Word × Word := (0, 0x80000001)

/-- The status words of a slot that no enabled subscription uses and that has no recent sample (R165). -/
def nosubStatus : Word × Word := (0x000080F3, 0xFFFFFFFF)

/-- The frame buffer of the latest seal. -/
def latestFrame (h : Hopper) : HopFrame := if h.bufOdd then h.odd else h.even

/-- The 64 bytes of eight pairs of words. -/
def blockBytes (f : Nat → Word × Word) : List Byte :=
  (List.range 8).flatMap (fun i => leBytes 4 (f i).1.toNat ++ leBytes 4 (f i).2.toNat)

/-- The invalid block of R61 and R93 (R176). -/
def invalidBlock : List Byte := blockBytes (fun _ => unusedEntry)

/-- The frame header, block 0 (R165). -/
def headerBlock (f : HopFrame) : List Byte :=
  leBytes 4 (f.tick.getD 0) ++ leBytes 4 f.sealTick ++ leBytes 2 f.received ++ leBytes 2 f.substituted
    ++ leBytes 2 f.invalid ++ leBytes 1 f.lag ++ leBytes 1 f.rate ++ leBytes 4 f.late ++ List.replicate 44 0

/-- The substitution map, block 1: bit s mod 8 of byte ⌊s/8⌋ (R164). -/
def mapBlock (f : HopFrame) : List Byte :=
  (List.range 64).map (fun b => BitVec.ofNat 8
    ((List.range 8).foldl (fun a i => a + (if f.map.contains (8 * b + i) then 2 ^ i else 0)) 0))

/-- Entry `i` of block `b` of the channel area: value and quality. -/
def chanEntry (f : HopFrame) (b i : Nat) : Word × Word := tget unusedEntry f.chan (8 * b + i)

/-- The 64 bytes of block `b` of a sealed frame (R164); the buffers read as invalid blocks in the channel area, and as
zero before it, while they hold no frame (R179, spec/17 R426). -/
def frameBlock (f : HopFrame) (b : Nat) : List Byte :=
  if 128 ≤ b then blockBytes (chanEntry f b)
  else if f.tick = none then List.replicate 64 0
  else if b = 0 then headerBlock f
  else if b = 1 then mapBlock f
  else if b < 64 then List.replicate 64 0
  else blockBytes (fun i => tget nosubStatus f.status (8 * (b - 64) + i))

/-- Block `b` of the frame of the latest seal, as an HRD reads it. -/
def hopBlock (s : State) (b : Nat) : List Byte := frameBlock (latestFrame s.hop) b

end Sys2Proof.Machine
end

