-- ==== Sys2Proof/Machine/EngineXfer.lean ====
section
/-!
DEFINITION. The operations of the XFER slot (spec/04_engine_instruction_set.md R124-R126; spec/02_tick_contract.md R52,
R55, R58-R62; spec/03_marionette_engines.md R79, R84-R87, R93).
-/
namespace Sys2Proof.Machine

/-! ### Slot tables (R57-R60, R86, R87) -/

/-- Entry `e` of bank `k` of cluster `c` as it acts: 0x8 while the cluster is disabled (R87, R102). -/
def slotEntry (s : State) (c k e : Nat) : Nat :=
  if regBit s (pgClu c) Off.CTRL 0 then
    (if e % 16 < 8 then regFld s (pgClu c) (Off.SLOT_ACT_LO + 8 * k) (4 * (e % 16)) 4
     else regFld s (pgClu c) (Off.SLOT_ACT_HI + 8 * k) (4 * (e % 16 - 8)) 4)
  else 8

/-- The smallest shift below `fuel`, from `d`, at which bank `k` has a free entry of engine `n` (R59, R86). -/
def findSlot (s : State) (n k f : Nat) : Nat → Nat → Option Nat
  | 0, _ => none
  | fuel + 1, d =>
    let abs := s.tick.edgeAt.getD 0 / 2 + f + d
    if slotEntry s (n / 4) k (f + d) = n % 4 && !((tget Cluster.init s.clu (n / 4)).taken.contains (abs, k)) then some d
    else findSlot s n k f fuel (d + 1)

/-- The slot entry that a cluster-memory operation of engine `n` issued at `m` takes on bank `k`: the shift, none where
the bank has no entry for the engine (R58, R59, R86). A shift above 16 needs several delayed operations that queue for
the same entry (assumption 12). -/
def takeSlot (s : State) (n k m : Nat) : Option Nat :=
  findSlot s n k (cycleOf s m / 2 + 4) (16 * ((tget Cluster.init s.clu (n / 4)).taken.length + 2)) 0

/-- A slot miss recorded in the CLU page, with the outcome of R66. -/
def slotMiss (n k shift m : Nat) (noEntry : Bool) (part tid : Nat) (s : State) : State :=
  let pg := pgClu (n / 4)
  let old := reg s pg Off.CFAULT_STAT
  let bits : Word := if noEntry then 3 else 1
  let info := n % 4 + k * 4 + (if noEntry then 0 else min (shift - 1) 15) * 16 + cycleOf s m % 2 ^ 19 * 256 + b2n noEntry * 2 ^ 27
  let s1 := countReg (setReg (orReg s pg Off.CFAULT_STAT bits) pg Off.MISS_INFO (word info)) pg Off.MISS_COUNT 1
  let s2 := if bits &&& ~~~old ≠ 0 then setIrq pg 1 s1 else s1
  breach n part tid s2

/-! ### Issue -/

/-- The kind that an XFER opcode names (R124). -/
def xferKind (op : Nat) : XferKind :=
  match op with
  | 1 => .clrd
  | 2 => .clwr
  | 3 => .ovl
  | 4 => .hrd
  | _ => .dep

/-- A DMEM bank occupied by an XFER access at instant `t`: whether an XFER operation issued earlier has it (R55). -/
def claimBank (n t bank : Nat) (s : State) : Bool × State :=
  ((engOf s n).uses.contains ⟨t, bank⟩, updEng n (fun e => { e with uses := insertUse ⟨t, bank⟩ e.uses }) s)
where
  /-- a bank use listed once -/
  insertUse (u : BankUse) (l : List BankUse) : List BankUse := if l.contains u then l else l ++ [u]

/-- The slot entry of a cluster-memory operation, with its miss flagged: the shift in fabric cycles, and whether the
operation is performed. -/
def clusterSlot (n k m part tid : Nat) (s : State) : (Nat × Bool) × State :=
  match takeSlot s n k m with
  | none => ((0, false), slotMiss n k 0 m true part tid s)
  | some d =>
    let abs := s.tick.edgeAt.getD 0 / 2 + cycleOf s m / 2 + 4 + d
    let c := tget Cluster.init s.clu (n / 4)
    let s1 := { s with clu := tset s.clu (n / 4) { c with taken := c.taken.filter (fun t => s.now / 2 ≤ t.1 + 1) ++ [(abs, k)] } }
    ((d, true), if d = 0 then s1 else slotMiss n k d m false part tid s1)

/-- The rules of the Hopper read port (R61): the violations flagged, and whether the read is refused. -/
def hopRules (n : Nat) (e : Engine) (l : Latch) (tid : Nat) (s : State) : Bool × State :=
  let early := cycleOf s l.tm < 3000
  let fast := match e.hopPrev with | some h => decide (l.tm < h + 8) | none => false
  let s1 := if early then violate n l.part tid l.pc 4 l.tm s else s
  let s2 := if fast then violate n l.part tid l.pc 5 l.tm s1 else s1
  (early || fast, updEng n (fun e => { e with hopPrev := some l.tm }) s2)

/-- An XFER operation of opcode `op`. Its descriptor is fixed at issue (R125); it occupies its resources even where its
predicate suppresses it (R74, R126). -/
def issueXfer (op n : Nat) (qp : BitVec 3) (al ar : BitVec 5) (imm7 : BitVec 7) (imm6 : BitVec 6) (s : State) : State :=
  issueOp n 4 (.xfer op qp al ar imm7 imm6) (fun e l p s =>
    let kind := xferKind op
    let m := l.tm
    let live := predOn e qp
    let loc := if kind = .ovl then xferLine (regA e al.toNat) imm7 else xferDmem (regA e al.toNat) imm7
    let remote :=
      if kind = .hrd ∨ kind = .dep then xferBlock (regA e ar.toNat) imm6 else xferClm (regA e ar.toNat) imm6
    let localOk :=
      if kind = .ovl then inRegion (24 * p.imemBase) (24 * p.imemLimit) (64 * loc) 64 else inDmem p loc 64
    let regionOk :=
      match kind with
      | .hrd => inRegion p.hopBase p.hopLimit remote 1
      | .dep => true
      | _ => inRegion (p.clmBase * 4096) (p.clmLimit * 4096) remote 64
    let s1 := if live && !(localOk && regionOk) then violate n l.part p.tid l.pc 6 m s else s
    let isClu := kind = .clrd || kind = .clwr || kind = .ovl
    let sl := if isClu then clusterSlot n (remote / 0x80000 % 4) m l.part p.tid s1 else ((0, true), s1)
    let d := sl.1.1
    let hop := if kind = .hrd then hopRules n e l p.tid sl.2 else (false, sl.2)
    let useAt :=
      match kind with
      | .clrd => some (m + 47 + 2 * d)
      | .clwr => some (m + 1)
      | .dep => some (m + 1)
      | .hrd => some (m + 95)
      | .ovl => none
    let cl := match useAt with
      | some t => claimBank n t (dmemBank loc) hop.2
      | none => (false, hop.2)
    let s2 := if cl.1 && (kind = .clwr || kind = .dep) then violate n l.part p.tid l.pc 2 (m + 1) cl.2 else cl.2
    let bankAt := s.tick.edgeAt.getD 0 + 2 * (cycleOf s m / 2 + 4 + d)
    let landAt :=
      match kind with
      | .clrd => m + 47 + 2 * d
      | .clwr => bankAt + 1
      | .ovl => m + 50 + 2 * d
      | .hrd => m + 95
      | .dep => m + 32
    let lastIn :=
      match kind with
      | .ovl => m + 49 + 2 * d
      | .dep => m + 31
      | _ => landAt
    let x : Xfer :=
      { kind := kind, engine := n, issued := m, tid := p.tid, part := l.part, pc := l.pc, live := live,
        localOk := localOk, remoteOk := regionOk && sl.1.2, loc := loc, remote := remote, lost := cl.1,
        srcDue := if kind = .clwr || kind = .dep then some (m + 1) else none,
        bankDue := if isClu && sl.1.2 then some bankAt else none,
        landDue := landAt,
        data := if kind = .hrd then (if regionOk && !hop.1 then hopBlock s remote else invalidBlock)
                else List.replicate 64 0 }
    let s3 := addFlight n lastIn { s2 with xfers := s2.xfers ++ [x] }
    if kind = .ovl && live && localOk then
      updEng n (fun e => { e with overlays := e.overlays ++ [(loc, lastIn)] }) s3
    else s3) s

/-- CLRD: cluster memory to DMEM (R124). -/
def execClrd (engine : Nat) (qp : BitVec 3) (al ar : BitVec 5) (imm7 : BitVec 7) (imm6 : BitVec 6) (s : State) :
    Host.Outcome State Fault Refusal :=
  .next (issueXfer 1 engine qp al ar imm7 imm6 s)

/-- CLWR: DMEM to cluster memory (R124). -/
def execClwr (engine : Nat) (qp : BitVec 3) (al ar : BitVec 5) (imm7 : BitVec 7) (imm6 : BitVec 6) (s : State) :
    Host.Outcome State Fault Refusal :=
  .next (issueXfer 2 engine qp al ar imm7 imm6 s)

/-- OVL: cluster memory to an IMEM line, which becomes pending (R84) (R124). -/
def execOvl (engine : Nat) (qp : BitVec 3) (al ar : BitVec 5) (imm7 : BitVec 7) (imm6 : BitVec 6) (s : State) :
    Host.Outcome State Fault Refusal :=
  .next (issueXfer 3 engine qp al ar imm7 imm6 s)

/-- HRD: a block of the sealed frame to DMEM (R61) (R124). -/
def execHrd (engine : Nat) (qp : BitVec 3) (al ar : BitVec 5) (imm7 : BitVec 7) (imm6 : BitVec 6) (s : State) :
    Host.Outcome State Fault Refusal :=
  .next (issueXfer 4 engine qp al ar imm7 imm6 s)

/-- DEP: DMEM to the engine's Carafe port (R62) (R124). -/
def execDep (engine : Nat) (qp : BitVec 3) (al ar : BitVec 5) (imm7 : BitVec 7) (imm6 : BitVec 6) (s : State) :
    Host.Outcome State Fault Refusal :=
  .next (issueXfer 5 engine qp al ar imm7 imm6 s)

end Sys2Proof.Machine
end

