-- ==== Sys2Proof/Machine/EngineEvents.lean ====
section
/-!
DEFINITION. What an engine does by itself: tables that take effect, windows, fetch, results that fall due, fabric accesses
and the scrub (spec/02_tick_contract.md, spec/03_marionette_engines.md).
-/
namespace Sys2Proof.Machine

/-! ### Partition tables (R88, R94, R95) -/

/-- The written partition entry `p` of engine `n` (R101). -/
def writtenEntry (s : State) (n p : Nat) : PartEntry :=
  let r := fun o => reg s (pgMe n) (o + 0x20 * p)
  { start := fld (r Off.PT_START) 0 20, stop := fld (r Off.PT_END) 0 20, entry := fld (r Off.PT_CTRL) 0 13,
    tid := fld (r Off.PT_CTRL) 16 4, valid := bit (r Off.PT_CTRL) 31,
    imemBase := fld (r Off.PT_IMEM) 0 14, imemLimit := fld (r Off.PT_IMEM) 16 14,
    dmem0Base := fld (r Off.PT_DMEM0) 0 9, dmem0Limit := fld (r Off.PT_DMEM0) 16 9,
    dmem1Base := fld (r Off.PT_DMEM1) 0 9, dmem1Limit := fld (r Off.PT_DMEM1) 16 9,
    clmBase := fld (r Off.PT_CLM) 0 10, clmLimit := fld (r Off.PT_CLM) 16 10,
    hopBase := fld (r Off.PT_HOP) 0 12, hopLimit := fld (r Off.PT_HOP) 16 13 }

/-- Whether a valid entry meets the conditions of R94 on its own. -/
def entryOk (s : State) (e : PartEntry) : Bool :=
  64 ≤ e.start && e.start ≤ e.stop && e.stop ≤ windowEnd s
  && e.imemBase ≤ e.entry && e.entry < e.imemLimit
  && e.imemBase ≤ e.imemLimit && e.dmem0Base ≤ e.dmem0Limit && e.dmem1Base ≤ e.dmem1Limit && e.clmBase ≤ e.clmLimit
  && e.hopBase ≤ e.hopLimit
  && e.imemLimit ≤ 8192 && e.dmem0Limit ≤ 384 && e.dmem1Limit ≤ 384 && e.clmLimit ≤ 512 && e.hopLimit ≤ 4096
  && e.tid < numTids s.variant

/-- The first entry that fails, the entries taken in ascending index and each compared with the lower ones (R94). -/
def firstBad (s : State) : Tab PartEntry → List PartEntry → Option Nat
  | [], _ => none
  | (p, e) :: r, seen =>
    if !entryOk s e || seen.any (fun f => f.start ≤ e.stop && e.start ≤ f.stop) then some p
    else firstBad s r (seen ++ [e])

/-- Whether engine `n` starts its string at a tick edge (R95). -/
def startsString (s : State) (n : Nat) : Bool :=
  let e := engOf s n
  regBit s (pgMe n) Off.CTRL 0 && !regBit s (pgMe n) Off.CTRL 2 && e.table.any (fun x => x.2.valid) && realTimeMode s

/-- The lanes of the tenants of an engine's partitions publish invalid at this tick's flip, as those of a tenant that does not run (R95). -/
def idleLanes (n : Nat) (s : State) : State := (engOf s n).table.foldl (fun s x => if x.2.valid then markBad x.2.tid s else s) s

/-- Engine `n` decides at the tick edge whether its string starts; TICKS counts the strings started (R95, R101). A table that waits for
this edge brings the decision anew. -/
def startDecision (n : Nat) (s : State) : State :=
  let was := (engOf s n).running
  let go := startsString s n
  let s1 := updEng n (fun e => { e with running := go }) s
  if go then (if was then s1 else countReg s1 (pgMe n) Off.TICKS 1)
  else
    let s2 := if (engOf s n).tablePend then s1 else idleLanes n s1
    if was then setReg s2 (pgMe n) Off.TICKS (reg s2 (pgMe n) Off.TICKS - 1) else s2

/-- A table of entries applied to engine `n`, or refused with PTAB_BAD (R94). -/
def applyTable (n : Nat) (t : Tab PartEntry) (s : State) : State :=
  match firstBad s t [] with
  | some p => setRegFld (hwErr (pgMe n) 8 s) (pgMe n) Off.FAULT_INFO 20 4 p
  | none => setIrq (pgMe n) 4 (updEng n (fun e => { e with table := t }) s)

/-- The valid written entries of engine `n`, in ascending index. -/
def writtenTable (s : State) (n : Nat) : Tab PartEntry :=
  ((List.range 16).map (fun p => (p, writtenEntry s n p))).filter (fun x => x.2.valid)

/-- Engine `n` runs no string (R94): none has started in this tick, its last window has ended, or the delay bundles behind the PEND of the
last window have (R91). -/
def stringIdle (s : State) (n : Nat) : Bool :=
  !(engOf s n).running && ((engOf s n).part = none || (match (engOf s n).pendAt with | some q => decide (q + 2 < s.now) | none => false))

/-- Whether `tm` is the instant of the latest tick edge, and the device is still at it. -/
def atEdge (s : State) (tm : Nat) : Bool := s.tick.edgeAt = some tm && s.now = tm

/-- PARTITION_TABLE_APPLY (R94): a written table is checked and applied at a tick edge, or at once on an idle engine. -/
def partitionTableApply (n tm : Nat) (s : State) : State :=
  let s0 := advance s tm
  if (engOf s0 n).tablePend && n < numEngines s.variant && (atEdge s0 tm || stringIdle s0 n) then
    let s1 := applyTable n (writtenTable s0 n) (updEng n (fun e => { e with tablePend := false }) s0)
    if atEdge s0 tm then startDecision n s1 else s1
  else s0

/-! ### Idle engines and clusters (R60, R87) -/

/-- No operation of engine `n` is in flight at `tm` (R79). -/
def nothingInFlight (s : State) (n tm : Nat) : Bool :=
  (engOf s n).inflight.all (fun i => i < tm) && s.xfers.all (fun x => x.engine ≠ n || x.kind = .dep)

/-- Engine `n` is idle with nothing in flight. -/
def engineQuiet (s : State) (n tm : Nat) : Bool := stringIdle s n && nothingInFlight s n tm

/-- ALL_IDLE of cluster `c` (R102), whose engines are 4c to 4c + 3 (spec/00_scope.md R9). -/
def clusterQuiet (s : State) (c tm : Nat) : Bool := (List.range 4).all (fun i => engineQuiet s (4 * c + i) tm)

/-- SLOT_TABLE_APPLY (R60): the written slot tables come in force at a tick edge, or at once while the cluster is quiet. -/
def slotTableApply (c tm : Nat) (s : State) : State :=
  let s0 := advance s tm
  let cl := tget Cluster.init s0.clu c
  if cl.tabPend && (atEdge s0 tm || clusterQuiet s0 c tm) then
    let s1 := { s0 with clu := tset s0.clu c { cl with tabPend := false } }
    (List.range 4).foldl (fun s k =>
      setReg (setReg s (pgClu c) (Off.SLOT_ACT_LO + 8 * k) (reg s (pgClu c) (Off.SLOT_LO + 8 * k)))
        (pgClu c) (Off.SLOT_ACT_HI + 8 * k) (reg s (pgClu c) (Off.SLOT_HI + 8 * k))) s1
  else s0

/-! ### Fetch (R75-R80, R84, R93, R96) -/

/-- The six words of the bundle at address `pc` of engine `n`. -/
def bundleWord (s : State) (n pc slot : Nat) : Word := word (readNat s (imemPhys n (24 * pc + 4 * slot)) 4)

/-- The address after bundle `pc` from the loop state: the address and the loops left open (R78). -/
def loopNext (pc : Nat) : List LoopLevel → Nat × List LoopLevel
  | [] => (pc + 1, [])
  | o :: r => if pc = o.stop then (if 1 < o.count then (o.start, { o with count := o.count - 1 } :: r) else (pc + 1, r)) else (pc + 1, o :: r)

/-- The loops that still hold address `n`: leaving a body closes it (R78). -/
def closeLeft (n : Nat) : List LoopLevel → List LoopLevel
  | [] => []
  | o :: r => if n < o.start ∨ o.stop < n then closeLeft n r else o :: r

/-- next_pc of R78 at instant `tm`: the address, the loops and the redirects left. One redirect that has fallen due
applies, the earliest (R75, R76). -/
def nextPc (e : Engine) (pc tm : Nat) : Nat × List LoopLevel × List (Nat × Nat) :=
  let a := loopNext pc e.loops
  match e.redirects with
  | (d, t) :: rest => if d ≤ tm then (t, closeLeft t a.2, rest) else (a.1, a.2, e.redirects)
  | [] => (a.1, a.2, [])

/-- Counted operations dropped in the order XFER, LSU, MAC1, MAC0 until the count is 64 or less (R80). -/
def dropExcess (room : Nat) (ops : Tab EngOp) : List Nat → Tab EngOp
  | [] => ops
  | k :: r =>
    if (ops.filter (fun o => counted o.2)).length ≤ room then ops
    else dropExcess room (ops.filter (fun o => !(o.1 = k && counted o.2))) r

/-- The bundle at `pc` executes at `tm` in partition `p`: its fetch is checked, and its operations stand ready to issue. -/
def executeBundle (n p pc tm : Nat) (s : State) : State :=
  let e := partEntry s n p
  let s0 := updEng n (fun g => { g with lastPc := some pc, lastIssue := some (cycleOf s tm, p), latch := some ⟨tm, pc, p, []⟩ }) s
  if !(e.imemBase ≤ pc && pc < e.imemLimit) then
    updEng n (fun g => { g with muted := true, latch := none }) (violate n p e.tid pc 6 tm s0)
  else
    let g := engOf s0 n
    let a := imemPhys n (24 * pc)
    let lines := [24 * pc / 64, (24 * pc + 23) / 64]
    if g.overlays.any (fun o => tm ≤ o.2 && lines.contains o.1) then violate n p e.tid pc 3 tm s0
    else if hasUe s0 a 24 then engineUe n p e.tid pc a 24 tm s0
    else
      let s1 := countCe (pgMe n) Off.ME_CE_COUNT a 24 s0
      let ops : Tab EngOp := (List.range 6).map (fun i => (i, decodeSlot i (bundleWord s1 n pc i) pc))
      let flying := (g.inflight.filter (fun i => tm ≤ i)).length
      let kept := dropExcess (64 - flying) ops [4, 3, 1, 0]
      let count := flying + (kept.filter (fun o => counted o.2)).length
      let s2 := if kept.length < ops.length then violate n p e.tid pc 1 tm s1 else s1
      updEng n (fun g => { g with
        latch := some ⟨tm, pc, p, kept⟩
        inflight := g.inflight.filter (fun i => tm ≤ i)
        uses := g.uses.filter (fun u => tm ≤ u.tm)
        overlays := g.overlays.filter (fun o => tm ≤ o.2)
        peak := max g.peak count }) s2

/-- Whether engine `n` may execute a further bundle of its open partition at `tm` (R76, R90-R93). -/
def mayIssue (s : State) (n tm : Nat) : Bool :=
  let e := engOf s n
  match e.part, e.lastPc with
  | some p, some _ =>
    !e.muted && e.waitUntil ≤ tm && cycleOf s tm ≤ (partEntry s n p).stop && cycleOf s tm ≤ windowEnd s
    && (match e.latch with | some l => decide (l.tm < tm) | none => true)
    && (match e.pendAt with | some q => decide (tm ≤ q + 2) | none => true)
  | _, _ => false

/-- The next bundle by next_pc executes at `tm` (R78), after everything that falls due by then. -/
def fetchNext (n tm : Nat) (s : State) : State :=
  let s0 := settle n tm (advance s tm)
  if mayIssue s0 n tm then
    let e := engOf s0 n
    let r := nextPc e (e.lastPc.getD 0) tm
    executeBundle n (e.part.getD 0) r.1 tm (updEng n (fun g => { g with loops := r.2.1, redirects := r.2.2 }) s0)
  else s0

/-- BUNDLE_FETCH (R78). -/
def execBundleFetch (engine tm : Nat) (s : State) : Host.Outcome State Fault Refusal := .next (fetchNext engine tm s)

/-- WAIT_END (R76): the target of a wait arrives and issue resumes. -/
def waitEnd (n tm : Nat) (s : State) : State :=
  if (engOf s n).waitUntil = tm then fetchNext n tm s else advance s tm

/-- WAIT_END. -/
def execWaitEnd (engine tm : Nat) (s : State) : Host.Outcome State Fault Refusal := .next (waitEnd engine tm s)

/-- BRANCH_REDIRECT (R75): a redirect that has fallen due names the bundle executed at `tm`. -/
def branchRedirect (n tm : Nat) (s : State) : State :=
  if (engOf s n).redirects.any (fun r => r.1 ≤ tm) then fetchNext n tm s else advance s tm

/-- BRANCH_REDIRECT. -/
def execBranchRedirect (engine tm : Nat) (s : State) : Host.Outcome State Fault Refusal :=
  .next (branchRedirect engine tm s)

/-- REGISTER_WRITEBACK (R71): results due by `tm` are written into their registers. -/
def execRegisterWriteback (engine tm : Nat) (s : State) : Host.Outcome State Fault Refusal :=
  .next (settleRegs engine tm (advance s tm))

/-! ### Windows (R88-R92) -/

/-- The partition whose window starts in ME cycle `c`. -/
def windowAt (e : Engine) (c : Nat) : Option Nat := (e.table.find? (fun x => x.2.valid && x.2.start = c)).map (·.1)

/-- PARTITION_WINDOW_OPEN (R89): in the first ME cycle of a valid window the registers and loops clear, redirects are
cancelled, pending register writes are discarded, and the entry bundle executes, unless the tenant does not run (R92). -/
def windowOpen (n tm : Nat) (s : State) : State :=
  let s0 := settle n (tm - 1) (advance s tm)
  let e := engOf s0 n
  match windowAt e (cycleOf s0 tm) with
  | some p =>
    if e.running && e.part = none then
      let q := partEntry s0 n p
      let runs := s0.tick.runners.contains q.tid
      let s1 := settle n tm (updEng n (fun e => { e with
        v := [], a := [], q := [], writes := [], loops := [], redirects := [], parity := []
        part := some p, muted := !runs, pendAt := none, lastPc := none, waitUntil := 0, latch := none }) s0)
      if runs then executeBundle n p q.entry tm s1 else s1
    else s0
  | none => s0

/-- PARTITION_WINDOW_OPEN. -/
def execPartitionWindowOpen (engine tm : Nat) (s : State) : Host.Outcome State Fault Refusal :=
  .next (windowOpen engine tm s)

/-- WINDOW_FENCE (R90): the open window ends with its last ME cycle. A partition that has not ended with PEND would issue a
further bundle: OVERRUN. The string ends with the last valid window (R91). -/
def windowFence (n tm : Nat) (s : State) : State :=
  let s0 := advance s tm
  let e := engOf s0 n
  match e.part with
  | none => s0
  | some p =>
    let q := partEntry s0 n p
    let c := cycleOf s0 tm
    if c < min q.stop (windowEnd s0) then s0
    else
      let s1 := if e.pendAt = none && !e.muted then violate n p q.tid (e.lastPc.getD 0) 0 tm s0 else s0
      updEng n (fun e => { e with part := none, lastPc := none, running := if lastWindow e p then false else e.running }) s1

/-- WINDOW_FENCE. -/
def execWindowFence (engine tm : Nat) (s : State) : Host.Outcome State Fault Refusal := .next (windowFence engine tm s)

/-- PARTITION_TABLE_APPLY. -/
def execPartitionTableApply (engine tm : Nat) (s : State) : Host.Outcome State Fault Refusal :=
  .next (partitionTableApply engine tm s)

/-- SLOT_TABLE_APPLY. -/
def execSlotTableApply (cluster tm : Nat) (s : State) : Host.Outcome State Fault Refusal :=
  .next (slotTableApply cluster tm s)

/-! ### Transfers that complete -/

/-- CLUSTER_BANK_ACCESS (R58): the bank accesses of a cluster due by `tm`. -/
def execClusterBankAccess (cluster tm : Nat) (s : State) : Host.Outcome State Fault Refusal :=
  .next (settleBanks cluster tm (advance s tm))

/-- CLRD_LANDING (R52): cluster-memory reads of an engine land. -/
def execClrdLanding (engine tm : Nat) (s : State) : Host.Outcome State Fault Refusal :=
  .next (settleLandings .clrd engine tm (settleBanks (engine / 4) tm (advance s tm)))

/-- HRD_LANDING (R52): Hopper reads of an engine land. -/
def execHrdLanding (engine tm : Nat) (s : State) : Host.Outcome State Fault Refusal :=
  .next (settleLandings .hrd engine tm (advance s tm))

/-- OVERLAY_LANDING (R84): overlays of an engine write their IMEM lines, which stop being pending. -/
def execOverlayLanding (engine tm : Nat) (s : State) : Host.Outcome State Fault Refusal :=
  .next (settleLandings .ovl engine tm (settleBanks (engine / 4) tm (advance s tm)))

/-! ### Fabric accesses (R14, R56, R60, R81, R87, R96) -/

/-- Where a fabric access lies in engine or cluster memory, with the first and the last bank that it touches. -/
inductive FabricPlace where
  | imem (n : Nat) | dmem (n lo hi : Nat) | clm (c lo hi : Nat)
  deriving DecidableEq, Repr

/-- Whether cluster `c` is powered and ready (spec/17_modes_clocks_power.md R435). -/
def clusterPowered (s : State) (c : Nat) : Bool :=
  c < numClusters s.variant && !regBit s pgClk Off.CLU_PD c && regBit s pgClk Off.PD_STAT c

/-- The place of `len` bytes at physical address `a`, none where part of them is unmapped, reserved, of an absent unit or of
a powered-down cluster (R13, R14). -/
def fabricPlace (s : State) (a len : Nat) : Option FabricPlace :=
  if len = 0 then none
  else if 0x20000000 ≤ a ∧ a < 0x21000000 then
    let n := (a - 0x20000000) / 0x100000
    let o := a % 0x100000
    if !(n < numEngines s.variant && clusterPowered s (n / 4)) then none
    else if o + len ≤ 0x30000 then some (.imem n)
    else if 0x40000 ≤ o ∧ o + len ≤ 0xA0000 then some (.dmem n ((o - 0x40000) / 0x18000) ((o + len - 1 - 0x40000) / 0x18000))
    else none
  else if 0x30000000 ≤ a ∧ a < 0x30800000 then
    let c := (a - 0x30000000) / 0x200000
    let o := (a - 0x30000000) % 0x200000
    if clusterPowered s c && o + len ≤ 0x200000 then some (.clm c (o / 0x80000) ((o + len - 1) / 0x80000)) else none
  else none

/-- Whether a write of `len` bytes from `a` meets a DMEM or cluster region of a tenant whose SAVE, RESTORE or RELOAD runs
(spec/12_tenants.md R302). -/
def jobRegion (s : State) (a len : Nat) : Bool :=
  s.ten.any (fun t => t.2.job.isSome && (List.range (numEngines s.variant)).any (fun n =>
    (engOf s n).table.any (fun p => p.2.valid && p.2.tid = t.1
      && [(dmemPhys n (1024 * p.2.dmem0Base), dmemPhys n (1024 * p.2.dmem0Limit)), (dmemPhys n (1024 * p.2.dmem1Base), dmemPhys n (1024 * p.2.dmem1Limit)),
          (clmPhys (n / 4) 0 + 4096 * p.2.clmBase, clmPhys (n / 4) 0 + 4096 * p.2.clmLimit)].any (fun r => a < r.2 && r.1 < a + len))))

/-- OCC(1): transactions of tenant `t` between issue and response (spec/12_tenants.md R293). -/
def fabricOcc (s : State) (t : Nat) : Nat := (s.fabric.filter (fun f => f.tid = t && f.admitted)).length

/-- Accesses taken in their order, each admitted while fewer of its tenant are admitted than depth `d` allows. -/
def admitNext (d : Nat → Nat) : List FabricAccess → List FabricAccess → List FabricAccess
  | acc, [] => acc
  | acc, f :: r =>
    let occ := ((acc ++ r).filter (fun g => g.tid = f.tid && g.admitted)).length
    admitNext d (acc ++ [if occ < d f.tid then { f with admitted := true } else f]) r

/-- Accesses held at their issuers admitted in their order while OCC(1) allows (spec/12_tenants.md R294). -/
def admitFabric (s : State) : State :=
  { s with fabric := admitNext (fun t => (tenOf s t).depth.getD 1 0) [] s.fabric }

/-- FABRIC_ENGINE_ACCESS (R56): an access in order waits until it is served; another is answered with an access error. An access
beyond its tenant's depth is held at the issuer and raises QUEUE_FULL (spec/12_tenants.md R293, R294). -/
def fabricArrive (tid addr len : Nat) (write : Option (List Byte)) (tm : Nat) (s : State) : State :=
  let s0 := advance s tm
  if (tenOf s0 tid).state = .resetting || (write.isSome && jobRegion s0 addr len) then deny s0
  else
    match fabricPlace s0 addr len with
    | none => deny s0
    | some _ =>
      let ok := decide (fabricOcc s0 tid < (tenOf s0 tid).depth.getD 1 0)
      let s1 := { s0 with fabric := s0.fabric ++ [⟨tid, addr, len, write, tm, ok⟩], resp := .none }
      if ok then s1 else setTenEvt (pgTen tid) Off.TEVT tid 7 0x40 s1

/-- FABRIC_ENGINE_ACCESS. -/
def execFabricEngineAccess (tid addr len : Nat) (write : Option (List Byte)) (tm : Nat) (s : State) :
    Host.Outcome State Fault Refusal :=
  .next (fabricArrive tid addr len write tm s)

/-- Whether a free bank cycle, or an entry of the fabric port, serves the place at `tm` (R56, R60, R81, R87). -/
def fabricFree (s : State) (pl : FabricPlace) (tm : Nat) : Bool :=
  match pl with
  | .imem n => engineQuiet s n tm
  | .dmem n lo hi => engineQuiet s n tm || (List.range (hi + 1 - lo)).all (fun i => !(engOf s n).uses.contains ⟨tm, lo + i⟩)
  | .clm c lo hi => !regBit s (pgClu c) Off.CTRL 0 || clusterQuiet s c tm
      || (List.range (hi + 1 - lo)).all (fun i => slotEntry s c (lo + i) (cycleOf s tm / 2) = 8)

/-- The page and the CE_COUNT register that own the ECC of a place. -/
def placePage : FabricPlace → Nat × Nat
  | .imem n => (pgMe n, Off.ME_CE_COUNT)
  | .dmem n _ _ => (pgMe n, Off.ME_CE_COUNT)
  | .clm c _ _ => (pgClu c, Off.CLU_CE_COUNT)

/-- Everything that falls due by `tm` in the engine or cluster of a place. -/
def settlePlace (pl : FabricPlace) (tm : Nat) (s : State) : State :=
  match pl with
  | .imem n => settle n tm s
  | .dmem n _ _ => settle n tm s
  | .clm c _ _ => settleBanks c tm s

/-- FABRIC_ACCESS_SERVED (R56): the held access of index `i` is served. A write merges into words that it covers in part,
which keep an uncorrectable error and flag it; a read flags one that it meets (R54, R96). -/
def fabricServe (i tm : Nat) (s : State) : State :=
  let s0 := advance s tm
  match s0.fabric[i]? with
  | none => s0
  | some f =>
    match fabricPlace s0 f.addr f.len with
    | none => deny (admitFabric { s0 with fabric := s0.fabric.eraseIdx i })
    | some pl =>
      if !f.admitted || !fabricFree s0 pl tm then s0
      else
        let s1 := settlePlace pl tm (admitFabric { s0 with fabric := s0.fabric.eraseIdx i })
        let pg := placePage pl
        match f.write with
        | some bs =>
          let bs := bs.take f.len
          let s2 := freshEcc f.addr bs.length (writeMem s1 f.addr bs)
          { flagUe pg.1 f.addr bs.length s2 with resp := .done }
        | none =>
          let s2 := countCe pg.1 pg.2 f.addr f.len s1
          { flagUe pg.1 f.addr f.len s2 with resp := .bytes (readMem s1 f.addr f.len) }

/-- FABRIC_ACCESS_SERVED. -/
def execFabricAccessServed (index tm : Nat) (s : State) : Host.Outcome State Fault Refusal := .next (fabricServe index tm s)

/-! ### The scrub (R97) -/

/-- 64 bytes at `a` read, corrected and rewritten: corrected words count, an uncorrectable one is flagged and left. -/
def scrubLine (pg ce a : Nat) (s : State) : State :=
  let s1 := countCe pg ce a 64 s
  let s2 := { s1 with eccCe := s1.eccCe.filter (fun w => !(eccWords a 64).contains w) }
  if hasUe s2 a 64 then flagUe pg a 64 (setIrq pg 2 s2) else s2

/-- SCRUB_ROW (R97): units 0-15 are the engines, 16-19 the clusters. One row of each bank, and one IMEM line of an engine,
is scrubbed while the unit is idle and scrubbing is enabled. -/
def scrubRow (u row tm : Nat) (s : State) : State :=
  let s0 := advance s tm
  if u < 16 then
    if regBit s0 (pgMe u) Off.CTRL 3 && engineQuiet s0 u tm && u < numEngines s.variant then
      let s1 := (List.range 4).foldl (fun s b =>
        if row < 1536 then scrubLine (pgMe u) Off.ME_CE_COUNT (dmemPhys u (0x18000 * b + 64 * row)) s else s) s0
      if row < 3072 then scrubLine (pgMe u) Off.ME_CE_COUNT (imemPhys u (64 * row)) s1 else s1
    else s0
  else
    let c := u - 16
    if c < numClusters s.variant && regBit s0 (pgClu c) Off.CTRL 2 && row < 8192
        && (!regBit s0 (pgClu c) Off.CTRL 0 || clusterQuiet s0 c tm) then
      (List.range 4).foldl (fun s b => scrubLine (pgClu c) Off.CLU_CE_COUNT (clmPhys c (0x80000 * b + 64 * row)) s) s0
    else s0

/-- SCRUB_ROW. -/
def execScrubRow (unit row tm : Nat) (s : State) : Host.Outcome State Fault Refusal := .next (scrubRow unit row tm s)

/-! ### The tick edge of an engine (R98, R101) -/

/-- At a tick edge engine `n` loads the registers of the tick just completed and decides whether its string starts. -/
def engineEdge (n tm : Nat) (s : State) : State :=
  let s0 := settle n tm s
  let e := engOf s0 n
  let pg := pgMe n
  let mask := (idxWhere 16 (fun p => e.violators.any (fun k => k / 16 = p))).foldl (fun a p => a + 2 ^ p) 0
  let s1 := setReg s0 pg Off.PART_FAULT (word mask)
  let s2 := if mask = 0 then s1 else countReg s1 pg Off.FAULT_TICKS 1
  let s3 := setReg s2 pg Off.INFLIGHT_PEAK (word e.peak)
  let s4 := match e.lastIssue with
    | some (c, p) => setReg s3 pg Off.ME_LAST (word (c % 2 ^ 20 + p * 2 ^ 20))
    | none => s3
  startDecision n (updEng n (fun e => { e with
    violators := [], peak := 0, lastIssue := none, part := none, lastPc := none, latch := none, running := false
    uses := e.uses.filter (fun u => tm ≤ u.tm), inflight := e.inflight.filter (fun i => tm ≤ i)
    waitUntil := 0, pendAt := none }) s4)

end Sys2Proof.Machine
end

