-- ==== Sys2Proof/Machine/Carafe.lean ====
section
/-!
DEFINITION. The Carafe: lanes, deposits, drain and the flip of the publish table (spec/08_carafe_publication.md R201-R209,
R222, R223; spec/02_tick_contract.md R49, R62-R66).
-/
namespace Sys2Proof.Machine

/-! ### Lanes (R201, R202) -/

/-- Fields of a lane's words. -/
def laneBase (l : Word × Word) : Nat := fld l.1 0 12
def laneLimit (l : Word × Word) : Nat := fld l.1 16 13
def laneTid (l : Word × Word) : Nat := fld l.2 0 4
def laneSrc (l : Word × Word) : Nat := fld l.2 4 2
def laneRefresh (l : Word × Word) : Bool := bit l.2 8
def laneEn (l : Word × Word) : Bool := bit l.2 31

/-- The written words of lane `i`. -/
def laneWritten (s : State) (i : Nat) : Word × Word :=
  (reg s pgCar0 (Off.LANE_RANGE + 8 * i), reg s pgCar0 (Off.LANE_CFG + 8 * i))

/-- The enabled lane in force that holds block `b`: its index and words. -/
def laneOf (s : State) (b : Nat) : Option (Nat × (Word × Word)) :=
  s.car.lanes.find? (fun l => laneEn l.2 && laneBase l.2 ≤ b && b < laneLimit l.2)

/-- Whether block `b` lies in an enabled lane of `tid` with source `src`. -/
def ownsBlock (s : State) (tid src b : Nat) : Bool :=
  match laneOf s b with
  | some (_, l) => laneTid l = tid && laneSrc l = src
  | none => false

/-- The words that a lane would hold after a write of `data` to offset `off`. -/
def laneAfter (off : Nat) (data : Word) (old : Word × Word) : Word × Word :=
  if off % 8 = 0 then (data &&& 0x1FFF0FFF, old.2) else (old.1, data &&& 0x8000013F)

/-- Whether a lane write is refused with LANE_BAD (R202). The overlap is judged where the write leaves the lane enabled
(assumption 13). -/
def laneBad (s : State) (i : Nat) (old new : Word × Word) : Bool :=
  (laneEn new && (List.range 256).any (fun j => j ≠ i && (let l := laneWritten s j
    laneEn l && laneBase l < laneLimit new && laneBase new < laneLimit l)))
  || laneLimit new < laneBase new || 4096 < laneLimit new
  || !(laneTid new < numTids s.variant)
  || (laneEn old && new ≠ old && (tenRunning s (laneTid old) || tenRunning s (laneTid new)))

/-- LANE_WRITE (R202): a write of LANE_RANGE or LANE_CFG. -/
def laneWrite (tid off : Nat) (data : Word) (s : State) : State :=
  if 0x800 ≤ off ∧ off < 0x1000 ∧ off % 4 = 0 then
    access tid pgCar0 off data (fun s => entryWrite (laneTid (laneWritten s ((off - 0x800) / 8))) tid pgCar0 off (fun s =>
      let i := (off - 0x800) / 8
      let old := laneWritten s i
      let new := laneAfter off data old
      if laneBad s i old new then refuse pgCar0 9 off tid s
      else
        let s1 := setReg s pgCar0 off (if off % 8 = 0 then new.1 else new.2)
        { s1 with car := { s1.car with lanesPend := true } }) s) s
  else deny s

/-- LANE_WRITE. -/
def execLaneWrite (tid offset : Nat) (data : Word) (s : State) : Host.Outcome State Fault Refusal :=
  .next (laneWrite tid offset data s)

/-- A table without the entries of the blocks of a lane: they hold value 0 with quality 0x8000_0001 again (R202). -/
def dropLane (l : Word × Word) (t : Tab (Word × Word)) : Tab (Word × Word) :=
  t.filter (fun x => !(8 * laneBase l ≤ x.1 && x.1 < 8 * laneLimit l))

/-- The written lanes that are enabled or in force, as they come in force. -/
def writtenLanes (s : State) : Tab (Word × Word) :=
  ((List.range 256).map (fun i => (i, laneWritten s i))).filter (fun l => laneEn l.2)

/-- LANE_APPLY (R202): written lanes come in force at a tick edge; the blocks of a lane that becomes enabled are
initialised. -/
def laneApply (tm : Nat) (s : State) : State :=
  let s0 := advance s tm
  if s0.car.lanesPend && atEdge s0 tm then
    let ls := writtenLanes s0
    let fresh := (ls.filter (fun l => !(s0.car.lanes.any (fun o => o.1 = l.1)))).map (·.2)
    let clear := fun t => fresh.foldl (fun t l => dropLane l t) t
    { s0 with car := { s0.car with
        lanes := ls, lanesPend := false, buf0 := clear s0.car.buf0, buf1 := clear s0.car.buf1, unit := clear s0.car.unit } }
  else s0

/-- LANE_APPLY. -/
def execLaneApply (tm : Nat) (s : State) : Host.Outcome State Fault Refusal := .next (laneApply tm s)

/-! ### The publish point (R49) -/

/-- PUB_POINT_WRITE (R49). -/
def pubPointWrite (tid : Nat) (data : Word) (s : State) : State :=
  access tid pgCar0 Off.PUB_POINT data (fun s =>
    let p := fld data 0 20
    if 4096 ≤ p ∧ p ≤ latestP s then
      let s1 := setReg s pgCar0 Off.PUB_POINT (word p)
      { s1 with car := { s1.car with pubPend := true } }
    else refuse pgCar0 8 Off.PUB_POINT tid s) s

/-- PUB_POINT_WRITE. -/
def execPubPointWrite (tid : Nat) (data : Word) (s : State) : Host.Outcome State Fault Refusal :=
  .next (pubPointWrite tid data s)

/-- PUB_POINT_APPLY (R49): at a tick edge the written value comes in force. -/
def pubPointApply (tm : Nat) (s : State) : State :=
  let s0 := advance s tm
  if s0.car.pubPend && atEdge s0 tm then
    { s0 with car := { s0.car with pubPoint := regFld s0 pgCar0 Off.PUB_POINT 0 20, pubPend := false } }
  else s0

/-- PUB_POINT_APPLY. -/
def execPubPointApply (tm : Nat) (s : State) : Host.Outcome State Fault Refusal := .next (pubPointApply tm s)

/-- A PUB_POINT above the latest publish point of a new rate is replaced by it, with PUB_RANGE (R49). -/
def pubPointClamp (s : State) : State :=
  if latestP s < regFld s pgCar0 Off.PUB_POINT 0 20 then
    let s1 := hwErr pgCar0 8 (setReg s pgCar0 Off.PUB_POINT (word (latestP s)))
    { s1 with car := { s1.car with pubPoint := latestP s } }
  else if latestP s < s.car.pubPoint then { s with car := { s.car with pubPoint := latestP s } }
  else s

/-- A write of CTRL of page `pg` that sets the command bits `bits` and leaves the stored bits as they are. -/
def ctrlCommand (tid pg : Nat) (bits : Word) (body : State → State) (s : State) : State :=
  access tid pg Off.CTRL ((reg s pg Off.CTRL &&& ~~~2) ||| bits) body s

/-- SLACK_CLR (R222): SLACK_MIN reads 0xF_FFFF. -/
def slackClr (tid : Nat) (s : State) : State :=
  ctrlCommand tid pgCar0 4 (fun s => setReg s pgCar0 Off.SLACK_MIN 0xFFFFF) s

/-- SLACK_CLR. -/
def execSlackClr (tid : Nat) (s : State) : Host.Outcome State Fault Refusal := .next (slackClr tid s)

/-! ### Deposits and drain (R62, R63, R203, R204) -/

/-- A deposit violation recorded in CAR_FAULT, CFAULT_INFO and its counter, and class 3 of the depositing tenant raised
(R222, R223). -/
def carFault (code ctr port block tid : Nat) (tenant : Bool) (s : State) : State :=
  let old := reg s pgCar0 Off.CAR_FAULT
  let s1 := countReg (orReg s pgCar0 Off.CAR_FAULT (1 <<< code)) pgCar0 ctr 1
  let s2 :=
    if old &&& 7 = 0 then
      setReg s1 pgCar0 Off.CFAULT_INFO (word (block % 4096 + port % 16 * 2 ^ 12 + code % 8 * 2 ^ 16 + tid % 16 * 2 ^ 20))
    else orReg s1 pgCar0 Off.CFAULT_INFO 0x80000000
  let s3 := if bit old code then s2 else setIrq pgCar0 2 s2
  if tenant then setTenEvt pgCar1 (Off.CTEN_EVT + 4 * tid) tid 3 (1 <<< code) s3 else s3

/-- A lane that publishes invalid at the flip to come. -/
def badLane (i : Nat) (s : State) : State := { s with car := { s.car with badLanes := insertNew i s.car.badLanes } }

/-- The lane index of block `b`, 256 where none holds it. -/
def laneIdx (s : State) (b : Nat) : Nat := match laneOf s b with | some (i, _) => i | none => 256

/-- A block discarded as late (R63). -/
def lateBlock (port block tid : Nat) (s : State) : State :=
  let s1 := carFault 0 Off.LATE_COUNT port block tid true s
  { s1 with car := { s1.car with late := true } }

/-- A place taken in port `n`; none is free at 32 (R62). -/
def takePlace (n : Nat) (b : BlockPlace) (s : State) : State :=
  { s with car := { s.car with ports := tmod [] s.car.ports n (fun l => l ++ [b]) } }

/-- Whether port `n` has no free block place. -/
def portFull (s : State) (n : Nat) : Bool := 32 ≤ (tget [] s.car.ports n).length

/-- ME cycle of the instant at which P of the present tick falls. -/
def pInstant (s : State) : Nat := s.tick.edgeAt.getD 0 + s.car.pubPoint

/-- The acceptance of deposit `x`: ownership first, then lateness, then a free place (R62, R63, R203). -/
def acceptDeposit (x : Xfer) (s : State) : State :=
  let n := x.engine
  if !(x.live && x.localOk && !x.lost) then
    if portFull s n then carFault 1 Off.OVF_COUNT n x.remote x.tid true s
    else takePlace n ⟨none, [], x.tid, x.issued⟩ s
  else if !(x.remote < 4096 && ownsBlock s x.tid 0 x.remote) then
    breach n x.part x.tid (carFault 2 Off.VIOL_COUNT n x.remote x.tid true s)
  else if s.car.flipped then
    let s1 := lateBlock n x.remote x.tid s
    if pInstant s ≤ x.issued then
      { s1 with car := { s1.car with late := s.car.late, nextQuietLanes := insertNew (laneIdx s x.remote) s1.car.nextQuietLanes } }
    else { s1 with car := { s1.car with late := s.car.late } }
  else if portFull s n then badLane (laneIdx s x.remote) (carFault 1 Off.OVF_COUNT n x.remote x.tid true s)
  else takePlace n ⟨some x.remote, x.data, x.tid, x.issued⟩ s

/-- DEPOSIT_ACCEPT (R203): deposits of engine `n` whose acceptance falls due by `tm`. -/
def depositAccept (n tm : Nat) (s : State) : State :=
  let s0 := settleSources n tm (advance s tm)
  let ready := fun (x : Xfer) => x.engine = n && x.kind = .dep && x.landDue ≤ tm
  let due := s0.xfers.filter ready
  due.foldl (fun s x => acceptDeposit x s) { s0 with xfers := s0.xfers.filter (fun x => !ready x) }

/-- DEPOSIT_ACCEPT. -/
def execDepositAccept (engine tm : Nat) (s : State) : Host.Outcome State Fault Refusal := .next (depositAccept engine tm s)

/-- The next non-empty port in ascending order after the one served last (R204). -/
def nextPort (s : State) : Option Nat :=
  ((List.range 16).map (fun i => (s.car.lastServed + 1 + i) % 16)).find? (fun p => tget [] s.car.ports p ≠ [])

/-- CARAFE_DRAIN (R204): the drain of one fabric cycle. -/
def carafeDrain (tm : Nat) (s : State) : State :=
  let s0 := advance s tm
  if s0.car.lastDrainAt = some (tm / 2) then s0
  else
    match nextPort s0 with
    | none => s0
    | some p =>
      match tget [] s0.car.ports p with
      | [] => s0
      | b :: rest =>
        let c := { s0.car with ports := tset s0.car.ports p rest, lastServed := p, lastDrainAt := some (tm / 2) }
        match b.block with
        | none => { s0 with car := c }
        | some k =>
          let again := c.drained.any (fun d => d.1 = k)
          let s1 := { s0 with car := { c with
            drained := tset c.drained k b.data, drainCycle := some (cycleOf s0 tm) } }
          if again then orReg s1 pgCar0 Off.CAR_FAULT 8 else s1

/-- CARAFE_DRAIN. -/
def execCarafeDrain (tm : Nat) (s : State) : Host.Outcome State Fault Refusal := .next (carafeDrain tm s)

/-! ### The flip (R205-R207) -/

/-- Entry `e` of block `b` of a table. -/
def tableEntry (t : Tab (Word × Word)) (b e : Nat) : Word × Word := tget unusedEntry t (8 * b + e)

/-- The front table. -/
def frontTable (c : Carafe) : Tab (Word × Word) := if c.front1 then c.buf1 else c.buf0

/-- Entry `e` of block `b` of the latest publication. -/
def published (s : State) (b e : Nat) : Word × Word := tableEntry (frontTable s.car) b e

/-- Marking invalid keeps the value and sets [1:0] to 0b01, [29] CARAFE and [31] INV (R205). -/
def markInvalid (x : Word × Word) : Word × Word := (x.1, ((x.2 &&& ~~~3) ||| 1) ||| 0xA0000000)

/-- Entry `i` of a deposited block. -/
def depositEntry (d : List Byte) (i : Nat) : Word × Word :=
  (word (leNat ((d.drop (8 * i)).take 4)), word (leNat ((d.drop (8 * i + 4)).take 4)))

/-- Whether a lane is invalidated at the flip (R63, R66, R205; the lanes of the real-time units also in a mode that does not permit those,
spec/17_modes_clocks_power.md R421). -/
def laneInvalid (s : State) (i : Nat) (l : Word × Word) : Bool :=
  let touched := s.car.drained.any (fun d => laneBase l ≤ d.1 && d.1 < laneLimit l)
  !tenRunning s (laneTid l) || (2 ≤ laneSrc l && !realTimeMode s)
  || (laneSrc l = 0 && (s.car.badLanes.contains i || s.car.badTids.contains (laneTid l)
      || (s.car.quietLanes.contains i && !touched)))

/-- The published entry `e` of block `b` of lane `i` (R205, R207). -/
def publishEntry (s : State) (l : Word × Word) (invalid : Bool) (b e : Nat) : Word × Word :=
  let prev := tget (published s b e) s.car.restored (8 * b + e)
  if invalid then markInvalid prev
  else if laneSrc l = 0 then
    match tget none (s.car.drained.map (fun d => (d.1, some d.2))) b with
    | some d => depositEntry d e
    | none => if laneRefresh l then markInvalid prev else prev
  else tget unusedEntry s.car.unit (8 * b + e)

/-- The table formed at the flip: every block of every lane in force. -/
def formTable (s : State) : Tab (Word × Word) :=
  s.car.lanes.foldl (fun t il =>
    let l := il.2
    let invalid := laneInvalid s il.1 l
    (List.range (laneLimit l - laneBase l)).foldl (fun t k =>
      (List.range 8).foldl (fun t e =>
        let v := publishEntry s l invalid (laneBase l + k) e
        if v = unusedEntry then t else tset t (8 * (laneBase l + k) + e) v) t) t) []

/-- The content of the lanes of SRC 1-3 after the flip: the Carafe never clears what it has marked (R205), so a block it has marked stays
marked until its unit writes it again (assumption log 71, DEDUCED). -/
def markedUnits (s : State) : Tab (Word × Word) :=
  s.car.lanes.foldl (fun t il =>
    let l := il.2
    if laneSrc l ≠ 0 && laneInvalid s il.1 l then
      (List.range (8 * (laneLimit l - laneBase l))).foldl (fun t k =>
        tset t (8 * laneBase l + k) (publishEntry s l true (laneBase l + k / 8) (k % 8))) t
    else t) s.car.unit

/-- At P every block that is still in a port, and every deposit issued before P that is not accepted yet, is late: its lane
publishes invalid (R63). -/
def lateAtFlip (s : State) : State :=
  let s1 := (List.range 16).foldl (fun s n =>
    let late := (tget [] s.car.ports n).filter (fun b => b.block ≠ none)
    let s2 := late.foldl (fun s b =>
      let k := b.block.getD 0
      badLane (laneIdx s k) (lateBlock n k b.tid s)) s
    { s2 with car := { s2.car with ports := tset s2.car.ports n ((tget [] s2.car.ports n).filter (fun b => b.block = none)) } }) s
  s1.xfers.foldl (fun s x =>
    if x.kind = .dep && x.live && x.localOk && !x.lost && x.issued < pInstant s && ownsBlock s x.tid 0 x.remote then
      let s2 := badLane (laneIdx s x.remote) s
      { s2 with car := { s2.car with late := true } }
    else s) s1

/-- Tenants that have a lane marked invalid at the flip are told (R223). -/
def invalidEvents (s : State) : State :=
  s.car.lanes.foldl (fun s il =>
    if laneInvalid s il.1 il.2 then
      setTenEvt pgCar1 (Off.CTEN_EVT + 4 * laneTid il.2) (laneTid il.2) 3 8 s else s) s

/-- DRAIN_LAST and SLACK_MIN at the flip. -/
def drainStats (s : State) : State :=
  let p := s.car.pubPoint
  let d := if s.car.late then p else s.car.drainCycle.getD 0
  let s1 := setReg s pgCar0 Off.DRAIN_LAST (word d)
  if d = 0 then s1
  else setReg s1 pgCar0 Off.SLACK_MIN (word (min (regFld s pgCar0 Off.SLACK_MIN 0 20) (p - d)))

/-- The flip of the publish table (R206). -/
def flipTable (s : State) : State :=
  let s1 := lateAtFlip s
  let s2 := drainStats (invalidEvents s1)
  let t := formTable s1
  let u := markedUnits s1
  let c := s2.car
  let s3 := { s2 with car := { c with
    front1 := !c.front1
    buf0 := if c.front1 then t else c.buf0
    buf1 := if c.front1 then c.buf1 else t
    unit := u
    drained := [], drainCycle := none, late := false, badLanes := [], badTids := [], quietLanes := [], flipped := true, restored := [] } }
  setIrq pgCar0 1 (setReg s3 pgCar0 Off.PUB_SEQ (word s3.tick.count))

/-- At a tick edge the Carafe begins the tick's table: what was kept for its flip comes in force. -/
def carafeEdge (s : State) : State :=
  let c := s.car
  { s with car := { c with
      flipped := false
      badTids := c.nextBadTids ++ c.badTids.filter (fun t => !c.nextBadTids.contains t), nextBadTids := []
      quietLanes := c.nextQuietLanes, nextQuietLanes := [] } }

end Sys2Proof.Machine
end

