-- ==== Sys2Proof/Machine/TimeBase.lean ====
section
/-!
DEFINITION. The time bases, their discipline, the tick generator, the compare units and the PPS balls
(spec/15_time_unit.md R370-R390; spec/02_tick_contract.md R43-R46, R460).
-/
namespace Sys2Proof.Machine

/-- Time base `d`; 4 is TB0S (R370). -/
def tbOf (s : State) (d : Nat) : TimeBase := tget TimeBase.init s.tim.tbs d

/-- Time base `d` changed. -/
def updTb (d : Nat) (f : TimeBase → TimeBase) (s : State) : State :=
  { s with tim := { s.tim with tbs := tset s.tim.tbs d (f (tbOf s d)) } }

/-! ### The value of a time base (R370, R371) -/

/-- Internal units of 2^−48 / 3 ns in one ns. -/
abbrev unitsPerNs : Nat := 3 * 2 ^ 48

/-- The internal count of a time base at fabric cycle `f`: 5·(2^32 + RATE)·2^16 a cycle while it runs (R371). -/
def tbUnits (b : TimeBase) (f : Nat) : Nat :=
  if b.state = .stopped then b.base else b.base + (f - b.since) * (5 * (2 ^ 32 + b.rate).toNat * 2 ^ 16)

/-- The value of time base `d` at instant `tm`, in 2^−16 ns (R371: truncated). -/
def tbSub (s : State) (d tm : Nat) : Nat := tbUnits (tbOf s d) (tm / 2) / (3 * 2 ^ 32)

/-- The value in whole ns: the linear count s · 10^9 + ns (R370). -/
def tbNs (s : State) (d tm : Nat) : Nat := tbSub s d tm / 2 ^ 16

/-- A time base whose count is held at `units` from fabric cycle `f` on. -/
def rebase (f : Nat) (b : TimeBase) : TimeBase := { b with base := tbUnits b f, since := f }

/-- The register block of time base `d` (R388). -/
def tbReg (s : State) (d off : Nat) : Word := reg s pgTime1 (off + 0x40 * d)

/-- Whether time base `d` is SYNCED (R381). -/
def synced (s : State) (d : Nat) : Bool :=
  match (tbOf s d).state with
  | .locked => true
  | .holdover => !(tbOf s d).holdSpent
  | _ => false

/-- A change of state raises STATE_CHG(d) (R388). -/
def tbMove (d : Nat) (st : TbState) (s : State) : State :=
  if (tbOf s d).state = st then s else setIrq pgTime1 (1 <<< d) (updTb d (fun b => { b with state := st }) s)

/-- RATE changes in the fabric cycle after a measurement (R377). -/
def setRate (d : Nat) (r : Int) (s : State) : State :=
  updTb d (fun b => { rebase (s.now / 2 + 1) b with rate := r }) s

/-- The clamp of R371. -/
def clampRate (r : Int) : Int := max (-2147483) (min 2147483 r)

/-! ### Ticks (R43-R46, R460) -/

/-- The instant of the tick of count `c` in 2^−16 ns of TB0 (R43). -/
def tickInstant (f c : Nat) : Nat := (c / f) * (10 ^ 9 * 2 ^ 16) + (c % f) * (10 ^ 9 * 2 ^ 16) / f

/-- The count of the latest tick instant at or before a TB0 value in ns (R460). -/
def countAt (f ns : Nat) : Nat := ns / 10 ^ 9 * f + ns % 10 ^ 9 * f / 10 ^ 9

/-- "now" of R460: the count of the latest edge, or before the first that of TB0's value. -/
def nowTick (s : State) : Nat := if s.tick.running then s.tick.count else countAt (rateHz s) (tbNs s 0 s.now)

/-- (s32)(a − now) (R460). -/
def s32diff (a : Word) (n : Nat) : Int := (a - word n).toInt

/-- The absolute tick count that a 32-bit tick names, near now. -/
def absTick (s : State) (a : Word) : Nat := ((nowTick s : Int) + s32diff a (nowTick s)).toNat

/-- The bounds of the interval between two edges in ME cycles (R45). -/
def intervalLo (s : State) : Nat := if rateHz s = 4000 then 299700 else 249752
def intervalHi (s : State) : Nat := if rateHz s = 4000 then 300300 else 250248

/-- The Pair block changed. -/
def updPair (f : Pair → Pair) (s : State) : State := { s with pair := f s.pair }

/-- Whether the unit holds the Top, leased or solo (spec/13_redundant_pair.md R322). -/
def holdsTop (s : State) : Bool := s.pair.role = .leased || s.pair.role = .solo

/-- FIT clears, with UNFIT; the Top holder is never made unfit (spec/13_redundant_pair.md R331). -/
def clearFit (s : State) : State :=
  if s.pair.fit && !holdsTop s then setIrq pgPair1 2 (updPair (fun p => { p with fit := false }) s) else s

/-- Edges stop: TB0 or the tick generator has stopped (R46). -/
def stopTicks (s : State) : State := { s with tick := { s.tick with running := false } }

/-- TB0 or the tick generator starts: the first edge is that of the first tick instant from TB0's value on (R46). -/
def armTicks (s : State) : State := { s with tick := { s.tick with since := tbSub s 0 s.now } }

/-- The count of the first tick instant at or after that value (R43, R46). -/
def firstCount (s : State) : Nat :=
  let f := rateHz s
  let c := countAt f (s.tick.since / 2 ^ 16)
  if s.tick.since ≤ tickInstant f c then c else if s.tick.since ≤ tickInstant f (c + 1) then c + 1 else c + 2

/-! ### Discipline (R377-R382) -/

/-- A quotient that drops fractions as an arithmetic shift does. -/
def sarInt (v : Int) (k : Nat) : Int := v.fdiv (2 ^ k)

/-- JUMP_THRESH and LOCK_THRESH in 2^−16 ns. -/
def jumpThresh (s : State) (d : Nat) : Int := (fld (tbReg s d Off.JUMP_THRESH) 0 20 * 65536 : Nat)
def lockThresh (s : State) (d : Nat) : Int := (fld (tbReg s d Off.LOCK_THRESH) 0 16 * 65536 : Nat)

/-- A measurement refused for its size (R379); eight in a row lead to HOLDOVER (R378). -/
def holdoverNow (d : Nat) (s : State) : State :=
  let s1 := tbMove d .holdover (setRate d (tbOf s d).integ s)
  let s2 := updTb d (fun b => { b with holdSince := s.now, holdSpent := false, refusedRun := 0, lockRun := 0, unlockRun := 0 }) s1
  if d = 0 && !(tbOf s 0).refS && bit (tbReg s 0 Off.TB_CFG) 14 then updTb 0 (fun b => { b with swPend := true }) s2 else s2

/-- A measurement refused under R379. -/
def refuseMeasure (d : Nat) (s : State) : State :=
  let s1 := setIrq pgTime1 (0x100 <<< d) (countReg s pgTime1 (Off.TB_REFUSED + 0x40 * d) 1)
  let s2 := updTb d (fun b => { b with refusedRun := b.refusedRun + 1 }) s1
  let b := tbOf s2 d
  if 8 ≤ b.refusedRun && (b.state = .locking || b.state = .locked) then holdoverNow d s2 else s2

/-- The servo of R377 on offset `o` with nominal interval `tns`. -/
def servo (d : Nat) (o : Int) (tns : Nat) (s : State) : State :=
  let y := (o * 2 ^ 16).tdiv tns
  let ki := fld (tbReg s d Off.TB_CFG) 20 4
  let kp := fld (tbReg s d Off.TB_CFG) 16 4
  let i := clampRate ((tbOf s d).integ - sarInt y ki)
  setRate d (clampRate (i - sarInt y kp)) (updTb d (fun b => { b with integ := i }) s)

/-- The limited correction of a slew or a switch, added to I (R380, R382). -/
def limitedServo (d : Nat) (o : Int) (tns : Nat) (s : State) : State :=
  let y := (o * 2 ^ 16).tdiv tns
  let kp := fld (tbReg s d Off.TB_CFG) 16 4
  let lim : Int := if rateHz s = 4000 then 17180 else 20616
  let c := -(sarInt y kp)
  let c' := if d = 0 then max (-lim) (min lim c) else c
  setRate d (clampRate ((tbOf s d).integ + c')) s

/-- The lock state after an accepted measurement (R378). -/
def lockState (d : Nat) (small : Bool) (s : State) : State :=
  let b := tbOf s d
  match b.state with
  | .locking =>
    if small then
      (if 8 ≤ b.lockRun + 1 then tbMove d .locked (updTb d (fun b => { b with lockRun := 0, unlockRun := 0 }) s)
       else updTb d (fun b => { b with lockRun := b.lockRun + 1 }) s)
    else updTb d (fun b => { b with lockRun := 0 }) s
  | .locked =>
    if small then updTb d (fun b => { b with unlockRun := 0 }) s
    else if 4 ≤ b.unlockRun + 1 then tbMove d .locking (updTb d (fun b => { b with lockRun := 0, unlockRun := 0 }) s)
    else updTb d (fun b => { b with unlockRun := b.unlockRun + 1 }) s
  | .holdover => tbMove d .locking (updTb d (fun b => { b with lockRun := if small then 1 else 0, unlockRun := 0 }) s)
  | _ => s

/-- FREERUN is left with the measurement that completes QUAL (R378, R379): with the armed step, or for TB0 under a running
generator without it. -/
def leaveFreerun (d : Nat) (o : Int) (tns : Nat) (s : State) : State :=
  if d = 0 && regBit s pgTime0 Off.TICK_CFG 0 then
    (if (o.natAbs : Int) ≤ jumpThresh s d then tbMove d .locking (servo d o tns s) else refuseMeasure d s)
  else if (tbOf s d).stepArmed then
    let f := s.now / 2 + 1
    tbMove d .locking (updTb d (fun b =>
      let b1 := rebase f b
      { b1 with base := ((b1.base : Int) - o * (3 * 2 ^ 32)).toNat, integ := 0, rate := 0, stepArmed := false }) s)
  else if (o.natAbs : Int) ≤ jumpThresh s d then tbMove d .locking (servo d o tns s)
  else refuseMeasure d s

/-- A measurement of offset `o` (2^−16 ns) and nominal interval `tns` taken by time base `d` (R377-R380). In FREERUN no
measurement changes RATE before FREERUN is left (assumption 14). -/
def measure (d : Nat) (o : Int) (tns : Nat) (s : State) : State :=
  let b := tbOf s d
  let used := fun s => updTb d (fun b => { b with offset := o, lastMeas := s.now, ownMeas := some s.now, refusedRun := 0 })
    (countReg s pgTime1 (Off.TB_ACCEPTED + 0x40 * d) 1)
  match b.state with
  | .stopped => s
  | .freerun =>
    let s1 := used s
    if fld (tbReg s d Off.TB_CFG) 24 4 ≤ b.qualRun + 1 then leaveFreerun d o tns (updTb d (fun b => { b with qualRun := 0 }) s1)
    else updTb d (fun b => { b with qualRun := b.qualRun + 1 }) s1
  | _ =>
    let small := (o.natAbs : Int) ≤ lockThresh s d
    if jumpThresh s d < (o.natAbs : Int) && !b.slewing && !b.switching then refuseMeasure d s
    else
      let s1 := used s
      if (b.slewing || b.switching) && !small then lockState d small (limitedServo d o tns s1)
      else
        let s2 := updTb d (fun b => { b with slewing := false, switching := false }) s1
        let s3 := if b.switching then setIrq pgTime1 0x10000 s2 else s2
        lockState d small (servo d o tns s3)

/-- A measurement of the own source: while TB0 follows TB0S it is only shown in OFFSET (R382). -/
def measureOwn (d : Nat) (o : Int) (tns : Nat) (s : State) : State :=
  if d = 0 && (tbOf s 0).refS then
    (if (tbOf s 0).state = .stopped then s else updTb 0 (fun b => { b with offset := o, ownMeas := some s.now }) s)
  else measure d o tns s

/-- TB0 − TB0S at instant `tm` (R377). -/
def offsetToS (s : State) (tm : Nat) : Int := (tbSub s 0 tm : Int) - tbSub s 4 tm

/-- The measurement of TB0 at a tick edge while it follows TB0S (R382). -/
def followS (tm : Nat) (s : State) : State :=
  if (tbOf s 0).refS && (tbOf s 4).state ≠ .stopped then
    let own := (tbOf s 0).ownMeas
    let off := (tbOf s 0).offset
    let s1 := measure 0 (offsetToS s tm) (10 ^ 9 / rateHz s) s
    -- OFFSET goes on showing the own source's measurements, where it has any
    updTb 0 (fun b => { b with ownMeas := own, offset := if own = none then b.offset else off }) s1
  else s

/-- LOG_SYNC of a port, signed (R389). -/
def logSync (s : State) (p : Nat) : Int := (BitVec.ofNat 4 (regFld s pgTime2 (Off.PP_CFG + 0x40 * p) 16 4)).toInt
/-- LOG_PDELAY of a port, signed. -/
def logPdelay (s : State) (p : Nat) : Int := (BitVec.ofNat 4 (regFld s pgTime2 (Off.PP_CFG + 0x40 * p) 20 4)).toInt

/-- 2^k seconds in units of which there are `u` in a second. -/
def pow2Of (u : Nat) (k : Int) : Nat := if 0 ≤ k then u * 2 ^ k.toNat else u / 2 ^ (-k).toNat

/-- The nominal interval of a time base's own reference in ns (R377, R378). -/
def refNs (s : State) (d : Nat) : Nat :=
  if fld (tbReg s d Off.TB_CFG) 0 3 = 1 then pow2Of (10 ^ 9) (logSync s (fld (tbReg s d Off.TB_CFG) 12 2)) else 10 ^ 9

/-- ME cycles in which SYNC_LOSS reference intervals pass (R378), counted on the device's own clock (assumption 15). -/
def lossCycles (s : State) (d : Nat) : Nat :=
  let ns := if d = 0 && (tbOf s 0).refS then 10 ^ 9 / rateHz s else refNs s d
  fld (tbReg s d Off.TB_CFG) 28 4 * (ns * 6 / 5)

/-- HOLDOVER_ENTRY (R378): no accepted measurement for SYNC_LOSS reference intervals. -/
def holdoverEntry (d tm : Nat) (s : State) : State :=
  let s0 := advance s tm
  let b := tbOf s0 d
  if d < 5 && (b.state = .locking || b.state = .locked) && b.lastMeas + lossCycles s0 d ≤ tm then holdoverNow d s0 else s0

/-- HOLDOVER_ENTRY. -/
def execHoldoverEntry (tb tm : Nat) (s : State) : Host.Outcome State Fault Refusal := .next (holdoverEntry tb tm s)

/-- HOLD_MAX_EXPIRY (R381): HOLD_MAX seconds of HOLDOVER have passed, and SYNCED clears. -/
def holdMaxExpiry (d tm : Nat) (s : State) : State :=
  let s0 := advance s tm
  let b := tbOf s0 d
  if d < 5 && b.state = .holdover && b.holdSince + fld (tbReg s0 d Off.HOLD_MAX) 0 16 * 1200000000 ≤ tm then
    updTb d (fun b => { b with holdSpent := true }) s0
  else s0

/-- HOLD_MAX_EXPIRY. -/
def execHoldMaxExpiry (tb tm : Nat) (s : State) : Host.Outcome State Fault Refusal := .next (holdMaxExpiry tb tm s)

/-! ### Commands of a time base (R378, R380, R382) -/

/-- A command written to TB_CMD of time base `d`. -/
def tbCommand (tid d : Nat) (bits : Word) (body : State → State) (s : State) : State :=
  if d < 5 then access tid pgTime1 (Off.TB_CMD + 0x40 * d) bits body s else deny s

/-- SET_SEC and SET_NS in internal units. -/
def setValue (s : State) (d : Nat) : Nat :=
  ((tbReg s d Off.SET_SEC_LO).toNat + fld (tbReg s d Off.SET_SEC_HI) 0 16 * 2 ^ 32) * (10 ^ 9 * unitsPerNs)
    + fld (tbReg s d Off.SET_NS) 0 30 * unitsPerNs

/-- START (R378); in a state other than STOPPED it has no effect (assumption 14). -/
def tbStart (tid d : Nat) (s : State) : State :=
  tbCommand tid d 1 (fun s =>
    if (tbOf s d).state = .stopped then
      let s1 := tbMove d .freerun (updTb d (fun b => { b with
        base := setValue s d, since := s.now / 2, stepArmed := true, qualRun := 0, lockRun := 0, unlockRun := 0
        refusedRun := 0, slewing := false, pendSync := none, lastMeas := s.now, ownMeas := none }) s)
      if d = 0 then armTicks s1 else s1
    else s) s

/-- START. -/
def execTbStart (tid tb : Nat) (s : State) : Host.Outcome State Fault Refusal := .next (tbStart tid tb s)

/-- A time base stops and holds its value (R371, R378). Without TB0 no tick edge is generated (R46) and FIT clears
(spec/13_redundant_pair.md R331); without TB0S a TB0
that follows it enters HOLDOVER (R382). -/
def stopTb (d : Nat) (s : State) : State :=
  let s1 := tbMove d .stopped (updTb d (fun b => { rebase (s.now / 2) b with pendSync := none, slewing := false, switching := false }) s)
  if d = 0 then clearFit (stopTicks s1)
  else if d = 4 && (tbOf s1 0).refS && (tbOf s1 0).state ≠ .stopped && (tbOf s1 0).state ≠ .holdover then holdoverNow 0 s1
  else s1

/-- STOP (R378). -/
def tbStop (tid d : Nat) (s : State) : State := tbCommand tid d 2 (stopTb d) s

/-- STOP. -/
def execTbStop (tid tb : Nat) (s : State) : Host.Outcome State Fault Refusal := .next (tbStop tid tb s)

/-- SET (R378): in STOPPED and FREERUN, for TB0 only while the tick generator is off; else STEP_BAD. -/
def tbSet (tid d : Nat) (s : State) : State :=
  tbCommand tid d 4 (fun s =>
    let st := (tbOf s d).state
    if (st = .stopped || st = .freerun) && !(d = 0 && regBit s pgTime0 Off.TICK_CFG 0) then
      updTb d (fun b => { b with base := setValue s d, since := s.now / 2, stepArmed := true }) s
    else refuse pgTime1 8 (Off.TB_CMD + 0x40 * d) tid s) s

/-- SET. -/
def execTbSet (tid tb : Nat) (s : State) : Host.Outcome State Fault Refusal := .next (tbSet tid tb s)

/-- SLEW (R380): in STOPPED it is dropped with CFG_BAD. -/
def slew (tid d : Nat) (s : State) : State :=
  tbCommand tid d 8 (fun s =>
    if (tbOf s d).state = .stopped then refuse pgTime1 10 (Off.TB_CMD + 0x40 * d) tid s
    else updTb d (fun b => { b with slewing := true }) s) s

/-- SLEW. -/
def execSlew (tid tb : Nat) (s : State) : Host.Outcome State Fault Refusal := .next (slew tid tb s)

/-- SWITCH (R382): TB0 is to move to its other reference at the next tick edge. -/
def switchRef (tid : Nat) (s : State) : State :=
  tbCommand tid 0 16 (fun s => updTb 0 (fun b => { b with swPend := true }) s) s

/-- SWITCH. -/
def execSwitchRef (tid : Nat) (s : State) : Host.Outcome State Fault Refusal := .next (switchRef tid s)

/-- The refusal of a switch at an edge, 0 where it is accepted (R382, in the order of its table). -/
def switchResult (s : State) (tm : Nat) : Nat :=
  let b := tbOf s 0
  let toS := !b.refS
  let o := if toS then offsetToS s tm else b.offset
  let ownLost := match b.ownMeas with
    | some m => decide (m + fld (tbReg s 0 Off.TB_CFG) 28 4 * (refNs s 0 * 6 / 5) < tm)
    | none => true
  if (toS && !synced s 4) || (!toS && ownLost) then 1
  else if jumpThresh s 0 < (o.natAbs : Int) then 2
  else if b.switching || b.slewing then 3
  else if b.state = .stopped || (tbOf s 4).state = .stopped then 4
  else 0

/-- SWITCH_START (R382): the switch that waits is judged at a tick edge. -/
def switchStart (tm : Nat) (s : State) : State :=
  let s0 := advance s tm
  if (tbOf s0 0).swPend && atEdge s0 tm then
    let r := switchResult s0 tm
    if r = 0 then
      updTb 0 (fun b => { b with swPend := false, swResult := 0, switching := true, refS := !b.refS, lastMeas := tm }) s0
    else setIrq pgTime1 0x20000 (updTb 0 (fun b => { b with swPend := false, swResult := r }) s0)
  else s0

/-- SWITCH_START. -/
def execSwitchStart (tm : Nat) (s : State) : Host.Outcome State Fault Refusal := .next (switchStart tm s)

/-! ### The tick generator (R383) -/

/-- TICK_CFG_WRITE (R383): a change of RATE while EN = 1, or outside PROVISION and CONFIGURE, is dropped with CFG_BUSY; an
accepted change makes the Carafe judge PUB_POINT at once (R49). -/
def tickCfgWrite (tid : Nat) (data : Word) (s : State) : State :=
  access tid pgTime0 Off.TICK_CFG data (fun s =>
    let old := reg s pgTime0 Off.TICK_CFG
    let change := bit old 1 != bit data 1
    if change && (bit old 0 || !(mode s = mProvision || mode s = mConfigure)) then refuse pgTime0 8 Off.TICK_CFG tid s
    else
      let s1 := setReg s pgTime0 Off.TICK_CFG (data &&& 3)
      let s2 := if !bit data 0 then stopTicks s1 else if bit old 0 then s1 else armTicks s1
      if change then pubPointClamp s2 else s2) s

/-- TICK_CFG_WRITE. -/
def execTickCfgWrite (tid : Nat) (data : Word) (s : State) : Host.Outcome State Fault Refusal :=
  .next (tickCfgWrite tid data s)

/-- Whether a tick edge may be issued at `tm` (R44-R46): the generator runs, TB0 runs, `tm` is a MAC-clock edge, and the
next tick instant has arrived or a bound of R45 applies. -/
def edgeDue (s : State) (tm : Nat) : Bool :=
  regBit s pgTime0 Off.TICK_CFG 0 && (tbOf s 0).state ≠ .stopped && tm % 4 = 0
  && (if s.tick.running then
        (match s.tick.edgeAt with
         | some e =>
           let reached := tickInstant (rateHz s) (s.tick.count + 1) ≤ tbSub s 0 tm
           e + intervalLo s ≤ tm && (reached || e + intervalHi s ≤ tm)
         | none => true)
      else decide (tickInstant (rateHz s) (firstCount s) ≤ tbSub s 0 tm) && (match s.tick.edgeAt with | some e => decide (e < tm) | none => true))

/-- Whether the edge at `tm` is issued at a bound of R45. -/
def edgeClamped (s : State) (tm : Nat) : Bool :=
  s.tick.running && (match s.tick.edgeAt with
    | some e =>
      let i := tickInstant (rateHz s) (s.tick.count + 1)
      (tm = e + intervalLo s && decide (i ≤ tbSub s 0 (tm - 4))) || (e + intervalHi s ≤ tm && !decide (i ≤ tbSub s 0 tm))
    | none => false)

/-- The tick generator issues an edge at `tm`: the count, the interval and the instant (R43, R387), with TICK_START at a
first edge and TICK_CLAMPED at a bound (R383). -/
def issueEdge (tm : Nat) (s : State) : State :=
  let f := rateHz s
  let first := !s.tick.running
  let clamped := edgeClamped s tm
  let c := if first then firstCount s else s.tick.count + 1
  let i := tickInstant f c
  let t := { s.tick with
    edgeAt := some tm, running := true, count := c
    interval := match s.tick.edgeAt with | some e => tm - e | none => 0
    ns := i / 2 ^ 16 % 10 ^ 9, sec := i / 2 ^ 16 / 10 ^ 9, sub := i % 2 ^ 16
    runners := idxWhere 16 (fun t => tenRunning s t), sealedTick := false }
  let s1 := { s with tick := t }
  let s2 := if first then setIrq pgTime0 8 s1 else s1
  if clamped then setIrq pgTime0 1 (countReg s2 pgTime0 Off.CLAMP_COUNT 1) else s2

/-! ### Compare units (R384) -/

/-- The low word that compare unit `k` sees at `tm`. -/
def compareNow (s : State) (k tm : Nat) : Word :=
  let src := regFld s pgTime3 (Off.CMP_CFG + 0x10 * k) 1 3
  if src = 5 then word s.tick.count else word (tbNs s src tm)

/-- COMPARE_FIRE (R384): an armed unit whose target is reached fires; the tick count is compared at tick edges only. -/
def compareFire (k tm : Nat) (s : State) : State :=
  let s0 := advance s tm
  let o := 0x10 * k
  let src := regFld s0 pgTime3 (Off.CMP_CFG + o) 1 3
  let target := reg s0 pgTime3 (Off.CMP_TARGET + o)
  if k < 16 && regBit s0 pgTime3 (Off.CMP_CFG + o) 0 && (src < 5 || atEdge s0 tm)
      && !((compareNow s0 k tm - target).msb) then
    let s1 := setIrq pgTime3 (1 <<< k) (countReg s0 pgTime3 (Off.CMP_COUNT + o) 1)
    let per := reg s1 pgTime3 (Off.CMP_PERIOD + o)
    if per = 0 then clearReg s1 pgTime3 (Off.CMP_CFG + o) 1 else setReg s1 pgTime3 (Off.CMP_TARGET + o) (target + per)
  else s0

/-- COMPARE_FIRE. -/
def execCompareFire (k tm : Nat) (s : State) : Host.Outcome State Fault Refusal := .next (compareFire k tm s)

/-- ARM (R384, R390): a write of CMP_CFG; SRC 6 or 7 is dropped with CFG_BAD. -/
def armCompare (tid k : Nat) (data : Word) (s : State) : State :=
  if k < 16 then
    access tid pgTime3 (Off.CMP_CFG + 0x10 * k) data (fun s =>
      if 6 ≤ fld data 1 3 then refuse pgTime3 8 (Off.CMP_CFG + 0x10 * k) tid s
      else setReg s pgTime3 (Off.CMP_CFG + 0x10 * k) ((data &&& 0xF) ||| (reg s pgTime3 (Off.CMP_CFG + 0x10 * k) &&& 1))) s
  else deny s

/-- ARM. -/
def execArm (tid k : Nat) (data : Word) (s : State) : Host.Outcome State Fault Refusal := .next (armCompare tid k data s)

/-! ### PPS (R385, R386) -/

/-- The offset of a count in 2^−16 ns from the nearest whole second (R377). -/
def fromSecond (v : Nat) : Int :=
  let m : Nat := 10 ^ 9 * 2 ^ 16
  let r := v % m
  if 2 * r ≤ m then (r : Int) else (r : Int) - m

/-- The stamp of time base `d` at `tm` less `dly` ns, with 1 ns resolution. -/
def ppsStamp (s : State) (d tm dly : Nat) : Nat := tbNs s d tm - dly

/-- PPS_IN_EDGE (R385): an edge is stamped and taken as a measurement, or ignored within 0.5 s of the edge before. -/
def ppsInEdge (i tm : Nat) (s : State) : State :=
  let s0 := advance s tm
  let cfg := reg s0 pgTime0 (Off.PPS_IN_CFG + 4 * i)
  let p := tget PpsIn.init s0.tim.ppsIn i
  if 2 ≤ i || !bit cfg 0 then s0
  else if (match p.lastAt with | some l => decide (tm < l + 600000000) | none => false) then
    countReg s0 pgTime0 (Off.PPS_GLITCH + 4 * i) 1
  else
    let tb := fld cfg 1 3
    let dly := fld cfg 16 16
    let st := ppsStamp s0 tb tm dly
    let q : PpsIn := { lastAt := some tm, stamp := st, offset := (fromSecond (st * 2 ^ 16)).fdiv (2 ^ 16), tb := tb, count := p.count + 1 }
    let s1 := setIrq pgTime0 (2 <<< i) { s0 with tim := { s0.tim with ppsIn := tset s0.tim.ppsIn i q } }
    (List.range 5).foldl (fun s d =>
      if fld (tbReg s d Off.TB_CFG) 0 3 = 2 + i then
        measureOwn d (fromSecond (ppsStamp s d tm dly * 2 ^ 16)) (10 ^ 9) s
      else s) s1

/-- PPS_IN_EDGE. -/
def execPpsInEdge (input tm : Nat) (s : State) : Host.Outcome State Fault Refusal := .next (ppsInEdge input tm s)

/-- An output driven. -/
def setPpsOut (o : Nat) (p : PpsOut) (s : State) : State := { s with tim := { s.tim with ppsOut := tset s.tim.ppsOut o p } }

/-- PPS_OUT_PULSE (R386): an output rises by its MODE: at a whole second of TB, held low while QUAL = 1 and TB is not SYNCED;
at a tick edge for half a tick; or at a firing of its compare unit. -/
def ppsOutPulse (o tm : Nat) (s : State) : State :=
  let s0 := advance s tm
  let cfg := reg s0 pgTime0 (Off.PPS_OUT_CFG + 8 * o)
  let width := regFld s0 pgTime0 (Off.PPS_OUT_WIDTH + 8 * o) 0 19 * 1200
  if 2 ≤ o then s0
  else
    match fld cfg 0 2 with
    | 1 =>
      if (tbOf s0 (fld cfg 2 3)).state ≠ .stopped && (!bit cfg 5 || synced s0 (fld cfg 2 3)) then
        setPpsOut o ⟨true, tm + width⟩ s0
      else s0
    | 2 => if atEdge s0 tm then setPpsOut o ⟨true, tm + (if rateHz s0 = 4000 then 150000 else 125000)⟩ s0 else s0
    | 3 => setPpsOut o ⟨true, tm + width⟩ s0
    | _ => s0

/-- PPS_OUT_PULSE. -/
def execPpsOutPulse (output tm : Nat) (s : State) : Host.Outcome State Fault Refusal := .next (ppsOutPulse output tm s)

/-- PPS_OUT_END (R386): the pulse ends and the output returns low. -/
def ppsOutEnd (o tm : Nat) (s : State) : State :=
  let s0 := advance s tm
  let p := tget PpsOut.init s0.tim.ppsOut o
  if p.high && p.endAt ≤ tm then setPpsOut o ⟨false, p.endAt⟩ s0 else s0

/-- PPS_OUT_END. -/
def execPpsOutEnd (output tm : Nat) (s : State) : Host.Outcome State Fault Refusal := .next (ppsOutEnd output tm s)

end Sys2Proof.Machine
end

