-- ==== Sys2Proof/Machine/Hopper.lean ====
section
/-!
DEFINITION. The Hopper: subscriptions, parsing, alignment, seal and substitution (spec/06_hopper_ingest.md).
-/
namespace Sys2Proof.Machine

/-! ### Subscriptions (R162-R169, R183) -/

/-- The alignment lag L (R50). -/
def lagOf (s : State) : Nat := regFld s pgHop0 Off.HOP_CFG 0 5

/-- Subscription entry `e`. -/
def subOf (s : State) (e : Nat) : HopSub := tget HopSub.init s.hop.subs e

def subSlot (x : HopSub) : Nat := fld x.layout 0 9
def subRate (x : HopSub) : Nat := fld x.layout 10 2
def subNch (x : HopSub) : Nat := fld x.layout 16 5
def subFrame (x : HopSub) : Nat := fld x.frame 0 12
def subEn (x : HopSub) : Bool := bit x.policy 0
def subSubst (x : HopSub) : Nat := fld x.policy 1 2
def subHold (x : HopSub) : Nat := fld x.policy 4 4
def subHalf (x : HopSub) : Nat := fld x.policy 8 6
def subSync (x : HopSub) : Nat := fld x.policy 14 2
def subSim (x : HopSub) : Bool := bit x.policy 16
def subTid (x : HopSub) : Nat := fld x.policy 24 4
/-- Slots of an entry: three at 14,400 Hz (R163). -/
def subSlots (x : HopSub) : Nat := if subRate x = 2 then 3 else 1
/-- Blocks of one slot of an entry (R166). -/
def subBlocks (x : HopSub) : Nat := (subNch x + 7) / 8
/-- The sample rate of an entry in Hz. -/
def subHz (x : HopSub) : Nat := match subRate x with | 0 => 4000 | 1 => 4800 | _ => 14400
def subDa (x : HopSub) : Nat := x.daLo.toNat + fld x.daHi 0 16 * 2 ^ 32
def subAppid (x : HopSub) : Nat := fld x.daHi 16 16

/-- Octets of a string held in words: octet 4i + j in bits [8j+7:8j]. -/
def stringOf (ws : List Word) (n : Nat) : List Byte := (ws.flatMap (fun w => leBytes 4 w.toNat)).take n

def subSvid (x : HopSub) : List Byte := stringOf x.svid (fld x.svidLen 0 7)

/-- Enabled entries other than `e`. -/
def otherSubs (s : State) (e : Nat) : List HopSub := (s.hop.subs.filter (fun p => p.1 ≠ e && subEn p.2)).map (·.2)

/-- Whether two spans `[a, a + n)` and `[b, b + m)` meet. -/
def spansMeet (a n b m : Nat) : Bool := a < b + m && b < a + n

/-- The frame range of a tenant: TID 0 owns every block (R184). -/
def frameRange (s : State) (t : Nat) : Nat × Nat :=
  if t = 0 then (128, 4096) else (regFld s pgHop2 (Off.FRANGE + 4 * t) 0 12, regFld s pgHop2 (Off.FRANGE + 4 * t) 16 13)

/-- The output blocks of the enabled decimation chains with their TIDs (spec/07_decimation_chain.md R190). -/
def chainOutputs (s : State) : List (Nat × Nat) :=
  (idxWhere 64 (fun i => regBit s pgDec0 (Off.DCH_CTRL + 0x20 * i) 0)).map (fun i =>
    (regFld s pgDec0 (Off.DCH_OUT + 0x20 * i) 0 12, regFld s pgDec0 (Off.DCH_SRC + 0x20 * i) 24 4))

/-- The words that the staging registers of HOP page 1 hold. -/
def stagedSub (s : State) : HopSub :=
  let r := reg s pgHop1
  { HopSub.init with
    daLo := r Off.SUB_DA_LO, daHi := r Off.SUB_DA_HI, vlan := r Off.SUB_VLAN, confRev := r Off.SUB_CONFREV
    layout := r Off.SUB_LAYOUT, frame := r Off.SUB_FRAME, policy := r Off.SUB_POLICY, svidLen := r Off.SUB_SVID_LEN
    svid := (List.range 16).map (fun i => r (Off.SVID + 4 * i)) }

/-- The result of a commit of `x` to entry `e`: LOCKED first, then the cases of R168 in their order. -/
def subResult (s : State) (e : Nat) (x : HopSub) : Nat :=
  let old := subOf s e
  let n := subSlots x
  let blocks := n * subBlocks x
  if regBit s pgHop0 Off.LOCK 1 then 8
  else if !subEn x then 0
  else if subNch x < 1 || 24 < subNch x || fld x.svidLen 0 7 < 1 || 64 < fld x.svidLen 0 7 || subSync x = 3 || subSubst x = 3
      || (subSubst x = 2 && (subHalf x < 1 || 60 - lagOf s < subHalf x)) || 512 < subSlot x + n
      || fld x.vlan 12 2 = 3 || subRate x = 3 then 5
  else if (if rateHz s = 4800 then subRate x = 0 else subRate x ≠ 0) then 4
  else if !(subTid x < numTids s.variant) then 7
  else if (otherSubs s e).any (fun y => spansMeet (subSlot x) n (subSlot y) (subSlots y)) then 1
  else if (otherSubs s e).any (fun y => spansMeet (subFrame x) blocks (subFrame y) (subSlots y * subBlocks y))
      || (chainOutputs s).any (fun o => spansMeet (subFrame x) blocks o.1 1) then 2
  else if subFrame x < 128 || subFrame x < (frameRange s (subTid x)).1 || (frameRange s (subTid x)).2 < subFrame x + blocks then 3
  else if (otherSubs s e).any (fun y => subDa x = subDa y && subAppid x = subAppid y && subSvid x = subSvid y) then 9
  else if subEn old && (x.layout ≠ old.layout || x.frame ≠ old.frame || subTid x ≠ subTid old) then 6
  else 0

/-- Arrival records of `n` slots from `a` cleared. -/
def clearSlots (a n : Nat) (h : Hopper) : Hopper :=
  { h with recs := h.recs.filter (fun r => !(64 * a ≤ r.1 && r.1 < 64 * (a + n)))
           source := h.source.filter (fun r => !(a ≤ r.1 && r.1 < a + n)) }

/-- WRITE of the subscription window (R168, R169): the staged entry is committed whole or refused. -/
def hopSubWrite (tid : Nat) (s : State) : State :=
  access tid pgHop1 Off.HSUB_CMD 2 (fun s => entryWrite (subTid (subOf s (regFld s pgHop1 Off.HSUB_SEL 0 9))) tid pgHop1 Off.HSUB_CMD (fun s =>
    let e := regFld s pgHop1 Off.HSUB_SEL 0 9
    let x := stagedSub s
    let r := subResult s e x
    let s1 := setReg s pgHop1 Off.HSUB_RESULT (word r)
    if r ≠ 0 then flagErr pgHop0 9 Off.HSUB_CMD tid true s1
    else
      let old := subOf s1 e
      let fresh := subEn x && !subEn old
      let y := { x with counters := if fresh then [0, 0, 0, 0, 0, 0] else old.counters, simStored := false }
      let h := if fresh then clearSlots (subSlot x) (subSlots x) s1.hop else s1.hop
      { s1 with hop := { h with subs := tset h.subs e y } }) s) s

/-- WRITE. -/
def execHopSubWrite (tid : Nat) (s : State) : Host.Outcome State Fault Refusal := .next (hopSubWrite tid s)

/-- READ of the subscription window (R183). -/
def hopSubRead (tid : Nat) (s : State) : State :=
  access tid pgHop1 Off.HSUB_CMD 1 (fun s =>
    let x := subOf s (regFld s pgHop1 Off.HSUB_SEL 0 9)
    let put := fun s (p : Nat × Word) => setReg s pgHop1 p.1 p.2
    ([(Off.SUB_DA_LO, x.daLo), (Off.SUB_DA_HI, x.daHi), (Off.SUB_VLAN, x.vlan), (Off.SUB_CONFREV, x.confRev),
      (Off.SUB_LAYOUT, x.layout), (Off.SUB_FRAME, x.frame), (Off.SUB_POLICY, x.policy), (Off.SUB_SVID_LEN, x.svidLen)]
      ++ (List.range 16).map (fun i => (Off.SVID + 4 * i, x.svid.getD i 0))).foldl put s) s

/-- READ. -/
def execHopSubRead (tid : Nat) (s : State) : Host.Outcome State Fault Refusal := .next (hopSubRead tid s)

/-- HOP_CFG_WRITE (R50, R178). -/
def hopCfgWrite (tid : Nat) (data : Word) (s : State) : State :=
  access tid pgHop0 Off.HOP_CFG data (fun s =>
    let l := fld data 0 5
    if l = lagOf s then s
    else if l < 1 ∨ 16 < l then refuse pgHop0 11 Off.HOP_CFG tid s
    else if (List.range 15).any (fun t => tenRunning s (t + 1)) then refuse pgHop0 8 Off.HOP_CFG tid s
    else if s.hop.subs.any (fun e => subEn e.2 && subSubst e.2 = 2 && 60 - l < subHalf e.2) then refuse pgHop0 11 Off.HOP_CFG tid s
    else setReg s pgHop0 Off.HOP_CFG (word l)) s

/-- HOP_CFG_WRITE. -/
def execHopCfgWrite (tid : Nat) (data : Word) (s : State) : Host.Outcome State Fault Refusal := .next (hopCfgWrite tid data s)

/-- Whether a frame range is refused with RANGE_BAD (R184). -/
def rangeBad (s : State) (t base limit : Nat) : Bool :=
  base < 128 || limit < base || 4096 < limit
  || (List.range 16).any (fun u => u ≠ 0 && u ≠ t && (let r := frameRange s u
        r.1 < r.2 && base < limit && spansMeet base (limit - base) r.1 (r.2 - r.1)))
  || s.hop.subs.any (fun e => subEn e.2 && subTid e.2 = t
        && !(base ≤ subFrame e.2 && subFrame e.2 + subSlots e.2 * subBlocks e.2 ≤ limit))
  || (chainOutputs s).any (fun o => o.2 = t && !(base ≤ o.1 && o.1 < limit))
  || tenRunning s t

/-- FRANGE_WRITE (R184); FRANGE(0) ignores writes. -/
def frangeWrite (tid t : Nat) (data : Word) (s : State) : State :=
  if t < 16 then
    access tid pgHop2 (Off.FRANGE + 4 * t) data (fun s =>
      if t = 0 then s
      else if rangeBad s t (fld data 0 12) (fld data 16 13) then refuse pgHop2 10 (Off.FRANGE + 4 * t) tid s
      else setReg s pgHop2 (Off.FRANGE + 4 * t) (data &&& 0x1FFF0FFF)) s
  else deny s

/-- FRANGE_WRITE. -/
def execFrangeWrite (tid tenant : Nat) (data : Word) (s : State) : Host.Outcome State Fault Refusal :=
  .next (frangeWrite tid tenant data s)

/-- ARR_CLR (R185). -/
def arrClr (tid : Nat) (s : State) : State :=
  ctrlCommand tid pgHop3 4 (fun s => (List.range 4).foldl (fun s p => setReg s pgHop3 (Off.ARR_MAX + 4 * p) 0) s) s

/-- ARR_CLR. -/
def execArrClr (tid : Nat) (s : State) : Host.Outcome State Fault Refusal := .next (arrClr tid s)

/-! ### Parsing (R170, R171) -/

/-- An element of the tag where the list begins with it, skipped where `keep` is not asked for. -/
def optElem (t : Nat) (l : List (Nat × List Byte)) : Option (List Byte) × List (Nat × List Byte) :=
  match l with
  | (t', c) :: r => if t' = t then (some c, r) else (none, l)
  | [] => (none, [])

/-- The elements of an ASDU in the order of R171, none for a BER failure. -/
def parseAsdu (c : List Byte) : Option Asdu :=
  match berAll c.length c with
  | none => none
  | some l0 =>
    let (svid, l1) := optElem 0x80 l0
    let (_, l2) := optElem 0x81 l1
    let (cnt, l3) := optElem 0x82 l2
    let (rev, l4) := optElem 0x83 l3
    let (_, l5) := optElem 0x84 l4
    let (syn, l6) := optElem 0x85 l5
    let (rate, l7) := optElem 0x86 l6
    let (dat, l8) := optElem 0x87 l7
    let (_, l9) := optElem 0x88 l8
    let (_, l10) := optElem 0x89 l9
    match svid, cnt, rev, syn, dat with
    | some sv, some cn, some rv, some sy, some d =>
      if cn.length = 2 && rv.length = 4 && sy.length = 1 && (match rate with | some r => r.length = 2 | none => true) && l10 = [] then
        some { svid := sv, smpCnt := beNat cn, confRev := beNat rv, smpSynch := beNat sy, smpRate := rate.map beNat, data := d }
      else none
    | _, _, _, _, _ => none

/-- A list of results, none where one is missing. -/
def allSome {α : Type} : List (Option α) → Option (List α)
  | [] => some []
  | none :: _ => none
  | some x :: r => (allSome r).map (x :: ·)

/-- The ASDUs of a SavPdu's content, or the reason of the first frame-level failure (R170: 2 BER, 3 NOASDU, 4 SVID_LONG). -/
def parseSavPdu (c : List Byte) : Except Nat (List Asdu) :=
  match berAll c.length c with
  | none => .error 2
  | some l0 =>
    let (no, l1) := optElem 0x80 l0
    let (_, l2) := optElem 0x81 l1
    let (sq, l3) := optElem 0xA2 l2
    match no, sq with
    | some n, some q =>
      if n = [] || 4 < n.length || l3 ≠ [] then .error 2
      else
        match berAll q.length q with
        | none => .error 2
        | some es =>
          if es.any (fun e => e.1 ≠ 0x30) then .error 2
          else
            match allSome (es.map (fun e => parseAsdu e.2)) with
            | none => .error 2
            | some as =>
              if beNat n < 1 || 8 < beNat n || beNat n ≠ as.length then .error 3
              else if as.any (fun a => 64 < a.svid.length) then .error 4
              else .ok as
    | _, _ => .error 2

/-- The APPID, the simulate bit and the ASDUs of the octets after the EtherType, or the reason of a frame-level failure. -/
def parseSv (p : List Byte) : Nat × Bool × Except Nat (List Asdu) :=
  let appid := beNat (p.take 2)
  let len := beNat ((p.drop 2).take 2)
  let sim := (beNat ((p.drop 4).take 2)) / 2 ^ 15 % 2 = 1
  let pdu := (p.take len).drop 8
  let res :=
    if len < 8 || p.length < len then .error 1
    else
      match pdu with
      | t :: l :: r =>
        let lo := if l.toNat < 0x80 then some 0 else if l = 0x81 then some 1 else if l = 0x82 then some 2 else none
        match lo with
        | none => .error 2
        | some k =>
          if r.length < k then .error 1
          else
            let n := if k = 0 then l.toNat else beNat (r.take k)
            if r.length < k + n then .error 1
            else if t ≠ 0x60 then .error 2
            else parseSavPdu ((r.drop k).take n)
      | _ => .error 1
  (appid, sim, res)

/-! ### Rejection and storing (R170-R174, R182, R184, R185) -/

/-- The counter of page 0 that a reason increments (R182). -/
def rejectCounter (r : Nat) : Nat :=
  if r ≤ 4 then Off.FRAME_ERR else if r = 5 then Off.UNMATCHED else if r = 10 then Off.EARLY else if r = 11 then Off.LATE
  else if r = 12 then Off.DUP else Off.ASDU_REJ

/-- A rejection recorded: counter, PARSE_LAST, REJECT, and for a matched entry its own counter and its tenant's event. -/
def rejectSv (r port appid : Nat) (entry : Option Nat) (s : State) : State :=
  let info := r % 16 + port % 4 * 16 + (match entry with | some e => 64 + e % 512 * 128 | none => 0) + appid % 2 ^ 16 * 2 ^ 16
  let s1 := setIrq pgHop0 8 (setReg (countReg s pgHop0 (rejectCounter r) 1) pgHop0 Off.PARSE_LAST (word info))
  match entry with
  | none => s1
  | some e =>
    let x := subOf s1 e
    let i := if r = 11 then 1 else if r = 12 then 2 else 3
    let h := { s1.hop with
      subs := tset s1.hop.subs e { x with counters := x.counters.modify i (· + 1) }
      lateSince := if r = 11 then s1.hop.lateSince + 1 else s1.hop.lateSince }
    setTenEvt pgHop2 (Off.HTEN_EVT + 4 * subTid x) (subTid x) 2 8 { s1 with hop := h }

/-- The arrival record of slot `sl` for sample tick `k`, none where the ring entry belongs to another tick (R174). -/
def recAt (h : Hopper) (sl k : Nat) : Option HopRec :=
  match h.recs.find? (fun r => r.1 = 64 * sl + k % 64) with
  | some (_, r) => if r.tick = k % 65536 && r.present then some r else none
  | none => none

/-- Whether a sample is present for slot `sl` and sample tick `k` (R174). -/
def presentAt (h : Hopper) (sl k : Nat) : Bool := match recAt h sl k with | some r => !r.unsync | none => false

/-- The entry that an ASDU matches (R170 reason 5). -/
def matchSub (s : State) (da : Nat) (tag : Option Nat) (appid : Nat) (svid : List Byte) : Option (Nat × HopSub) :=
  s.hop.subs.find? (fun p => subEn p.2 && subDa p.2 = da && subAppid p.2 = appid && vlanMatch (fld p.2.vlan 12 2) (fld p.2.vlan 0 12) tag
    && subSvid p.2 = svid)

/-- The tick count of the tick interval that holds instant `st` (R172). -/
def stampTick (s : State) (st : Nat) : Nat :=
  if s.tick.running then
    (match s.tick.edgeAt with | some e => if e ≤ st then s.tick.count else s.tick.count - 1 | none => s.tick.count)
  else countAt (rateHz s) (tbNs s 0 st)

/-- A signed value and a quality from eight octets of seqData, big-endian. -/
def sampleOf (d : List Byte) (c : Nat) : Word × Word :=
  (word (beNat ((d.drop (8 * c)).take 4)), word (beNat ((d.drop (8 * c + 4)).take 4)))

/-- The checks of reasons 6-9, 13 and 14, in the order of R170; 0 where all pass. -/
def asduReason (x : HopSub) (port : Nat) (sim : Bool) (a : Asdu) : Nat :=
  if !(bit x.policy (20 + port)) then 14
  else if (sim && !subSim x) || (!sim && subSim x && x.simStored) then 13
  else if a.confRev ≠ x.confRev.toNat then 6
  else if subHz x ≤ a.smpCnt then 7
  else if (match a.smpRate with | some r => decide (r ≠ subHz x) | none => false) then 8
  else if a.data.length ≠ 8 * subNch x then 9
  else 0

/-- An ASDU stored in its ring entry with its arrival record (R173, R181). -/
def storeAsdu (e sl k j port lan : Nat) (sim : Bool) (a : Asdu) (tm : Nat) (s : State) : State :=
  let x := subOf s e
  let at16 := tickInstant (rateHz s) k + (if subRate x = 2 then j * (10 ^ 9 * 2 ^ 16) / 14400 else 0)
  let dl := min 0xFFFFFFFF ((tbSub s 0 tm - at16) / 2 ^ 16)
  let syn := if a.smpSynch ≤ 2 then a.smpSynch else 0
  let r : HopRec :=
    { tick := k % 65536, present := true, unsync := decide (syn < subSync x), sim := sim, port := port, lan := lan,
      synch := a.smpSynch, delay := dl }
  let i := 64 * sl + k % 64
  let h := { s.hop with
    ring := tset s.hop.ring i ((List.range (subNch x)).map (fun c => ((sampleOf a.data c).1, (sampleOf a.data c).2 &&& 0x3FFF)))
    recs := tset s.hop.recs i r
    subs := tset s.hop.subs e { x with counters := x.counters.modify 0 (· + 1), simStored := x.simStored || sim } }
  let s1 := countReg { s with hop := h } pgHop0 Off.RX_ASDU 1
  let old := (reg s1 pgHop3 (Off.ARR_MAX + 4 * port)).toNat
  if old < dl then setReg s1 pgHop3 (Off.ARR_MAX + 4 * port) (word dl) else s1

/-- One ASDU judged, and stored or rejected (R170, R172). An ASDU of a tenant under reset is discarded without counting
(R180), and so is every one in a mode that does not permit the real-time units (spec/17_modes_clocks_power.md R421; assumption 42). -/
def takeAsdu (da : Nat) (tag : Option Nat) (appid port lan stamp tm : Nat) (sim : Bool) (a : Asdu) (s : State) : State :=
  match matchSub s da tag appid a.svid with
  | none => rejectSv 5 port appid none s
  | some (e, x) =>
    if (tenOf s (subTid x)).state = .resetting || !realTimeMode s then s
    else
      let why := asduReason x port sim a
      if why ≠ 0 then rejectSv why port appid (some e) s
      else if (tbOf s 0).state = .stopped then rejectSv 10 port appid (some e) s
      else
        let f := rateHz s
        let m := if subRate x = 2 then 3 else 1
        let st := a.smpCnt / m
        let j := a.smpCnt % m
        let at0 := stampTick s stamp
        let pos := at0 % f
        let b0 : Int := ((pos + f - st) % f : Nat)
        let back := if (f / 2 : Nat) < b0 then b0 - f else b0
        let k := ((at0 : Int) - back).toNat
        let sl := subSlot x + j
        if (match s.hop.lastSealed with | some l => decide (k ≤ l) | none => false) then rejectSv 11 port appid (some e) s
        else if nowTick s + 2 < k then rejectSv 10 port appid (some e) s
        else if presentAt s.hop sl k then rejectSv 12 port appid (some e) s
        else storeAsdu e sl k j port lan sim a tm s

/-- SV_FRAME (R170): a sampled-value frame of a port, ring writes completing at `tm`. -/
def svFrame (port : Nat) (frame : List Byte) (tm : Nat) (s : State) : State :=
  let s0 := advance s tm
  let h := takeHanded port frame tm s0
  let (da, tag, _, ty, p) := etherHeader frame
  if !(regBit s0 pgHop0 Off.CTRL 0) || !(port < numPorts s.variant) || ty ≠ 0x88BA then h.2
  else
    let s1 := countReg h.2 pgHop0 Off.RX_FRAMES 1
    let (appid, sim, res) := parseSv p
    match res with
    | .error r => rejectSv r port appid none s1
    | .ok as => as.foldl (fun s a => takeAsdu da tag appid port h.1.2 h.1.1 tm sim a s) s1

/-- SV_FRAME. -/
def execSvFrame (port : Nat) (frame : List Byte) (tm : Nat) (s : State) : Host.Outcome State Fault Refusal :=
  .next (svFrame port frame tm s)

/-! ### Seal and substitution (R175, R176) -/

/-- The count c and the latest present sample tick before k (R175), looking back from `k - i`. -/
def lookBack (h : Hopper) (sl k : Nat) : Nat → Nat → Nat × Option Nat
  | 0, i => (i, none)
  | n + 1, i => if i ≤ k && presentAt h sl (k - i) then (i, some (k - i)) else lookBack h sl k n (i + 1)

/-- The quality of a substitute from a sample's quality (R176). -/
def substQuality (q : Word) : Word :=
  let v := fld q 0 2
  ((q &&& 0x3FFC) ||| (if v = 0 ∨ v = 3 then 3 else 1)) ||| 0x400

/-- Saturating negation (R175). -/
def satNeg (v : Word) : Word := if v = 0x80000000 then 0x7FFFFFFF else -v

/-- The decision of a slot: SOURCE, the count, the status words and the channel entries. -/
def decideSlot (s : State) (x : HopSub) (sl k : Nat) : Nat × (Word × Word) × List (Word × Word) :=
  let h := s.hop
  let en := regBit s pgHop0 Off.CTRL 0
  let here := en && presentAt h sl k
  let back := lookBack h sl k 15 1
  let c := if here then 0 else back.1
  let rec0 := if en then recAt h sl k else none
  let aside := match rec0 with | some r => r.unsync | none => false
  let miss : Word := if rec0.isSome then 0 else 0x20000
  let uns : Word := if aside then 0x40000 else 0
  let cnt : Word := word (min c 15 * 2 ^ 24)
  let ringOf := fun t => tget [] h.ring (64 * sl + t % 64)
  let simOf := fun t => match recAt h sl t with | some r => r.sim | none => false
  let simBit := fun (b : Bool) => if b then (0x80000 : Word) else 0
  let stat := fun (src : Nat) (sim : Bool) (delay : Nat) =>
    (word (src + min c 15 * 16 + b2n aside * 256 + b2n sim * 512), word delay)
  if here then
    (0, stat 0 (simOf k) (match rec0 with | some r => r.delay | none => 0),
      (ringOf k).map (fun v => (v.1, (v.2 &&& 0x3FFF) ||| simBit (simOf k))))
  else if subSubst x = 1 && c ≤ subHold x && back.2.isSome then
    let t := back.2.getD 0
    (1, stat 1 (simOf t) 0xFFFFFFFF,
      (ringOf t).map (fun v => (v.1, substQuality v.2 ||| 0x10000 ||| miss ||| uns ||| simBit (simOf t) ||| cnt)))
  else if subSubst x = 2 && c ≤ subHold x && subHalf x ≤ k && presentAt h sl (k - subHalf x) then
    let t := k - subHalf x
    (2, stat 2 (simOf t) 0xFFFFFFFF,
      (ringOf t).map (fun v => (satNeg v.1, substQuality v.2 ||| 0x10000 ||| miss ||| uns ||| simBit (simOf t) ||| 0x100000 ||| cnt)))
  else
    (3, stat 3 false 0xFFFFFFFF, List.replicate (subNch x) (0, 0x80000001 ||| miss ||| uns ||| cnt))

/-- The frame of sample tick `k` with every slot of every enabled entry decided. -/
def formFrame (s : State) (k : Nat) : HopFrame :=
  let f0 : HopFrame := { HopFrame.init with
    tick := some k, sealTick := s.tick.count % 2 ^ 32, lag := lagOf s, rate := if rateHz s = 4000 then 0 else 1, late := s.hop.lateSince }
  s.hop.subs.foldl (fun f p =>
    let x := p.2
    if !subEn x then f
    else (List.range (subSlots x)).foldl (fun f j =>
      let sl := subSlot x + j
      let d := decideSlot s x sl k
      let at0 := 8 * (subFrame x + j * subBlocks x)
      { f with
        received := f.received + b2n (d.1 = 0)
        substituted := f.substituted + b2n (d.1 = 1 ∨ d.1 = 2)
        invalid := f.invalid + b2n (d.1 = 3)
        status := tset f.status sl d.2.1
        map := if d.1 = 0 then f.map else f.map ++ [sl]
        chan := (List.range d.2.2.length).foldl (fun t c => tset t (at0 + c) (d.2.2.getD c (0, 0))) f.chan }) f) f0

/-- SEAL_POINT (R175): at ME cycle 2,400 sample tick n − L is sealed; a later ring write is late (R173). -/
def sealPoint (tm : Nat) (s : State) : State :=
  let s0 := advance s tm
  if s0.tick.edgeAt.isSome && !s0.tick.sealedTick && 2400 ≤ cycleOf s0 tm && lagOf s0 ≤ s0.tick.count then
    let k := s0.tick.count - lagOf s0
    { s0 with
      tick := { s0.tick with sealedTick := true }
      hop := { s0.hop with forming := some (formFrame s0 k), lastSealed := some k, lateSince := 0 } }
  else s0

/-- SEAL_POINT. -/
def execSealPoint (tm : Nat) (s : State) : Host.Outcome State Fault Refusal := .next (sealPoint tm s)

/-- The per-tenant events of a slot whose SOURCE goes from `was` to `is` (R184). -/
def slotEvent (was is tid : Nat) (s : State) : State :=
  let m : Word := if is = 0 then (if was = 0 then 0 else 4) else if is = 3 then (if was = 3 then 0 else 2) else (if was = 0 then 1 else 0)
  if m = 0 then s else setTenEvt pgHop2 (Off.HTEN_EVT + 4 * tid) tid 2 m s

/-- The counters and events of a completed seal, entry by entry (R182, R184, R185). -/
def sealEvents (f : HopFrame) (s : State) : State :=
  s.hop.subs.foldl (fun s p =>
    let x := p.2
    if !subEn x then s
    else (List.range (subSlots x)).foldl (fun s j =>
      let sl := subSlot x + j
      let src := fld (tget nosubStatus f.status sl).1 0 2
      let y := subOf s p.1
      let cs := if src = 1 ∨ src = 2 then y.counters.modify 4 (· + 1) else if src = 3 then y.counters.modify 5 (· + 1) else y.counters
      let s1 := slotEvent (tget 3 s.hop.source sl) src (subTid x) s
      { s1 with hop := { s1.hop with subs := tset s1.hop.subs p.1 { y with counters := cs }, source := tset s1.hop.source sl src } }) s) s

/-- The frame decided at the seal point becomes the sealed frame, with its totals and flags (R164, R182). -/
def completeSeal (s : State) : State :=
  match s.hop.forming with
  | none => s
  | some f =>
    let k := f.tick.getD 0
    let odd := k % 2 = 1
    let h := { s.hop with
      forming := none, bufOdd := odd
      even := if odd then s.hop.even else f
      odd := if odd then f else s.hop.odd }
    let s1 := sealEvents f { s with hop := h }
    let s2 := setReg s1 pgHop0 Off.SEAL_TICK (word k)
    let s3 := setReg s2 pgHop0 Off.SEAL_SUM (word (f.received % 1024 + f.substituted % 1024 * 2 ^ 10 + f.invalid % 1024 * 2 ^ 20))
    let s4 := countReg (countReg s3 pgHop0 Off.SUBST f.substituted) pgHop0 Off.INVALID f.invalid
    setIrq pgHop0 (1 ||| (if 0 < f.substituted then 2 else 0) ||| (if 0 < f.invalid then 4 else 0)) s4

/-! ### Resets (R179, R180) -/

/-- A soft reset of the Hopper: counters, arrival records, hold state and both buffers clear; configuration stays. -/
def hopSoftReset (s : State) : State :=
  let s1 := { s with hop := { s.hop with
    ring := [], recs := [], even := HopFrame.init, odd := HopFrame.init, bufOdd := false, lastSealed := none, lateSince := 0, source := []
    forming := none, subs := s.hop.subs.map (fun p => (p.1, { p.2 with counters := [0, 0, 0, 0, 0, 0] })) } }
  [Off.RX_FRAMES, Off.RX_ASDU, Off.FRAME_ERR, Off.UNMATCHED, Off.ASDU_REJ, Off.LATE, Off.EARLY, Off.DUP, Off.SUBST, Off.INVALID,
    Off.SEAL_TICK, Off.SEAL_SUM, Off.PARSE_LAST].foldl (fun s o => setReg s pgHop0 o 0) s1

/-- The arrival records and hold state of a tenant's slots, those that its enabled entries use, clear (R180). -/
def hopTenReset (t : Nat) (s : State) : State :=
  s.hop.subs.foldl (fun s p =>
    if subEn p.2 && subTid p.2 = t then { s with hop := clearSlots (subSlot p.2) (subSlots p.2) s.hop } else s) s

/-! ### Mailbox selectors (R185) -/

/-- Selector 0x0010 + (e >> 8) of HOP page 3. -/
def subscriptionCountersSnapshot (tid e : Nat) (s : State) : State :=
  selectMailbox tid pgHop3 (selWord (0x10 + e / 256) (e % 256)) (e < 512) s

/-- SUBSCRIPTION_COUNTERS_SNAPSHOT. -/
def execSubscriptionCountersSnapshot (tid entry : Nat) (s : State) : Host.Outcome State Fault Refusal :=
  .next (subscriptionCountersSnapshot tid entry s)

/-- SUBSTITUTION_MAP_SNAPSHOT: selector 0x0020 of HOP page 3. -/
def execSubstitutionMapSnapshot (tid index : Nat) (s : State) : Host.Outcome State Fault Refusal :=
  .next (selectMailbox tid pgHop3 (selWord 0x20 index) (index < 3) s)

end Sys2Proof.Machine
end

