-- ==== Sys2Proof/Machine/Decimation.lean ====
section
/-!
DEFINITION. The Decimation chain: filters, bank swap, settling and the output entries (spec/07_decimation_chain.md).
-/
namespace Sys2Proof.Machine

/-- Chain `c`. -/
def chainOf (s : State) (c : Nat) : Chain := tget Chain.init s.dec.chains c

/-- A register of chain `c`. -/
def dch (s : State) (c off : Nat) : Word := reg s pgDec0 (off + 0x20 * c)

def chainEn (s : State) (c : Nat) : Bool := bit (dch s c Off.DCH_CTRL) 0
def chainTid (s : State) (c : Nat) : Nat := fld (dch s c Off.DCH_SRC) 24 4
/-- D = 2^K (R186). -/
def chainRatio (s : State) (c : Nat) : Nat := 2 ^ fld (dch s c Off.DCH_OUT) 20 3
/-- BANK_CFG of bank `b` of chain `c`. -/
def bankCfg (s : State) (c b : Nat) : Word := dch s c (Off.BANK_CFG0 + 4 * b)
def bankTaps (s : State) (c b : Nat) : Nat := fld (bankCfg s c b) 0 8
/-- Coefficient `i` of bank `b` of chain `c`. -/
def coefOf (s : State) (c b i : Nat) : Word := tget 0 s.dec.coef (128 * (2 * c + b) + i)

/-- The banks that produce the outputs: both during a fade (R189, R195). -/
def chainBanks (x : Chain) : List Nat := if x.fade.isSome then [0, 1] else [x.act]

/-- N of R189 and R197: the largest TAPS of the banks that produce the outputs. -/
def chainSpan (s : State) (c : Nat) : Nat := (chainBanks (chainOf s c)).foldl (fun m b => max m (bankTaps s c b)) 0

/-- Whether the chain is SETTLING: its input count lies below N (R199). -/
def settling (s : State) (c : Nat) : Bool := (chainOf s c).count < chainSpan s c

/-- DCH_GD for bank `b` (R193). -/
def groupDelay (s : State) (c b : Nat) : Nat :=
  if bit (bankCfg s c b) 8 then fld (bankCfg s c b) 16 16 else (bankTaps s c b - 1) * 128

/-- The status registers of a chain hold what its state says (R199). -/
def showChain (c : Nat) (s : State) : State :=
  let x := chainOf s c
  let st := word (x.act % 2 + b2n x.fade.isSome * 2 + b2n (settling s c) * 4
    + (match x.fade with | some f => f.step % 2048 * 16 | none => 0) + min x.count 255 * 2 ^ 16 + x.result % 8 * 2 ^ 24 + x.why % 8 * 2 ^ 28)
  let s1 := setReg s pgDec0 (Off.DCH_STAT + 0x20 * c) (st ||| (dch s c Off.DCH_STAT &&& 0x80000000))
  let s2 := setReg s1 pgDec0 (Off.DCH_GD + 0x20 * c) (word (groupDelay s c x.gdBank))
  setReg s2 pgDec0 (Off.DCH_CTRL + 0x20 * c) ((dch s c Off.DCH_CTRL &&& 0x71) ||| (if x.swapPending then 4 else 0))

/-- Chain `c` changed. -/
def updChain (c : Nat) (f : Chain → Chain) (s : State) : State :=
  showChain c { s with dec := { s.dec with chains := tset s.dec.chains c (f (chainOf s c)) } }

/-- Event `i` of a chain: IRQ_STAT of page 0 where the page has the flag, and the class 2 event of its tenant (R199, R200). -/
def chainEvent (c i : Nat) (s : State) : State :=
  let t := chainTid s c
  setTenEvt pgDec1 (Off.DTEN_EVT + 4 * t) t 2 (1 <<< i) (if i < 3 then setIrq pgDec0 (1 <<< i) s else s)

/-- A synchronising reset (R197). -/
def chainReset (c : Nat) (s : State) : State :=
  updChain c (fun x => { x with
    inputs := [], count := 0, prev := none, firstDone := false, skip := s.hop.forming.isSome
    act := if x.fade.isSome then 1 - x.act else x.act, fade := none }) s

/-- A synchronising reset of a chain whose output entry has nothing to repeat (assumption 17). -/
def chainRestart (c : Nat) (s : State) : State := updChain c (fun x => { x with out := none }) (chainReset c s)

/-- The output entry of a chain that is disabled reads as unused in both frames from then on (R164, R190). -/
def clearOutput (c : Nat) (s : State) : State :=
  let k := 8 * fld (dch s c Off.DCH_OUT) 0 12 + fld (dch s c Off.DCH_OUT) 16 3
  let drop := fun (f : HopFrame) => { f with chan := f.chan.filter (fun e => e.1 ≠ k) }
  if chainEn s c then { s with hop := { s.hop with even := drop s.hop.even, odd := drop s.hop.odd } } else s

/-- CTRL.EN of the page clears: the output entry of every chain reads as unused (R190). -/
def chainsDark (s : State) : State := (List.range 64).foldl (fun s c => clearOutput c s) s

/-- The BANK check of R191. -/
def bankBad (s : State) (c b : Nat) : Bool :=
  let n := bankTaps s c b
  n < 1 || 128 < n || (!(bit (bankCfg s c b) 8) && (List.range n).any (fun i => coefOf s c b i ≠ coefOf s c b (n - 1 - i)))

/-- The enabled subscription that holds slot `sl`. -/
def subOfSlot (s : State) (sl : Nat) : Option HopSub :=
  (s.hop.subs.find? (fun p => subEn p.2 && subSlot p.2 ≤ sl && sl < subSlot p.2 + subSlots p.2)).map (·.2)

/-- The result of a commit of chain `c` (R191, R459). -/
def chainResult (s : State) (c : Nat) : Nat :=
  let src := dch s c Off.DCH_SRC
  let out := dch s c Off.DCH_OUT
  let t := fld src 24 4
  let blk := fld out 0 12
  let ent := fld out 16 3
  let k := fld out 20 3
  if regBit s pgDec0 Off.LOCK 0 then 7
  else if (match subOfSlot s (fld src 0 9) with
      | some x => decide ((t ≠ 0 ∧ subTid x ≠ t) ∨ subNch x ≤ fld src 16 5)
      | none => true) then 1
  else if blk < 128 || blk < (frameRange s t).1 || (frameRange s t).2 ≤ blk then 2
  else if s.hop.subs.any (fun p => subEn p.2 && subFrame p.2 ≤ blk && blk < subFrame p.2 + subSlots p.2 * subBlocks p.2)
      || (List.range 64).any (fun o => o ≠ c && chainEn s o && fld (dch s o Off.DCH_OUT) 0 12 = blk && fld (dch s o Off.DCH_OUT) 16 3 = ent) then 3
  else if k < 1 || 5 < k then 4
  else if bankBad s c (chainOf s c).act then 5
  else if !(t < numTids s.variant) then 6
  else 0

/-- The reason for which a SWAP is ignored, 0 where it is taken (R196). -/
def swapWhy (s : State) (c : Nat) : Nat :=
  let x := chainOf s c
  if x.fade.isSome then 1 else if x.swapPending then 2 else if chainEn s c && settling s c then 3
  else if bankBad s c (1 - x.act) then 4 else 0

/-- SWAP = 1 (R195, R196). -/
def chainSwap (c : Nat) (s : State) : State :=
  let why := swapWhy s c
  if why ≠ 0 then
    chainEvent c 2 (updChain c (fun x => { x with why := why }) (orReg s pgDec0 (Off.DCH_STAT + 0x20 * c) 0x80000000))
  else if chainEn s c then updChain c (fun x => { x with swapPending := true }) s
  else updChain c (fun x => { x with act := 1 - x.act, gdBank := 1 - x.act }) s

/-- A write of DCH_CTRL (R191, R195-R197, R199): EN, then SYNC, then SWAP. -/
def dchCtrlWrite (tid c : Nat) (data : Word) (s : State) : State :=
  let off := Off.DCH_CTRL + 0x20 * c
  if 64 ≤ c then deny s
  else access tid pgDec0 off data (fun s => entryWrite (chainTid s c) tid pgDec0 off (fun s =>
    let rising := bit data 0 && !chainEn s c
    let res := chainResult s c
    if fld data 4 3 = 7 then deny s
    else if rising && res ≠ 0 then refuse pgDec0 9 off tid (updChain c (fun x => { x with result := res }) s)
    else
      let s1 := setReg s pgDec0 off ((data &&& 0x71) ||| (dch s c Off.DCH_CTRL &&& 4))
      let s2 := if rising then chainRestart c (updChain c (fun x => { x with result := 0, gdBank := x.act }) s1)
        else if !(bit data 0) then setReg (updChain c (fun x => { x with out := none }) (clearOutput c s)) pgDec0 off
          ((data &&& 0x71) ||| (dch s c Off.DCH_CTRL &&& 4)) else s1
      let s3 := if bit data 1 then chainReset c s2 else s2
      if bit data 2 then chainSwap c s3 else s3) s) s

/-- CHAIN_ENABLE (R191). -/
def execChainEnable (tid chain : Nat) (data : Word) (s : State) : Host.Outcome State Fault Refusal :=
  .next (dchCtrlWrite tid chain data s)

/-- CHAIN_SYNC (R197): SYNC = 1, EN and FADE as they stand. -/
def execChainSync (tid chain : Nat) (s : State) : Host.Outcome State Fault Refusal :=
  .next (dchCtrlWrite tid chain ((dch s chain Off.DCH_CTRL &&& 0x71) ||| 2) s)

/-- SWAP (R195): SWAP = 1, EN and FADE as they stand. -/
def execSwap (tid chain : Nat) (s : State) : Host.Outcome State Fault Refusal :=
  .next (dchCtrlWrite tid chain ((dch s chain Off.DCH_CTRL &&& 0x71) ||| 4) s)

/-- A write of DCH_SRC, DCH_OUT or a BANK_CFG word (R192, R194). -/
def dchWrite (tid off : Nat) (data : Word) (s : State) : State :=
  let c := (off - 0x400) / 0x20
  access tid pgDec0 off data (fun s => entryWrite (chainTid s c) tid pgDec0 off (fun s =>
    let o := off % 0x20
    if (o = 0 ∨ o = 4) ∧ chainEn s c then refuse pgDec0 8 off tid s
    else
      let b := (o - 0x18) / 4
      let x := chainOf s c
      if 0x18 ≤ o ∧ (((chainEn s c : Bool) ∧ x.act = b) ∨ x.swapPending ∨ x.fade.isSome) then refuse pgDec0 10 off tid s
      else showChain c (plainWrite pgDec0 off data s)) s) s

/-- A write of COEF(i) (R194, R200). -/
def coefWrite (tid off : Nat) (data : Word) (s : State) : State :=
  access tid pgDec1 off data (fun s => entryWrite (chainTid s (regFld s pgDec1 Off.COEF_SEL 0 6)) tid pgDec1 off (fun s =>
    let c := regFld s pgDec1 Off.COEF_SEL 0 6
    let b := regFld s pgDec1 Off.COEF_SEL 8 1
    let x := chainOf s c
    if (chainEn s c ∧ x.act = b) ∨ x.swapPending ∨ x.fade.isSome then refuse pgDec1 10 off tid s
    else { s with dec := { s.dec with coef := tset s.dec.coef (128 * (2 * c + b) + (off - Off.COEF) / 4) data } }) s) s

/-! ### Outputs (R186-R190, R195, R197) -/

/-- The exact result of bank `b`, rounded and clamped, and whether it was clamped (R188). -/
def fir (s : State) (c b : Nat) (xs : List (Word × Word)) : Word × Bool :=
  let acc : Int := (List.range (bankTaps s c b)).foldl (fun a i => a + (coefOf s c b i).toInt * ((xs.getD i (0, 0)).1).toInt) 0
  let r := (acc + 2 ^ 29).fdiv (2 ^ 30)
  if 0x7FFFFFFF < r then (0x7FFFFFFF, true) else if r < -0x80000000 then (0x80000000, true) else (BitVec.ofInt 32 r, false)

/-- The worse of two validities: invalid, then questionable, then good; 0b10 counts as invalid (R189). -/
def worstValidity (qs : List Word) : Word :=
  if qs.any (fun q => fld q 0 2 = 1 || fld q 0 2 = 2) then 1 else if qs.any (fun q => fld q 0 2 = 3) then 3 else 0

/-- The quality of an output that is not settling, without NEW (R189). -/
def outputQuality (qs : List Word) (sat first fading : Bool) (bank : Nat) : Word :=
  let o := qs.foldl (fun a q => a ||| q) 0
  worstValidity qs ||| (o &&& 0x800B1FFC) ||| 0x2000 ||| (if sat then 0x00400004 else 0) ||| (if first then 0x02000000 else 0)
    ||| (if fading then 0x04000000 else 0) ||| (if bank = 1 then 0x08000000 else 0)

/-- The value of a fade step (R195). -/
def fadeValue (old new : Word) (fade j : Nat) : Word :=
  BitVec.ofInt 32 (old.toInt + ((new.toInt - old.toInt) * j + 2 ^ (fade + 3)).fdiv (2 ^ (fade + 4)))

/-- Whether a pending swap starts at output tick `k` (R195). -/
def swapDue (s : State) (c k : Nat) : Bool :=
  (chainOf s c).swapPending && k % chainRatio s c = 0 && 0 ≤ (word k - dch s c Off.DCH_SWAP_AT).toInt

/-- The cross-fade begins: FADE is read (R195). -/
def beginFade (c : Nat) (s : State) : State :=
  updChain c (fun x => { x with swapPending := false, fade := some ⟨fld (dch s c Off.DCH_CTRL) 4 3, 0⟩ }) s

/-- A fade whose step F has been written ends (R195). -/
def endFade (c : Nat) (s : State) : State :=
  match (chainOf s c).fade with
  | some f =>
    if 2 ^ (f.fade + 4) ≤ f.step then chainEvent c 1 (updChain c (fun x => { x with act := 1 - x.act, fade := none }) s) else s
  | none => s

/-- The output of output tick `k` (R188, R189, R195, R197). -/
def chainOutput (c k : Nat) (s : State) : State :=
  let s0 := if swapDue s c k then beginFade c s else s
  let x0 := chainOf s0 c
  let x : Chain := { x0 with fade := x0.fade.map (fun f => ⟨f.fade, f.step + 1⟩) }
  let n := chainSpan s0 c
  let gd := if x.fade.isSome then x.gdBank else x.act
  if x.count < n then updChain c (fun _ => { x with out := some (k, 0, 0x81002001), gdBank := gd }) s0
  else
    let first := !x.firstDone
    let cur := fir s0 c x.act x.inputs
    let inc := fir s0 c (1 - x.act) x.inputs
    let y := match x.fade with
      | some f => (fadeValue cur.1 inc.1 f.fade f.step, cur.2 || inc.2, 1 - x.act)
      | none => (cur.1, cur.2, x.act)
    let q := outputQuality ((x.inputs.take n).map (·.2)) y.2.1 first x.fade.isSome y.2.2
    let s1 := updChain c (fun _ => { x with out := some (k, y.1, q), firstDone := true, gdBank := gd }) s0
    let s2 := if first then chainEvent c 0 s1 else s1
    if y.2.1 then chainEvent c 3 s2 else s2

/-- The entry that the chain reads in a frame, as an HRD reads it (R186). -/
def chainInput (s : State) (c : Nat) (f : HopFrame) : Word × Word :=
  let sl := fld (dch s c Off.DCH_SRC) 0 9
  let ch := fld (dch s c Off.DCH_SRC) 16 5
  match subOfSlot s sl with
  | some x => chanEntry f (subFrame x + (sl - subSlot x) * subBlocks x + ch / 8) (ch % 8)
  | none => unusedEntry

/-- Whether a chain works: enabled, with the page enabled, and its tenant not behind the fence of a reset (R190, R198). -/
def chainWorks (s : State) (c : Nat) : Bool :=
  chainEn s c && regBit s pgDec0 Off.CTRL 0 && (tenOf s (chainTid s c)).state ≠ .resetting

/-- A chain takes the frame of sample tick `k` (R190, R197). -/
def chainTake (c k : Nat) (f : HopFrame) (s : State) : State :=
  let x := chainOf s c
  if x.skip then updChain c (fun x => { x with skip := false }) s
  else if (match x.prev with | some p => decide (k ≠ p + 1) | none => false) then chainReset c s
  else
    let s1 := updChain c (fun x => { x with
      inputs := (chainInput s c f :: x.inputs).take 128, count := x.count + 1, prev := some k }) (endFade c s)
    if k % chainRatio s c = 0 then chainOutput c k s1 else s1

/-- The latest frame with the output entries of the chains (R190). -/
def placeOutputs (s : State) : State :=
  let f := latestFrame s.hop
  let k := f.tick.getD 0
  let t := (List.range 64).foldl (fun t c =>
    if !chainWorks s c then t
    else match (chainOf s c).out with
      | none => t
      | some (j, v, q) =>
        let new : Word := if k = j + 1 then 0x00800000 else 0
        tset t (8 * fld (dch s c Off.DCH_OUT) 0 12 + fld (dch s c Off.DCH_OUT) 16 3) (v, q ||| new)) f.chan
  let f1 := { f with chan := t }
  { s with hop := { s.hop with even := if s.hop.bufOdd then s.hop.even else f1, odd := if s.hop.bufOdd then f1 else s.hop.odd } }

/-- The Decimation chain at a completed seal: the outputs of earlier sample ticks in this frame, then its inputs (R190). -/
def chainsTake (s : State) : State :=
  let s1 := placeOutputs s
  let f := latestFrame s1.hop
  (List.range 64).foldl (fun s c => if chainWorks s c then chainTake c (f.tick.getD 0) f s else s) s1

/-- SWAP_START (R195): where the sample tick that is being sealed is the chain's first output tick at or after SWAP_AT, its
fade begins; the seal's completion begins it otherwise. -/
def swapStart (c tm : Nat) (s : State) : State :=
  let s0 := advance s tm
  match s0.hop.forming with
  | some f =>
    let x := chainOf s0 c
    let k := f.tick.getD 0
    if c < 64 && chainWorks s0 c && !x.skip && (match x.prev with | some p => decide (k = p + 1) | none => true) && swapDue s0 c k
    then beginFade c (endFade c s0) else s0
  | none => s0

/-- SWAP_START. -/
def execSwapStart (chain tm : Nat) (s : State) : Host.Outcome State Fault Refusal := .next (swapStart chain tm s)

/-- FADE_END (R195). -/
def fadeEnd (c tm : Nat) (s : State) : State := if c < 64 then endFade c (advance s tm) else advance s tm

/-- FADE_END. -/
def execFadeEnd (chain tm : Nat) (s : State) : Host.Outcome State Fault Refusal := .next (fadeEnd chain tm s)

/-! ### Resets (R197, R198) -/

/-- Every chain of the list restarts. -/
def chainsRestart (cs : List Nat) (s : State) : State := cs.foldl (fun s c => chainRestart c s) s

/-- A soft reset of the Decimation block keeps configuration, banks, EN and a pending swap. -/
def decSoftReset (s : State) : State := chainsRestart (List.range 64) s

/-- The chains of a tenant that is reset (R198). -/
def decTenReset (t : Nat) (s : State) : State := chainsRestart (idxWhere 64 (fun c => chainTid s c = t)) s

end Sys2Proof.Machine
end

