-- ==== Sys2Proof/Machine/Float64.lean ====
section
/-!
DEFINITION. binary64 arithmetic of the Quantity engine: every operation rounded once, and the constants and functions that it takes as the
nearest binary64 value (spec/09_quantity_engine.md R229).
-/
namespace Sys2Proof.Machine

/-- A value rounded to binary64. -/
def d64 (v : FVal) : FVal := f64 (toF64 v)

def dAdd (a b : FVal) : FVal := d64 (fvalAdd a b)
def dSub (a b : FVal) : FVal := d64 (fvalAdd a (fvalNeg b))
def dMul (a b : FVal) : FVal := d64 (fvalMul a b)
def dDiv (a b : FVal) : FVal := d64 (fvalDiv 53 a b)
def dSqrt (a : FVal) : FVal := d64 (fvalSqrt 53 a)
def dNat (n : Nat) : FVal := d64 (.fin false n 0)
def dInt (i : Int) : FVal := d64 (.fin (i < 0) i.natAbs 0)
def fvalAbs : FVal → FVal
  | .nan => .nan
  | .inf _ => .inf false
  | .fin _ m e => .fin false m e
def dZero : FVal := .fin false 0 0
def fvalLe (a b : FVal) : Bool := fvalLt a b || fvalEq a b

/-- Whether a value is finite. -/
def fvalFinite : FVal → Bool
  | .fin _ _ _ => true
  | _ => false

/-! ### Fixed point with `p` fractional bits -/

/-- Taylor terms of the arctangent. -/
def atanTerms (p t2 : Nat) : Nat → Nat → Nat → Bool → Int → Int
  | 0, _, _, _, acc => acc
  | n + 1, k, pw, neg, acc =>
    let x : Int := (pw / k : Nat)
    atanTerms p t2 n (k + 2) (pw * t2 / 2 ^ p) (!neg) (if neg then acc - x else acc + x)

/-- The arctangent of a small number. -/
def atanSmall (p t : Nat) : Nat := (atanTerms p (t * t / 2 ^ p) (p / 4 + 8) 1 t false 0).toNat

/-- π, by 16·atan(1/5) − 4·atan(1/239). -/
def piFix (p : Nat) : Nat :=
  let q := p + 16
  (16 * atanSmall q (2 ^ q / 5) - 4 * atanSmall q (2 ^ q / 239)) / 2 ^ 16

/-- The tangent of half the angle. -/
def halfAngle (p t : Nat) : Nat := t * 2 ^ p / (2 ^ p + natSqrt (2 ^ (2 * p) + t * t))

/-- The arctangent of a number from 0 to 1. -/
def atanFix (p t : Nat) : Nat :=
  let q := p + 16
  16 * atanSmall q (halfAngle q (halfAngle q (halfAngle q (halfAngle q (t * 2 ^ 16))))) / 2 ^ 16

/-- Taylor terms of the sine (from k = 1, t = x) or the cosine (from k = 0, t = 1). -/
def trigTerms (p x : Nat) : Nat → Nat → Nat → Bool → Int → Int
  | 0, _, _, _, acc => acc
  | n + 1, k, t, neg, acc =>
    trigTerms p x n (k + 2) (t * x / 2 ^ p * x / 2 ^ p / ((k + 1) * (k + 2))) (!neg) (if neg then acc - t else acc + t)

def sinFix (p x : Nat) : Nat := (trigTerms p x (p / 4 + 16) 1 x false 0).toNat
def cosFix (p x : Nat) : Nat := (trigTerms p x (p / 4 + 16) 0 (2 ^ p) false 0).toNat

/-- A fixed-point number rounded to binary64. -/
def ofFix (p v : Nat) (neg : Bool) : FVal := d64 (.fin neg v (-(p : Int)))

/-- Sine and cosine of `q` quarter turns and the angle `r`. -/
def quarterSin (p q r : Nat) : FVal :=
  match q % 4 with
  | 0 => ofFix p (sinFix p r) false
  | 1 => ofFix p (cosFix p r) false
  | 2 => ofFix p (sinFix p r) true
  | _ => ofFix p (cosFix p r) true

/-- Exact values on the axes. -/
def axisSin (q : Nat) : FVal :=
  match q % 4 with
  | 1 => .fin false 1 0
  | 3 => .fin true 1 0
  | _ => dZero

/-- The nearest binary64 value to sin(2πn/w). -/
def sinTurn (n w : Nat) : FVal :=
  let q := 4 * n / w
  let r := 4 * n % w
  if r = 0 then axisSin q else quarterSin 300 q (piFix 300 * r / (2 * w))

/-- The nearest binary64 value to cos(2πn/w). -/
def cosTurn (n w : Nat) : FVal :=
  let q := 4 * n / w
  let r := 4 * n % w
  if r = 0 then axisSin (q + 1) else quarterSin 300 (q + 1) (piFix 300 * r / (2 * w))

/-- Sine (`add` = 0) or cosine (`add` = 1) of a binary64 angle, nearest. -/
def trigOf (add : Nat) : FVal → FVal
  | .fin neg m e =>
    if m = 0 then (if add = 0 then .fin neg 0 0 else .fin false 1 0)
    else
      let lg := (e + (Nat.log2 m : Nat)).natAbs
      let p := 400 + 2 * lg
      let x := if 0 ≤ e + p then m * 2 ^ (e + p).toNat else m / 2 ^ (-(e + p)).toNat
      let half := piFix p / 2
      let v := quarterSin p (x / half + add) (x % half)
      if neg && add = 0 then fvalNeg v else v
  | _ => .nan

def dSin (a : FVal) : FVal := trigOf 0 a
def dCos (a : FVal) : FVal := trigOf 1 a

/-- The angle of two finite magnitudes, y over x, in the first quadrant, in fixed point with `p` bits. -/
def atanRatio (p my : Nat) (ey : Int) (mx : Nat) (ex : Int) : Nat :=
  let g := min ey ex
  let y := my * 2 ^ (ey - g).toNat
  let x := mx * 2 ^ (ex - g).toNat
  if y ≤ x then atanFix p (y * 2 ^ p / x) else piFix p / 2 - atanFix p (x * 2 ^ p / y)

/-- atan2(y, x), nearest. -/
def dAtan2 : FVal → FVal → FVal
  | .nan, _ => .nan
  | _, .nan => .nan
  | .inf ny, .inf nx => ofFix 300 (if nx then 3 * piFix 300 / 4 else piFix 300 / 4) ny
  | .inf ny, .fin _ _ _ => ofFix 300 (piFix 300 / 2) ny
  | .fin ny _ _, .inf nx => if nx then ofFix 300 (piFix 300) ny else .fin ny 0 0
  | .fin ny my ey, .fin nx mx ex =>
    if my = 0 then (if nx then ofFix 300 (piFix 300) ny else .fin ny 0 0)
    else if mx = 0 then ofFix 300 (piFix 300 / 2) ny
    else
      let ly := ey + (Nat.log2 my : Nat)
      let lx := ex + (Nat.log2 mx : Nat)
      let p := 300 + (ly - lx).natAbs
      let a := atanRatio p my ey mx ex
      ofFix p (if nx then piFix p - a else a) ny

/-- √2/w, 1/w and π/180. -/
def rootTwoOver (w : Nat) : FVal := ofFix 300 (natSqrt (2 * 2 ^ 600) / w) false
def oneOver (w : Nat) : FVal := dDiv (.fin false 1 0) (.fin false w 0)
def piOver180 : FVal := ofFix 300 (piFix 300 / 180) false

end Sys2Proof.Machine
end

