-- ==== Sys2Proof/Machine/Quantity.lean ====
section
/-!
DEFINITION. The Quantity engine: points, commits, the pass over a sealed frame, energy (spec/09_quantity_engine.md R226-R241, R246, R247).
-/
namespace Sys2Proof.Machine

/-! ### Points -/

/-- Point `m`. -/
def pointOf (s : State) (m : Nat) : QePoint := tget QePoint.init s.met.points m

/-- Point `m` changed. -/
def updPoint (m : Nat) (f : QePoint → QePoint) (s : State) : State :=
  { s with met := { s.met with points := tset s.met.points m (f (pointOf s m)) } }

/-- The word of a point's configuration at an offset of the staging window. -/
def ptWord (x : QePoint) (off : Nat) : Word := tget (if off = Off.PT_CFG then 0x310 else 0) x.cfg off

def ptEn (x : QePoint) : Bool := bit (ptWord x Off.PT_CFG) 0
def ptTid (x : QePoint) : Nat := fld (ptWord x Off.PT_CFG) 16 4
def ptOut (x : QePoint) : Nat := fld (ptWord x Off.PT_CFG) 20 12
def ptNom (x : QePoint) : Nat := if bit (ptWord x Off.PT_CFG) 1 then 60 else 50
def ptFch (x : QePoint) : Nat := fld (ptWord x Off.PT_CFG) 2 2
def ptNavg (x : QePoint) : Nat := fld (ptWord x Off.PT_CFG) 4 4
def ptTout (x : QePoint) : Nat := fld (ptWord x Off.PT_CFG) 8 4
def ptTsrc (x : QePoint) : Nat := fld (ptWord x Off.PT_CFG) 12 2
def ptComp (x : QePoint) : Bool := bit (ptWord x Off.PT_CFG) 14
def chSrc (x : QePoint) (c : Nat) : Word := ptWord x (Off.QCH_SRC + 4 * c)
def chUse (x : QePoint) (c : Nat) : Bool := bit (chSrc x c) 31
/-- Samples in the window of a point (R227). -/
def ptWindow (s : State) (x : QePoint) : Nat := rateHz s / ptNom x

/-- Offsets of the staging window. -/
def stageOffsets : List Nat :=
  [Off.PT_CFG, Off.PT_HYST, Off.PT_TFIXED, Off.PT_TSRC, Off.PT_TSCALE] ++ (List.range 16).map (fun i => Off.QCH_SRC + 4 * i)
    ++ (List.range 16).map (fun i => Off.TC_T + 4 * i) ++ (List.range 256).map (fun i => Off.TC_GPH + 4 * i)

/-- The staged configuration. -/
def stagedPoint (s : State) : Tab Word :=
  stageOffsets.foldl (fun t o =>
    let w := reg s pgQe1 o
    if w = (if o = Off.PT_CFG then 0x310 else 0) then t else tset t o w) []

/-- PT_READ (R247). -/
def ptRead (tid : Nat) (s : State) : State :=
  access tid pgQe1 Off.PT_CMD 1 (fun s =>
    let x := pointOf s (regFld s pgQe1 Off.PT_SEL 0 7)
    stageOffsets.foldl (fun s o => setReg s pgQe1 o (ptWord x o)) s) s

/-- PT_READ. -/
def execPtRead (tid : Nat) (s : State) : Host.Outcome State Fault Refusal := .next (ptRead tid s)

/-! ### Commits (R241) -/

/-- Whether a binary32 word is finite. -/
def finite32 (w : Word) : Bool := fvalFinite (f32 w)

/-- The FIELD check. -/
def ptFieldBad (s : State) (x : QePoint) : Bool :=
  (ptNom x = 60 && rateHz s = 4000) || ptNavg x < 1 || 8 < ptNavg x || ptTout x = 0 || ptTsrc x = 3
  || !(finite32 (ptWord x Off.PT_HYST)) || fvalLt (f32 (ptWord x Off.PT_HYST)) dZero
  || !(finite32 (ptWord x Off.PT_TSCALE))
  || (List.range 8).any (fun c => !(finite32 (ptWord x (Off.QCH_SCALE + 4 * c))))
  || (List.range 16).any (fun i => !(finite32 (ptWord x (Off.TC_T + 4 * i))))
  || (List.range 256).any (fun i => !(finite32 (ptWord x (Off.TC_GPH + 4 * i))))
  || (List.range 15).any (fun i => !(fvalLt (f32 (ptWord x (Off.TC_T + 4 * i))) (f32 (ptWord x (Off.TC_T + 4 * i + 4)))))

/-- Whether a slot and channel fail the SRC check for `tid`. -/
def sourceBad (s : State) (tid sl ch : Nat) : Bool :=
  match subOfSlot s sl with
  | some x => decide (tid ≠ 0 ∧ subTid x ≠ tid) || subNch x ≤ ch
  | none => true

/-- Whether blocks `b` to `b + n − 1` lie in one lane of `tid` with source `src`. -/
def blocksInLane (s : State) (tid src b n : Nat) : Bool :=
  match laneOf s b with
  | some (_, l) => laneTid l = tid && laneSrc l = src && b + n ≤ laneLimit l
  | none => false

/-- Whether entry `e` of block `b` lies in a lane of `tid`. -/
def entryInLane (s : State) (tid b : Nat) : Bool :=
  match laneOf s b with
  | some (_, l) => laneTid l = tid
  | none => false

/-- The result of a commit of `x` as point `m`. -/
def ptResult (s : State) (m : Nat) (x : QePoint) : Nat :=
  let old := pointOf s m
  let t := ptTid x
  let ts := ptWord x Off.PT_TSRC
  if regBit s pgQe0 Off.LOCK 0 then 7
  else if !(ptEn x) then 0
  else if ptFieldBad s x then 1
  else if !(t < numTids s.variant) then 2
  else if (List.range 8).any (fun c => chUse x c && sourceBad s t (fld (chSrc x c) 0 9) (fld (chSrc x c) 16 5)) then 3
  else if !(blocksInLane s t 2 (ptOut x) 8)
      || s.met.points.any (fun p => p.1 ≠ m && ptEn p.2 && spansMeet (ptOut p.2) 8 (ptOut x) 8) then 4
  else if ptTsrc x = 1 && sourceBad s t (fld ts 0 9) (fld ts 16 5) then 5
  else if ptTsrc x = 2 && !(entryInLane s t (fld ts 0 12)) then 5
  else if ptEn old && (ptTid x ≠ ptTid old || ptOut x ≠ ptOut old || ptNom x ≠ ptNom old
      || (List.range 8).any (fun c => chSrc x c ≠ chSrc old c)) then 6
  else 0

/-- Windows and frequency history cleared. -/
def clearWindows (x : QePoint) : QePoint :=
  { x with wins := [], count := 0, prev := none, freq := { FreqState.init with value := x.freq.value } }

/-- The blocks of a point read value 0 with quality 0x8000_0001 again. -/
def dropPoint (x : QePoint) (s : State) : State :=
  { s with car := { s.car with unit := s.car.unit.filter (fun e => !(8 * ptOut x ≤ e.1 && e.1 < 8 * ptOut x + 64)) } }

/-- PT_WRITE (R241). -/
def ptWrite (tid : Nat) (s : State) : State :=
  access tid pgQe1 Off.PT_CMD 2 (fun s => entryWrite (ptTid (pointOf s (regFld s pgQe1 Off.PT_SEL 0 7))) tid pgQe1 Off.PT_CMD (fun s =>
    let m := regFld s pgQe1 Off.PT_SEL 0 7
    let old := pointOf s m
    let new := { old with cfg := stagedPoint s }
    let r := ptResult s m new
    let s1 := setReg s pgQe1 Off.PT_RESULT (word r)
    if r ≠ 0 then flagErr pgQe0 8 Off.PT_CMD tid true s1
    else
      let s2 := if ptEn old && !(ptEn new) then dropPoint old s1 else s1
      let s3 := updPoint m (fun _ => if ptEn new && !(ptEn old) then
        { clearWindows new with temp := none, freq := FreqState.init } else new) s2
      setReg s3 pgQe0 Off.PTS_EN (word (s3.met.points.filter (fun p => ptEn p.2)).length)) s) s

/-- PT_WRITE. -/
def execPtWrite (tid : Nat) (s : State) : Host.Outcome State Fault Refusal := .next (ptWrite tid s)

/-- ECLR (R239); it is dropped under LOCK.GRP0 (R246). -/
def energyClear (tid : Nat) (s : State) : State :=
  access tid pgQe1 Off.PT_CMD 4 (fun s => entryWrite (ptTid (pointOf s (regFld s pgQe1 Off.PT_SEL 0 7))) tid pgQe1 Off.PT_CMD (fun s =>
    if regBit s pgQe0 Off.LOCK 0 then s
    else updPoint (regFld s pgQe1 Off.PT_SEL 0 7) (fun x => { x with eclr := true }) s) s) s

/-- ECLR. -/
def execEclr (tid : Nat) (s : State) : Host.Outcome State Fault Refusal := .next (energyClear tid s)

/-- An event of tenant `t` in QTEN_EVT (R246). -/
def qeEvt (t i : Nat) (s : State) : State := setTenEvt pgQe0 (Off.QTEN_EVT + 4 * t) t 4 (1 <<< i) s

/-! ### Frequency (R234) -/

/-- The timeout of a point without an accepted crossing. -/
def freqDue (s : State) (x : QePoint) : Bool := ptTout x * ptWindow s x ≤ x.freq.since

/-- The frequency becomes invalid, its value is held, and the crossing history is cleared. -/
def freqTimeout (m : Nat) (s : State) : State :=
  let x := pointOf s m
  let s1 := updPoint m (fun x => { x with freq := { x.freq with
    crossings := [], prevCross := none, armed := false, since := 0, valid := false } }) s
  if x.freq.valid then qeEvt (ptTid x) 0 s1 else s1

/-- FREQ_TIMEOUT (R234). -/
def freqTimeoutRow (m tm : Nat) (s : State) : State :=
  let s0 := advance s tm
  if m < 128 && ptEn (pointOf s0 m) && freqDue s0 (pointOf s0 m) then freqTimeout m s0 else s0

/-- FREQ_TIMEOUT. -/
def execFreqTimeout (point tm : Nat) (s : State) : Host.Outcome State Fault Refusal := .next (freqTimeoutRow point tm s)

/-- Whether an interval in sample ticks implies a frequency within 0.8 to 1.2 of NOM. -/
def crossingGood (hz nom : Nat) (dt : FVal) : Bool :=
  let f := dDiv (dNat hz) dt
  fvalLe (dNat (nom * 4 / 5)) f && fvalLe f (dNat (nom * 6 / 5))

/-- A crossing at instant `t` (sample ticks). -/
def takeCrossing (hz nom navg : Nat) (t : FVal) (f : FreqState) : FreqState :=
  let tb := toF64 t
  let ok := match f.prevCross with | some p => crossingGood hz nom (dSub t (f64 p)) | none => true
  if !ok then { f with prevCross := some tb }
  else
    let cs := (tb :: f.crossings).take (navg + 1)
    let g := { f with prevCross := some tb, crossings := cs, since := 0 }
    match cs[navg]? with
    | some t0 => { g with valid := true, value := toF64 (dDiv (dNat (hz * navg)) (dSub t (f64 t0))) }
    | none => g

/-- The input of the frequency channel at sample tick `j`. -/
def freqInput (hz nom navg j : Nat) (hyst x : FVal) (bad : Bool) (f : FreqState) : FreqState :=
  let f1 := { f with since := f.since + 1 }
  if bad then { f1 with crossings := [], prevCross := none, armed := false, lastX := none }
  else
    let low := fvalLe x (fvalNeg hyst)
    let cross := match f1.lastX with | some p => fvalLt (f64 p) dZero && fvalLe dZero x && f1.armed | none => false
    let f2 :=
      if cross then
        let p := f64 (f1.lastX.getD 0)
        { takeCrossing hz nom navg (dAdd (dInt ((j : Int) - 1)) (dDiv p (dSub p x))) f1 with armed := low }
      else { f1 with armed := f1.armed || low }
    { f2 with lastX := some (toF64 x) }

/-! ### Quantities (R229-R233, R235) -/

/-- The samples of a channel in its unit, oldest first. -/
def samplesOf (w : Nat) (x : QePoint) (c : Nat) : List FVal :=
  let sc := f32 (ptWord x (Off.QCH_SCALE + 4 * c))
  ((tget [] x.wins c).take w).reverse.map (fun e => dMul (dInt (s32 e.1)) sc)

/-- A sum, oldest first. -/
def dSum (l : List FVal) : FVal := l.foldl dAdd dZero

/-- The index i with T_i ≤ T ≤ T_(i+1), the lowest that qualifies. -/
def tempIndex (x : QePoint) (t : FVal) : Option Nat :=
  (List.range 15).find? (fun i => fvalLe (f32 (ptWord x (Off.TC_T + 4 * i))) t && fvalLe t (f32 (ptWord x (Off.TC_T + 4 * i + 4))))

/-- The temperature clamped to the table. -/
def tempClamp (x : QePoint) (t : FVal) : FVal :=
  let lo := f32 (ptWord x Off.TC_T)
  let hi := f32 (ptWord x (Off.TC_T + 60))
  if fvalLt t lo then lo else if fvalLt hi t then hi else t

/-- Interpolation of table column `col` (0 gain, 4 phase) of channel `c` (R230). -/
def compAt (x : QePoint) (c col : Nat) (t : FVal) : FVal :=
  match tempIndex x t with
  | none => .nan
  | some i =>
    let tt := fun j => f32 (ptWord x (Off.TC_T + 4 * j))
    let g := fun j => f32 (ptWord x (Off.TC_GPH + col + 0x80 * c + 8 * j))
    let u := dDiv (dSub t (tt i)) (dSub (tt (i + 1)) (tt i))
    dAdd (g i) (dMul (dSub (g (i + 1)) (g i)) u)

/-- The results of a channel: gain, mean-square sum, RMS, raw phasor and phasor. -/
structure ChanOut where
  xs : List FVal
  gain : FVal
  rms : FVal
  xr : FVal
  xi : FVal
  pr : FVal
  pim : FVal
  deriving DecidableEq, Repr

/-- The indices n(j) of the window's samples within their seconds, oldest first. -/
def windowIndices (hz w k : Nat) : List Nat := (List.range w).map (fun i => (k + i + 1 - w) % hz % w)

/-- A channel at temperature `t` (R230, R232). -/
def channelOut (hz w k : Nat) (x : QePoint) (t : FVal) (c : Nat) : ChanOut :=
  let xs := samplesOf w x c
  let ns := windowIndices hz w k
  let g := if ptComp x then compAt x c 0 t else .fin false 1 0
  let ph := if ptComp x then compAt x c 4 t else dZero
  let rms := dMul g (dSqrt (dMul (oneOver w) (dSum (xs.map (fun a => dMul a a)))))
  let xr := dMul (rootTwoOver w) (dSum ((xs.zip ns).map (fun a => dMul a.1 (cosTurn a.2 w))))
  let xi := dMul (fvalNeg (rootTwoOver w)) (dSum ((xs.zip ns).map (fun a => dMul a.1 (sinTurn a.2 w))))
  let a := dMul ph piOver180
  let gr := dMul g xr
  let gi := dMul g xi
  ⟨xs, g, rms, xr, xi, dSub (dMul gr (dCos a)) (dMul gi (dSin a)), dAdd (dMul gr (dSin a)) (dMul gi (dCos a))⟩

/-- P, Q, S, PF and ANG of a phase (R233). -/
def phaseOut (w : Nat) (v i : ChanOut) : FVal × FVal × FVal × FVal × FVal :=
  let gg := dMul v.gain i.gain
  let p1 := dMul (dMul gg (oneOver w)) (dSum ((v.xs.zip i.xs).map (fun a => dMul a.1 a.2)))
  let p2 := dAdd (dMul v.pr i.pr) (dMul v.pim i.pim)
  let p3 := dMul gg (dAdd (dMul v.xr i.xr) (dMul v.xi i.xi))
  let p := dSub (dAdd p1 p2) p3
  let q := dSub (dMul v.pim i.pr) (dMul v.pr i.pim)
  let sa := dMul v.rms i.rms
  let pf := if fvalEq sa dZero then dZero else dDiv p sa
  let deg := dDiv (dSub (dAtan2 v.pim v.pr) (dAtan2 i.pim i.pr)) piOver180
  let ang := if fvalLt (dNat 180) deg then dSub deg (dNat 360) else if fvalLe deg (dInt (-180)) then dAdd deg (dNat 360) else deg
  (p, q, sa, pf, ang)

/-- The quality of an output that uses the channels `cs` (R235). -/
def spanQuality (w : Nat) (x : QePoint) (cs : List Nat) (extra : Word) : Word :=
  if cs.any (fun c => !(chUse x c)) then 0x88002001 ||| (extra &&& 0x10000000)
  else
    let qs := cs.flatMap (fun c => ((tget [] x.wins c).take w).map (·.2))
    let o := qs.foldl (fun a q => a ||| q) 0
    let q := worstValidity qs ||| (o &&& 0x800B1FFC) ||| 0x2000 ||| extra ||| (if x.count < w then 0x01000000 else 0)
    if q &&& 0x03000000 ≠ 0 then q ||| 0x80000000 else q

/-- An output entry: 0 without a channel or while settling, a NaN invalid. -/
def quantity (v : FVal) (q : Word) : Word × Word :=
  if q &&& 0x09000000 ≠ 0 then (0, q)
  else if v = .nan then (0x7FC00000, (q &&& ~~~3) ||| 1)
  else (toF32 v, q)

/-- An entry of 32 bits with a quality. -/
def rawEntry (v q : Word) : Word × Word := if q &&& 0x09000000 ≠ 0 then (0, q) else (v, q)

/-! ### Temperature (R231) -/

/-- The reading of a point's temperature: the entry's value and quality as a binary64 value, none where it is stale. -/
def tempReading (s : State) (x : QePoint) (f : HopFrame) (front : Tab (Word × Word)) : Option FVal :=
  let ts := ptWord x Off.PT_TSRC
  let judge := fun (v : FVal) (q : Word) => if fld q 0 2 = 1 || fld q 0 2 = 2 || bit q 31 || !(fvalFinite v) then none else some v
  match ptTsrc x with
  | 1 =>
    let e := match subOfSlot s (fld ts 0 9) with
      | some y => chanEntry f (subFrame y + (fld ts 0 9 - subSlot y) * subBlocks y + fld ts 16 5 / 8) (fld ts 16 5 % 8)
      | none => unusedEntry
    judge (dMul (dInt (s32 e.1)) (f32 (ptWord x Off.PT_TSCALE))) e.2
  | 2 => let e := tableEntry front (fld ts 0 12) (fld ts 16 3); judge (f32 e.1) e.2
  | _ => some (f32 (ptWord x Off.PT_TFIXED))

/-! ### Energy (R237) -/

/-- Accumulator `a` of a point. -/
def accOf (x : QePoint) (a : Nat) : EnergyAcc := tget ⟨0, 0, 0⟩ x.accs a

/-- The integer part of a non-negative value as 64 bits; it is a free value where the formula gives none. -/
def floor64 (v : FVal) (s : State) : Nat × State :=
  let free := let f := fresh s; (f.1.toNat, f.2)
  match v with
  | .fin neg m e =>
    let n := if 0 ≤ e then m * 2 ^ e.toNat else m / 2 ^ (-e).toNat
    if neg || 2 ^ 64 ≤ n then free else (n, s)
  | _ => free

/-- `add` of R237 on accumulator `a` of point `m`: the increment, and the state. -/
def energyAdd (m a : Nat) (e : FVal) (s : State) : Nat × State :=
  let x := accOf (pointOf s m) a
  let v := dAdd e (f64 x.residue)
  let d := floor64 v s
  let new := (x.value + d.1) % 2 ^ 64
  let wrap := new < x.value
  let y : EnergyAcc := ⟨new, toF64 (dSub v (dNat d.1)), if wrap then (x.wraps + 1) % 65536 else x.wraps⟩
  let s1 := updPoint m (fun p => { p with accs := tset p.accs a y }) d.2
  (d.1, if wrap then qeEvt (ptTid (pointOf s m)) 3 s1 else s1)

/-- One integration step: the increments by accumulator (R237, R239). -/
def energyStep (m : Nat) (pt qt : FVal) (s : State) : List (Nat × Nat) × State :=
  let s0 := if (pointOf s m).eclr then updPoint m (fun x => { x with accs := [], eclr := false }) s else s
  let imp := fvalLe dZero pt
  let ind := fvalLe dZero qt
  let a := if imp then 0 else 1
  let r := if imp then (if ind then 2 else 5) else (if ind then 3 else 4)
  let e := fun v => dDiv (dMul (fvalAbs v) (dNat 1000)) (dNat (rateHz s))
  let x := energyAdd m a (e pt) s0
  let y := energyAdd m r (e qt) x.2
  ([(a, x.1), (r, y.1)], updPoint m (fun p => { p with lastStep := s.tick.count % 2 ^ 32 }) y.2)

/-- A tick of point `m` that is not integrated (R237). -/
def missStep (m : Nat) (s : State) : State :=
  qeEvt (ptTid (pointOf s m)) 2 (countReg (updPoint m (fun x => { x with missed := x.missed + 1 }) s) pgQe0 Off.SKIP_COUNT 1)

/-! ### The pass (R228, R236) -/

/-- The inputs of sample tick `k` pushed into the windows of a point; a gap clears them first (assumption 28). -/
def pushInputs (s : State) (k : Nat) (f : HopFrame) (x : QePoint) : QePoint :=
  let y := match x.prev with | some p => if k = p + 1 then x else clearWindows x | none => x
  let entry := fun c =>
    let sl := fld (chSrc x c) 0 9
    match subOfSlot s sl with
    | some b => chanEntry f (subFrame b + (sl - subSlot b) * subBlocks b + fld (chSrc x c) 16 5 / 8) (fld (chSrc x c) 16 5 % 8)
    | none => unusedEntry
  { y with
    wins := (List.range 8).foldl (fun t c => if chUse x c then tset t c ((entry c :: tget [] t c).take 96) else t) y.wins
    count := y.count + 1, prev := some k }

/-- The frequency channel's latest input taken (R234). -/
def pushFreq (s : State) (k : Nat) (x : QePoint) : QePoint :=
  match (tget [] x.wins (ptFch x)).head? with
  | none => x
  | some e =>
    let v := dMul (dInt (s32 e.1)) (f32 (ptWord x (Off.QCH_SCALE + 4 * ptFch x)))
    let bad := bit e.2 31 || fld e.2 0 2 = 1 || fld e.2 0 2 = 2
    if !(chUse x (ptFch x)) then x
    else { x with freq := freqInput (rateHz s) (ptNom x) (ptNavg x) k (f32 (ptWord x Off.PT_HYST)) v bad x.freq }

/-- The 64 output entries of a point (R236), from P_tot's quality, its channels, phases and temperature. -/
def pointEntries (s : State) (x : QePoint) (k w : Nat) (t : FVal) (stale miss : Bool) (ch : Nat → ChanOut)
    (ph : Nat → FVal × FVal × FVal × FVal × FVal) : List (Word × Word) :=
  let ts : Word := if stale then 0x04000000 else 0
  let q := fun cs => spanQuality w x cs ts
  let phs : List Nat := [0, 1, 2]
  let all := [0, 1, 2, 4, 5, 6]
  let sum3 := fun (g : FVal × FVal × FVal × FVal × FVal → FVal) => dAdd (dAdd (g (ph 0)) (g (ph 1))) (g (ph 2))
  let pTot := sum3 (·.1)
  let qTot := sum3 (·.2.1)
  let sTot := sum3 (·.2.2.1)
  let three := fun (g : FVal × FVal × FVal × FVal × FVal → FVal) tot =>
    phs.map (fun i => quantity (g (ph i)) (q [i, i + 4])) ++ [quantity tot (q all)]
  let zero : Word × Word := (0, 0x2000)
  let fq : Word := if x.freq.valid && !(freqDue s x) then 0 else 0x02000000
  let qe := spanQuality w x all (ts ||| (if miss then 0x10000000 else 0))
  let word64 := fun (v : Nat) => [rawEntry (word v) qe, rawEntry (word (v / 2 ^ 32)) qe]
  let wr := fun a => rawEntry (word ((accOf x a).wraps + (accOf x (a + 1)).wraps * 65536)) qe
  (List.range 8).map (fun c => quantity (ch c).rms (q [c]))
  ++ (List.range 8).flatMap (fun c => [quantity (ch c).pr (q [c]), quantity (ch c).pim (q [c])])
  ++ three (·.1) pTot ++ three (·.2.1) qTot ++ three (·.2.2.1) sTot
  ++ three (·.2.2.2.1) (if fvalEq sTot dZero then dZero else dDiv pTot sTot)
  ++ [quantity (f64 x.freq.value) (spanQuality w x [ptFch x] (ts ||| fq))]
  ++ phs.map (fun i => quantity (ph i).2.2.2.2 (q [i, i + 4]))
  ++ [quantity t (0x2000 ||| ts), (word k, 0x2000), zero, zero]
  ++ (List.range 4).flatMap (fun a => word64 (accOf x a).value) ++ [4, 5].flatMap (fun a => word64 (accOf x a).value)
  ++ [wr 0, wr 2, wr 4, zero]

/-- The pass over point `m`: the increments by accumulator, and the state. -/
def pointPass (m k : Nat) (f : HopFrame) (front : Tab (Word × Word)) (s : State) : List (Nat × Nat) × State :=
  let s0 := if freqDue s (pointOf s m) then freqTimeout m s else s
  let s1 := updPoint m (fun x => pushFreq s0 k (pushInputs s0 k f x)) s0
  let x := pointOf s1 m
  let w := ptWindow s x
  let rd := tempReading s1 x f front
  let s2 := match rd with
    | some v => if ptTsrc x = 0 then s1 else updPoint m (fun x => { x with temp := some (toF64 v) }) s1
    | none => qeEvt (ptTid x) 1 s1
  let raw := match rd with
    | some v => v
    | none => match x.temp with | some b => f64 b | none => f32 (ptWord x Off.PT_TFIXED)
  let t := if ptComp x then tempClamp x raw else raw
  let ch := fun c => channelOut (rateHz s) w k x t c
  let chs := (List.range 8).map ch
  let chf := fun c => chs.getD c ⟨[], .nan, .nan, .nan, .nan, .nan, .nan⟩
  let phl := (List.range 3).map (fun i => phaseOut w (chf i) (chf (i + 4)))
  let phf := fun i => phl.getD i (.nan, .nan, .nan, .nan, .nan)
  let pTot := dAdd (dAdd (phf 0).1 (phf 1).1) (phf 2).1
  let qTot := dAdd (dAdd (phf 0).2.1 (phf 1).2.1) (phf 2).2.1
  let ok := tenRunning s2 (ptTid x) && !(bit (spanQuality w x [0, 1, 2, 4, 5, 6] 0) 31)
  let r := if ok then energyStep m pTot qTot s2 else ([], missStep m s2)
  let es := pointEntries r.2 (pointOf r.2 m) k w t rd.isNone (!ok) chf phf
  let put := (List.range 64).foldl (fun t i => tset t (8 * ptOut x + i) (es.getD i unusedEntry)) r.2.car.unit
  (r.1, { r.2 with car := { r.2.car with unit := put } })

/-- The pass of the Quantity engine over the frame that was sealed last: the increments of every point by accumulator. While CTRL.EN = 0
no tick is integrated (R246), and behind the fence of a reset nothing is written (R240). -/
def qePass (s : State) : List (Nat × Nat × Nat) × State :=
  let f := latestFrame s.hop
  let k := f.tick.getD 0
  let front := frontTable s.car
  let on := regBit s pgQe0 Off.CTRL 0 && realTimeMode s
  let pts := (s.met.points.filter (fun p => ptEn p.2)).map (·.1)
  let r := pts.foldl (fun (acc : List (Nat × Nat × Nat) × State) m =>
    if !on || (tenOf acc.2 (ptTid (pointOf acc.2 m))).state = .resetting then (acc.1, missStep m acc.2)
    else
      let q := pointPass m k f front acc.2
      (acc.1 ++ q.1.map (fun d => (m, d.1, d.2)), q.2)) ([], s)
  if !on then r
  else
    let c := fresh (setReg r.2 pgQe0 Off.QE_TICK (word k))
    (r.1, setIrq pgQe0 1 (setReg c.2 pgQe0 Off.QE_DONE (word (2912 + c.1.toNat % 1089))))

/-! ### Resets and the header -/

/-- CTRL.EN of the Quantity engine clears: every point block reads value 0 with quality 0x8000_0001 (R246). -/
def qeDisable (s : State) : State := s.met.points.foldl (fun s p => if ptEn p.2 then dropPoint p.2 s else s) s

/-- A TEN(t) reset: the windows and the frequency history of t's points are cleared (R240). -/
def qeTenReset (t : Nat) (s : State) : State :=
  s.met.points.foldl (fun s p => if ptTid p.2 = t then updPoint p.1 clearWindows s else s) s

/-- ENERGY_SNAPSHOT (R247). -/
def energySnapshot (tid a m : Nat) (s : State) : State :=
  selectMailbox tid pgQe1 (selWord (0x100 + a) m) (a < 6 && m < 128) s

/-- ENERGY_SNAPSHOT. -/
def execEnergySnapshot (tid acc point : Nat) (s : State) : Host.Outcome State Fault Refusal := .next (energySnapshot tid acc point s)

end Sys2Proof.Machine
end

