-- ==== Sys2Proof/Machine/Rings.lean ====
section
/-!
DEFINITION. DDR windows, descriptor rings and frame stamps (spec/12_tenants.md R288, R293-R295; spec/14_network_ports.md R350-R354;
spec/15_time_unit.md R372).
-/
namespace Sys2Proof.Machine

/-! ### LPDDR4X (R288) -/

/-- Start and end of DDR window `w` of tenant `t`. -/
def ddrWin (s : State) (t w : Nat) : Nat × Nat :=
  let r := reg s (pgTen t) (Off.DDR_WIN + 4 * w)
  (0x800000000 + fld r 0 14 * 0x200000, 0x800000000 + fld r 16 14 * 0x200000)

/-- Whether `n` bytes from `a` lie wholly inside one DDR window of `t`; TID 0 is not restricted. -/
def inWindow (s : State) (t a n : Nat) : Bool :=
  if t = 0 then 0x800000000 ≤ a && a + n ≤ 0xC00000000
  else (List.range 4).any (fun w => (ddrWin s t w).1 ≤ a && a + n ≤ (ddrWin s t w).2)

/-- Bytes read from LPDDR4X with TID `t`: none where the access is refused or ECC rejects it. -/
def dmaRead (s : State) (t a n : Nat) : Option (List Byte) :=
  if inWindow s t a n && readableMem s a n then some (readMem s a n) else none

/-- Bytes written to LPDDR4X with TID `t`; a refused access changes nothing. -/
def dmaWrite (t a : Nat) (bs : List Byte) (s : State) : State := if inWindow s t a bs.length then writeMem s a bs else s

/-! ### Rings (R350, R353) -/

/-- Where the registers of a ring lie, with its owner and its resource of R293. -/
structure Ring where
  page : Nat
  base : Nat
  cfg : Nat
  tail : Nat
  tailLo : Nat
  head : Nat
  headLo : Nat
  tid : Nat
  res : Nat
  deriving DecidableEq, Repr

/-- The transmit and the receive ring of tenant `t` on port `p`, and the rings of the Time unit. -/
def txRing (p t : Nat) : Ring :=
  ⟨pgPort p, Off.TXR_BASE_LO + 0x20 * t, Off.TXR_CFG + 0x20 * t, Off.DB_TX_TAIL + 0x10 * t, 0, Off.DB_HEADS + 0x10 * t, 0, t, 2⟩
def rxRing (p t : Nat) : Ring :=
  ⟨pgPort p, Off.RXR_BASE_LO + 0x20 * t, Off.RXR_CFG + 0x20 * t, Off.DB_RX_TAIL + 0x10 * t, 0, Off.DB_HEADS + 0x10 * t, 16, t, 3⟩
def ptpTxRing : Ring := ⟨pgTime2, Off.PTP_TXR_BASE_LO, Off.PTP_TXR_CFG, Off.PTP_TAILS, 16, Off.PTP_HEADS, 16, 0, 2⟩
def ptpRxRing : Ring := ⟨pgTime2, Off.PTP_RXR_BASE_LO, Off.PTP_RXR_CFG, Off.PTP_TAILS, 0, Off.PTP_HEADS, 0, 0, 3⟩

def ringSize (s : State) (r : Ring) : Nat := 2 ^ regFld s r.page r.cfg 4 4
def ringBase (s : State) (r : Ring) : Nat := (reg s r.page r.base).toNat + regFld s r.page (r.base + 4) 0 16 * 2 ^ 32
def ringEn (s : State) (r : Ring) : Bool := regBit s r.page r.cfg 0
def ringHead (s : State) (r : Ring) : Nat := regFld s r.page r.head r.headLo 12
def ringTail (s : State) (r : Ring) : Nat := regFld s r.page r.tail r.tailLo 12
/-- `a − b` modulo the ring size. -/
def ringDist (s : State) (r : Ring) (a b : Nat) : Nat := (a + ringSize s r - b % ringSize s r) % ringSize s r
/-- Descriptors that the port owns. -/
def ringOcc (s : State) (r : Ring) : Nat := ringDist s r (ringTail s r) (ringHead s r)
/-- The address of descriptor `d`. -/
def ringDesc (s : State) (r : Ring) (d : Nat) : Nat := ringBase s r + 32 * d
/-- The descriptors owned, in ring order. -/
def ringOwned (s : State) (r : Ring) : List Nat := (List.range (ringOcc s r)).map (fun i => (ringHead s r + i) % ringSize s r)

/-- HEAD set. -/
def setHead (r : Ring) (h : Nat) (s : State) : State := setRegFld s r.page r.head r.headLo 12 h

/-- SHARE(r) in effect (R293-R295). -/
def shareOf (s : State) (t r : Nat) : Nat := (tenOf s t).depth.getD r 0

/-- QUEUE_FULL in TEVT of tenant `t` (R294). -/
def queueFull (t : Nat) (s : State) : State := setTenEvt (pgTen t) Off.TEVT t 7 0x40 s

/-- The judgement of a tail write (R353, in the order of its table): 0 accepted, 1 DB_BAD, 2 QUEUE_FULL. In SAFE every transmit tail is
refused with DB_BAD (spec/17_modes_clocks_power.md R425). -/
def tailResult (s : State) (r : Ring) (v : Nat) : Nat :=
  let n := ringSize s r
  if mode s = mSafe && r.res = 2 && r.page ≠ pgTime2 then 1
  else if n ≤ v then 1
  else if ringDist s r v (ringHead s r) < ringDist s r (ringTail s r) (ringHead s r) then 1
  else if shareOf s r.tid r.res < ringDist s r v (ringHead s r) then 2
  else if !ringEn s r then 1 else 0

/-- A tail write: refused, as every one for a tenant behind its fence (spec/12_tenants.md R296), or TAIL stored and the new descriptors handed to `take`, oldest first. -/
def tailWrite (tid : Nat) (r : Ring) (bad : Nat) (v : Nat) (take : Nat → State → State) (s : State) : State :=
  let off := r.tail
  if (tenOf s r.tid).state = .resetting then deny s else
  match tailResult s r v with
  | 1 => refuse r.page bad off tid s
  | 2 => queueFull r.tid (deny s)
  | _ =>
    let new := (List.range (ringDist s r v (ringTail s r))).map (fun i => (ringTail s r + i) % ringSize s r)
    new.foldl (fun s d => take d s) (setRegFld s r.page r.tail r.tailLo 12 v)

/-- Whether a tenant is EMPTY (R289). -/
def tenEmpty (s : State) (t : Nat) : Bool := (tenOf s t).state = .empty

/-- The value of a tenant's state (R289), and the states of R312: 4 bits a tenant. -/
def tenStateCode (s : State) (t : Nat) : Nat :=
  match (tenOf s t).state with
  | .empty => 0 | .loaded => 1 | .running => 2 | .frozen => 3 | .resetting => 4 | .faulted => 5

/-- STATES_LO (`h` = 0) and STATES_HI (1) of R312. -/
def tenStates (s : State) (h : Nat) : Word :=
  word ((List.range 8).foldl (fun a i => a + (if 8 * h + i < numTids s.variant then tenStateCode s (8 * h + i) else 0) * 16 ^ i) 0)

/-- Whether a ring may be enabled with the LOG2SIZE of `data` (R350). -/
def ringGood (s : State) (r : Ring) (data : Word) : Bool :=
  let lg := fld data 4 4
  4 ≤ lg && lg ≤ 12 && ringBase s r % (32 * 2 ^ lg) = 0 && inWindow s r.tid (ringBase s r) (32 * 2 ^ lg) && !tenEmpty s r.tid

/-- A write of a ring's CFG register (R350, R354): `busy` and `bad` are the flags CFG_BUSY and RING_BAD of its page, and `stop` ends
the owned descriptors of a ring that is disabled. A ring's indexes are reduced to a new size (assumption 18). -/
def ringCfgWrite (tid : Nat) (r : Ring) (busy bad : Nat) (data : Word) (stop : State → State) (s : State) : State :=
  access tid r.page r.cfg data (fun s =>
    if ringEn s r ∧ bit data 0 ∧ fld data 4 4 ≠ regFld s r.page r.cfg 4 4 then refuse r.page busy r.cfg tid s
    else if bit data 0 ∧ !ringGood s r data then refuse r.page bad r.cfg tid s
    else
      let was := ringEn s r
      let ack := reg s r.page r.cfg &&& 2
      let s1 := plainWrite r.page r.cfg data s
      let s2 := setReg s1 r.page r.cfg (reg s1 r.page r.cfg ||| ack ||| (if bit data 0 then 2 else 0))
      if bit data 0 && !was then
        setRegFld (setHead r (ringHead s2 r % ringSize s2 r) s2) r.page r.tail r.tailLo 12 (ringTail s2 r % ringSize s2 r)
      else if was && !(bit data 0) then stop s2 else s2) s

/-- RING_DISABLE_DONE (R354): HEAD has reached TAIL, and EN_ACK clears. -/
def ringStopped (r : Ring) (s : State) : State :=
  if !ringEn s r && ringOcc s r = 0 then clearReg s r.page r.cfg 2 else s

/-! ### Frame stamps (R372) -/

/-- Line mode of a port: PORT4 runs at 10GBASE-R (R343). -/
def portMode (s : State) (p : Nat) : Nat := if p = 4 then 0 else regFld s (pgPort p) Off.PCFG 0 2

/-- An octet on the wire in 1/25 of an ME cycle. -/
def octet (s : State) (p : Nat) : Nat := if portMode s p = 0 then 24 else 240

/-- TX_LAT + TX_ADJ or RX_LAT + RX_ADJ of a port in 2^−16 ns; the gearbox phase that a 10GBASE-R PCS reports is a free value. -/
def stampCorr (p : Nat) (tx : Bool) (s : State) : Int × State :=
  let adj : Int := if p < 4 then (reg s pgTime2 ((if tx then Off.TX_ADJ else Off.RX_ADJ) + 0x40 * p)).toInt else 0
  if portMode s p = 0 then
    let f := fresh s
    ((if tx then 937165 else 1422131) + f.1.toNat + adj, f.2)
  else ((if tx then 2516582 else 3407872) + adj, s)

/-- A corrected stamp in time base `d`, in 2^−16 ns: the PCS instant is taken with 1 ns resolution. -/
def stampIn (s : State) (d at25 : Nat) (corr : Int) : Nat := ((tbNs s d (at25 / 25) * 65536 : Nat) + corr).toNat

end Sys2Proof.Machine
end

