-- ==== Sys2Proof/Machine/CaptureUnit.lean ====
section
/-!
DEFINITION. The Capture unit: recorders, triggers, records and the ring (spec/10_capture_unit.md R249-R263).
-/
namespace Sys2Proof.Machine

/-- Recorder `k`. -/
def recOf (s : State) (k : Nat) : Recorder := tget Recorder.init s.cap.recs k

/-- Recorder `k` changed. -/
def updRec (k : Nat) (f : Recorder → Recorder) (s : State) : State :=
  { s with cap := { s.cap with recs := tset s.cap.recs k (f (recOf s k)) } }

def recTid (s : State) (k : Nat) : Nat := regFld s (pgCap k) Off.TID_OWNER 0 4
def recEn (s : State) (k : Nat) : Bool := regBit s (pgCap k) Off.CTRL 0
def recRk (s : State) (k : Nat) : Nat := regFld s (pgCap k) Off.REC_CFG 0 3
def recNch (s : State) (k : Nat) : Nat := regFld s (pgCap k) Off.REC_CFG 16 9
def recPre (s : State) (k : Nat) : Nat := regFld s (pgCap k) Off.REC_PRE 0 16
def recPost (s : State) (k : Nat) : Nat := regFld s (pgCap k) Off.REC_POST 0 21
def ringSizeOf (s : State) (k : Nat) : Nat := 4096 * regFld s (pgCap k) Off.RING_SIZE 0 20
def ringBaseOf (s : State) (k : Nat) : Nat :=
  (reg s (pgCap k) Off.RING_LO &&& 0xFFFFF000).toNat + regFld s (pgCap k) Off.RING_HI 0 16 * 2 ^ 32
def recState (s : State) (k : Nat) : Nat := regFld s (pgCap k) Off.REC_STAT 0 3
def wrPtr (s : State) (k : Nat) : Nat := (reg s (pgCap k) Off.WR_PTR).toNat
/-- The bytes of a sample record (R257). -/
def recBytes (nch : Nat) : Nat := 64 * ((16 + 8 * nch + 63) / 64)
def capSrc (s : State) (k i : Nat) : Word := reg s (pgCap k) (Off.CH_SRC + 4 * i)

/-- CTRL.EN of a page and its EN_ACK (R19). -/
def setEn (pg : Nat) (b : Bool) (s : State) : State :=
  setRegFld (setRegFld s pg Off.CTRL 0 1 (b2n b)) pg Off.STAT 0 1 (b2n b)

/-- STATE, PENDING and HOLD_PTR as the recorder stands (R255, R259, R262). -/
def showRec (k state : Nat) (s : State) : State :=
  let r := recOf s k
  let hold := match r.table.head? with
    | some e => e.start
    | none =>
      match r.now with
      | some n => n.start
      | none => match r.retained.head? with | some x => x.1 | none => wrPtr s k
  setReg (setRegFld (setRegFld s (pgCap k) Off.REC_STAT 0 3 state) (pgCap k) Off.REC_STAT 4 5 r.table.length)
    (pgCap k) Off.HOLD_PTR (word hold)

/-- The bytes free from WR_PTR to HOLD_PTR in ring order (R259). -/
def ringFree (s : State) (k : Nat) : Nat :=
  let r := recOf s k
  let n := ringSizeOf s k
  if r.table = [] && r.now = none && r.retained = [] then n
  else ((reg s (pgCap k) Off.HOLD_PTR).toNat + n - wrPtr s k % n) % n

/-- A record written at WR_PTR, which continues at offset 0 behind the ring's end (R257). -/
def ringPut (k : Nat) (bs : List Byte) (s : State) : State :=
  let n := ringSizeOf s k
  let w := wrPtr s k
  let a := ringBaseOf s k
  let s1 := dmaWrite (recTid s k) (a + w) (bs.take (n - w)) s
  let s2 := if n - w < bs.length then dmaWrite (recTid s k) a (bs.drop (n - w)) s1 else s1
  setReg s2 (pgCap k) Off.WR_PTR (word ((w + bs.length) % n))

/-- A mark of 64 bytes (R258). -/
def markBytes (k type tick : Nat) (rest : List Byte) : List Byte :=
  leBytes 1 type ++ leBytes 1 k ++ leBytes 2 1 ++ leBytes 4 tick ++ rest ++ List.replicate (56 - rest.length) 0

/-! ### Commit (R262) -/

/-- Whether a trigger level word is negative or not finite as a hysteresis. -/
def hystBad (fmt : Bool) (w : Word) : Bool := if fmt then !(finite32 w) || fvalLt (f32 w) dZero else w.toInt < 0

def trgCfg (s : State) (k u : Nat) : Word := reg s (pgCap k) (Off.TRG_CFG + 0x10 * u)
def trgFmt (s : State) (k u : Nat) : Bool := bit (capSrc s k (fld (trgCfg s k u) 8 8)) 26

/-- The result of a commit. -/
def recResult (s : State) (k : Nat) : Nat :=
  let t := recTid s k
  let nch := recNch s k
  let f := rateHz s
  let rk := recRk s k
  let chs := List.range nch
  let size := ringSizeOf s k
  let kind := fun i => fld (capSrc s k i) 24 2
  let src := fun i => fld (capSrc s k i) 0 12
  if regBit s (pgCap k) Off.LOCK 0 then 6
  else if nch < 1 || 256 < nch || 4 < rk || 10 * f / 2 ^ rk < recPre s k || recPost s k < 1 || 2 ^ 20 < recPost s k
      || (List.range 4).any (fun u => bit (trgCfg s k u) 0 && (fld (trgCfg s k u) 1 2 = 3 || nch ≤ fld (trgCfg s k u) 8 8
          || hystBad (trgFmt s k u) (reg s (pgCap k) (Off.TRG_HYST + 0x10 * u))))
      || chs.any (fun i => kind i = 3) then 1
  else if chs.any (fun i => kind i = 1 && chainRatio s (src i % 64) ≠ 2 ^ rk) then 2
  else if chs.any (fun i =>
      match kind i with
      | 0 => sourceBad s t (src i % 512) (fld (capSrc s k i) 16 5)
      | 1 => !(chainEn s (src i % 64) && (t = 0 || chainTid s (src i % 64) = t))
      | _ => match laneOf s (src i) with | some (_, l) => !(t = 0 || laneTid l = t) | none => true) then 3
  else if 2048 < nch + ((List.range 8).map (fun j => if j ≠ k && recEn s j then recNch s j else 0)).foldl (· + ·) 0 then 4
  else if size < 65536 || 2 ^ 31 < size || !(inWindow s t (ringBaseOf s k) size)
      || size < (recPre s k + recPost s k + 1) * recBytes nch + 18 * 64 then 5
  else 0

/-- The state from which a recorder takes samples (R255). -/
def freshState (s : State) (k : Nat) : Nat := if regBit s (pgCap k) Off.REC_CFG 5 && 0 < recPre s k then 1 else 2

/-- A recorder stops at once, with no mark; the table stays (R260). -/
def recOff (k : Nat) (s : State) : State :=
  showRec k 0 (updRec k (fun r => { Recorder.init with table := r.table }) (setEn (pgCap k) false s))

/-- A write of CTRL that enables or disables a recorder (R260, R262). -/
def recCtrl (tid k : Nat) (data : Word) (s : State) : State :=
  if 8 ≤ k then deny s
  else access tid (pgCap k) Off.CTRL data (fun s =>
    if bit data 0 && !recEn s k then
      let r := recResult s k
      let s1 := setRegFld s (pgCap k) Off.REC_STAT 16 4 r
      if r ≠ 0 then refuse (pgCap k) 8 Off.CTRL tid s1
      else
        let s2 := updRec k (fun _ => Recorder.init) (setReg (setEn (pgCap k) true s1) (pgCap k) Off.WR_PTR 0)
        showRec k (freshState s2 k) s2
    else if !(bit data 0) && recEn s k then recOff k s
    else s) s

/-- RECORDER_ENABLE. -/
def execRecorderEnable (tid rec : Nat) (data : Word) (s : State) : Host.Outcome State Fault Refusal := .next (recCtrl tid rec data s)

/-- RECORDER_DISABLE. -/
def execRecorderDisable (tid rec : Nat) (data : Word) (s : State) : Host.Outcome State Fault Refusal := .next (recCtrl tid rec data s)

/-- A write of REC_CFG, REC_PRE, REC_POST, a ring register or CH_SRC: refused while EN = 1 (R262). -/
def recFieldWrite (tid k off : Nat) (data : Word) (s : State) : State :=
  access tid (pgCap k) off data (fun s =>
    if recEn s k then refuse (pgCap k) 9 off tid s else plainWrite (pgCap k) off data s) s

/-- A write of TRG_CFG: a new TCH disarms its unit (R252). -/
def trgCfgWrite (tid k off : Nat) (data : Word) (s : State) : State :=
  access tid (pgCap k) off data (fun s =>
    let u := (off - 0x100) / 0x10
    let s1 := plainWrite (pgCap k) off data s
    if fld data 8 8 = fld (reg s (pgCap k) off) 8 8 then s1
    else updRec k (fun r => { r with units := tset r.units u TrigUnit.init }) s1) s

/-! ### Commands (R253, R256, R259, R260) -/

/-- A missed trigger (R256). -/
def missTrig (k : Nat) (s : State) : State :=
  setIrq (pgCap k) 4 (countReg (updRec k (fun r => { r with missedSince := r.missedSince + 1 }) s) (pgCap k) Off.MISSED 1)

/-- A START that waits resumes where there is space (R259). -/
def tryStart (k : Nat) (s : State) : State :=
  if (recOf s k).starting && (recState s k = 4 || recState s k = 5) && recBytes (recNch s k) + 64 ≤ ringFree s k then
    showRec k (freshState s k) (updRec k (fun r => { r with starting := false }) s)
  else s

/-- A command of REC_CMD. -/
def recCommand (tid k : Nat) (bits : Word) (body : State → State) (s : State) : State :=
  if k < 8 then access tid (pgCap k) Off.REC_CMD bits body s else deny s

/-- START. -/
def recStart (tid k : Nat) (s : State) : State :=
  recCommand tid k 1 (fun s =>
    if recEn s k && (recState s k = 4 || recState s k = 5) then tryStart k (updRec k (fun r => { r with starting := true }) s) else s) s

/-- REC_START. -/
def execRecStart (tid rec : Nat) (s : State) : Host.Outcome State Fault Refusal := .next (recStart tid rec s)

/-- A record leaves progress and enters the table (R260). -/
def tableRecord (k : Nat) (n : RecNow) (trunc : Bool) (s : State) : State :=
  setIrq (pgCap k) 1 (updRec k (fun r => { r with
    now := none, retained := [], gaps := [], dead := some 0, missedSince := 0
    table := r.table ++ [⟨n.start, wrPtr s k, n.primary, n.frac, n.unit, trunc, n.preShort, n.samples, n.first⟩] }) s)

/-- The END mark, and the record closed (R258). -/
def endRecord (k : Nat) (n : RecNow) (trunc : Bool) (s : State) : State :=
  let last := ((recOf s k).prev).getD 0
  let s1 := ringPut k (markBytes k 3 last (leBytes 4 n.first ++ leBytes 4 n.samples ++ leBytes 1 (b2n trunc + b2n n.gap * 2)
    ++ leBytes 2 n.secondary)) s
  tableRecord k n trunc s1

/-- STOP. -/
def recStop (tid k : Nat) (s : State) : State :=
  recCommand tid k 2 (fun s =>
    if !recEn s k then s
    else
      let s1 := match (recOf s k).now with | some n => endRecord k n true s | none => s
      showRec k 4 (updRec k (fun r => { r with manual := false, starting := false }) s1)) s

/-- REC_STOP. -/
def execRecStop (tid rec : Nat) (s : State) : Host.Outcome State Fault Refusal := .next (recStop tid rec s)

/-- MTRIG. -/
def manualTrig (tid k : Nat) (s : State) : State :=
  recCommand tid k 4 (fun s =>
    if recState s k = 2 || recState s k = 3 then updRec k (fun r => { r with manual := true }) s else missTrig k s) s

/-- MTRIG. -/
def execMtrig (tid rec : Nat) (s : State) : Host.Outcome State Fault Refusal := .next (manualTrig tid rec s)

/-- RELEASE. -/
def recRelease (tid k : Nat) (s : State) : State :=
  recCommand tid k 8 (fun s =>
    match (recOf s k).table with
    | [] => flagErr (pgCap k) 10 Off.REC_CMD tid true s
    | _ :: rest => tryStart k (showRec k (recState s k) (updRec k (fun r => { r with table := rest }) s))) s

/-- REC_RELEASE. -/
def execRecRelease (tid rec : Nat) (s : State) : Host.Outcome State Fault Refusal := .next (recRelease tid rec s)

/-! ### Record samples (R249-R254) -/

/-- The entries of the record sample of sample tick `k`, whose frame is `f0`; `f1` is the frame of the next sample tick. -/
def recEntries (s : State) (r : Nat) (f0 f1 : HopFrame) : List (Word × Word) :=
  (List.range (recNch s r)).map (fun i =>
    let c := capSrc s r i
    let sub := fld c 16 5
    match fld c 24 2 with
    | 0 =>
      match subOfSlot s (fld c 0 9) with
      | some x => chanEntry f0 (subFrame x + (fld c 0 9 - subSlot x) * subBlocks x + sub / 8) (sub % 8)
      | none => unusedEntry
    | 1 =>
      let o := dch s (fld c 0 6) Off.DCH_OUT
      chanEntry f1 (fld o 0 12) (fld o 16 3)
    | _ => tableEntry s.cap.table (fld c 0 12) (sub % 8))

/-- Whether an entry is usable for a trigger (R252). -/
def usable (fmt : Bool) (e : Word × Word) : Bool := (fld e.2 0 2 = 0 || fld e.2 0 2 = 3) && !(bit e.2 31) && (!fmt || finite32 e.1)

/-- A trigger value, exact. -/
def trigVal (fmt : Bool) (w : Word) : FVal := if fmt then f32 w else .fin (w.toInt < 0) w.toInt.natAbs 0

/-- A trigger that has fired: position in 1/256 from sample j − 1, unit, edge, channel, x0 and x1. -/
structure Firing where
  pos : Nat
  unit : Nat
  edge : Nat
  chan : Nat
  x0 : Word
  x1 : Word
  deriving DecidableEq, Repr

/-- The position of a trigger between x0 and x1 (R253); where the quotient does not lie in 0 to 1 it is a free value. -/
def trigPos (level x0 x1 : FVal) (s : State) : Nat × State :=
  match d64 (fvalDiv 53 (fvalAdd level (fvalNeg x0)) (fvalAdd x1 (fvalNeg x0))) with
  | .fin neg m e =>
    let q := if 0 ≤ e then m * 256 * 2 ^ e.toNat else m * 256 / 2 ^ (-e).toNat
    if (neg && m ≠ 0) || 256 < q then let f := fresh s; (f.1.toNat % 257, f.2) else (q, s)
  | _ => let f := fresh s; (f.1.toNat % 257, f.2)

/-- Trigger unit `u` on the entry of its channel: whether it fires. `near` says that the previous record sample is one period earlier. -/
def trigEval (k u : Nat) (near : Bool) (e : Word × Word) (s : State) : Option Firing × State :=
  let cfg := trgCfg s k u
  let fmt := trgFmt s k u
  let t := tget TrigUnit.init (recOf s k).units u
  let put := fun (x : TrigUnit) s => updRec k (fun r => { r with units := tset r.units u x }) s
  if !(usable fmt e) then (none, put TrigUnit.init s)
  else
    let x := trigVal fmt e.1
    let level := trigVal fmt (reg s (pgCap k) (Off.TRG_LEVEL + 0x10 * u))
    let hyst := trigVal fmt (reg s (pgCap k) (Off.TRG_HYST + 0x10 * u))
    let edge := fld cfg 1 2
    let up := t.rising && (edge = 0 || edge = 2) && fvalLe level x
    let down := t.falling && (edge = 1 || edge = 2) && fvalLe x level
    if up || down then
      let s1 := put { rising := false, falling := false, prev := some e.1 } s
      let ed := if up then 0 else 1
      match t.prev with
      | some w =>
        if near then
          let p := trigPos level (trigVal fmt w) x s1
          (some ⟨p.1, u, ed, fld cfg 8 8, w, e.1⟩, p.2)
        else (some ⟨256, u, ed, fld cfg 8 8, 0, e.1⟩, s1)
      | none => (some ⟨256, u, ed, fld cfg 8 8, 0, e.1⟩, s1)
    else
      let lowArm := fvalLe x (fvalAdd level (fvalNeg hyst))
      let highArm := fvalLe (fvalAdd level hyst) x
      (none, put { rising := t.rising || ((edge = 0 || edge = 2) && lowArm), falling := t.falling || ((edge = 1 || edge = 2) && highArm)
                   prev := some e.1 } s)

/-- A unit that is not enabled is disarmed, and follows its channel's samples. -/
def trigFollow (k u : Nat) (e : Word × Word) (s : State) : State :=
  updRec k (fun r => { r with units := tset r.units u { TrigUnit.init with
    prev := if usable (trgFmt s k u) e then some e.1 else none } }) s

/-- The firings of a record sample in the order of R254. -/
def firings (k : Nat) (near : Bool) (es : List (Word × Word)) (s : State) : List Firing × State :=
  let r := (List.range 4).foldl (fun (acc : List Firing × State) u =>
    let c := fld (trgCfg acc.2 k u) 8 8
    if bit (trgCfg acc.2 k u) 0 then
      let v := trigEval k u near (es.getD c unusedEntry) acc.2
      (acc.1 ++ v.1.toList, v.2)
    else (acc.1, trigFollow k u (es.getD c unusedEntry) acc.2)) ([], s)
  let man := (recOf r.2 k).manual
  let all := r.1 ++ (if man then [⟨256, 4, 0, 0, 0, 0⟩] else [])
  ((List.range 257).flatMap (fun p => all.filter (fun x => x.pos = p)), updRec k (fun x => { x with manual := false }) r.2)

/-- The TRIGGER mark of a firing on the sample of tick `j` (R253, R258). -/
def trigMark (s : State) (k j : Nat) (x : Firing) (primary : Option (Nat × Nat)) : List Byte :=
  let f := rateHz s
  let step := 2 ^ recRk s k
  let c := j - step
  let v := (c / f) * (10 ^ 9 * 65536) + ((c % f) * 256 + x.pos * step) * (10 ^ 9 * 65536) / (256 * f)
  markBytes k 2 j (leBytes 1 (x.unit + x.edge * 8 + (if primary.isSome then 128 else 0)) ++ leBytes 1 (x.pos % 256) ++ leBytes 2 x.chan
    ++ leBytes 4 x.x0.toNat ++ leBytes 4 x.x1.toNat ++ leBytes 6 (v / 65536 / 10 ^ 9) ++ leBytes 2 0 ++ leBytes 4 (v / 65536 % 10 ^ 9)
    ++ leBytes 2 (v % 65536) ++ leBytes 2 0
    ++ (match primary with
      | some (pre, short) => leBytes 4 (reg s (pgCap k) Off.DEAD_LAST).toNat ++ leBytes 4 (recOf s k).missedSince ++ leBytes 4 pre
          ++ leBytes 1 (short + (if (tbOf s 0).state = .locked then 0 else 2))
      | none => []))

/-- A firing on the sample of tick `j`, whose record begins at ring offset `at0` (R254-R256). -/
def takeFiring (k j at0 : Nat) (x : Firing) (s : State) : State :=
  let r := recOf s k
  let counted := fun s => countReg s (pgCap k) Off.TRIG_COUNT 1
  match recState s k, r.now with
  | 3, some n =>
    let s1 := counted (updRec k (fun r => { r with now := some { n with secondary := n.secondary + 1 } }) s)
    if n.secondary < 15 then ringPut k (trigMark s k j x none) s1 else s1
  | 2, _ =>
    if 16 ≤ r.table.length then missTrig k s
    else
      let pre := r.retained.length
      let short := pre < recPre s k
      let first := (r.retained.head?).getD (at0, j)
      let s1 := ringPut k (trigMark s k j x (some (pre, b2n short))) s
      let n : RecNow := ⟨first.1, first.2, j, x.pos % 256, x.unit, short, pre + 1, recPost s k, 0,
        r.gaps.any (fun g => first.2 < g && g ≤ j)⟩
      setIrq (pgCap k) 8 (showRec k 3 (counted (updRec k (fun r => { r with now := some n }) s1)))
  | _, _ => missTrig k s

/-- Dead time and the end of FILLING, looked at when a record sample is assembled (R256). -/
def readyRec (k : Nat) (s : State) : State :=
  let r := recOf s k
  let s1 := if recState s k = 1 && recPre s k ≤ r.retained.length then showRec k 2 s else s
  match r.dead with
  | some n =>
    if recState s1 k = 2 && r.table.length < 16 then
      let s2 := setReg (updRec k (fun r => { r with dead := none }) s1) (pgCap k) Off.DEAD_LAST (word n)
      setReg s2 (pgCap k) Off.DEAD_MAX (word (max n (reg s2 (pgCap k) Off.DEAD_MAX).toNat))
    else if recState s1 k = 3 then s1
    else updRec k (fun r => { r with dead := some (n + 1) }) s1
  | none => s1

/-- The ring has no room (R259): the OVERFLOW mark, the record in progress closed, STOPPED_OVF. -/
def recOverflow (k j : Nat) (s : State) : State :=
  let hold := (reg s (pgCap k) Off.HOLD_PTR).toNat
  let s1 := ringPut k (markBytes k 4 j (leBytes 4 hold ++ leBytes 4 (wrPtr s k))) s
  let s2 := match (recOf s1 k).now with | some n => tableRecord k n true s1 | none => s1
  setIrq (pgCap k) 2 (showRec k 5 (updRec k (fun r => { r with manual := false }) s2))

/-- A sample record (R257). -/
def sampleBytes (s : State) (k j : Nat) (es : List (Word × Word)) : List Byte :=
  let n := recBytes (recNch s k)
  let bad := es.any (fun e => !(usable false e))
  let flags := b2n bad + b2n (es.any (fun e => bit e.2 16)) * 2 + b2n (es.any (fun e => bit e.2 19)) * 4
  let body := leBytes 1 1 ++ leBytes 1 k ++ leBytes 2 (n / 64) ++ leBytes 4 j ++ leBytes 1 flags ++ List.replicate 7 0
    ++ es.flatMap (fun e => leBytes 4 e.1.toNat ++ leBytes 4 e.2.toNat)
  body ++ List.replicate (n - body.length) 0

/-- The record sample of sample tick `j` assembled (R251, R255-R259). -/
def takeSample (k j : Nat) (es : List (Word × Word)) (s : State) : State :=
  let s0 := readyRec k s
  if ringFree s0 k < recBytes (recNch s k) + 64 then recOverflow k j s0
  else
    let r := recOf s0 k
    let near := r.prev = some (j - 2 ^ recRk s k)
    let gap := match r.prev with | some _ => !near | none => false
    let s1 := if gap then
        updRec k (fun r => { r with gaps := r.gaps ++ [j], now := r.now.map (fun n => { n with gap := true }) })
          (ringPut k (markBytes k 5 j (leBytes 4 (r.prev.getD 0))) s0)
      else s0
    let at0 := wrPtr s1 k
    let s2 := updRec k (fun r => { r with prev := some j }) (ringPut k (sampleBytes s k j es) s1)
    let inRec := (recOf s2 k).now.isSome
    let s3 := if inRec then updRec k (fun r => { r with now := r.now.map (fun n => { n with samples := n.samples + 1, left := n.left - 1 }) }) s2
      else s2
    let fs := firings k near es s3
    let s4 := fs.1.foldl (fun s x => takeFiring k j at0 x s) fs.2
    let s5 :=
      match (recOf s4 k).now with
      | some n =>
        if inRec && n.left = 0 then
          let s6 := endRecord k n false s4
          showRec k (if regBit s6 (pgCap k) Off.REC_CFG 4 then 4 else if regBit s6 (pgCap k) Off.REC_CFG 5 then 1 else 2) s6
        else s4
      | none =>
        updRec k (fun r =>
          let l := r.retained ++ [(at0, j)]
          let keep := l.drop (l.length - recPre s4 k)
          { r with retained := keep, gaps := r.gaps.filter (fun g => match keep.head? with | some x => x.2 ≤ g | none => false) }) s4
    showRec k (recState s5 k) s5

/-- The recorders at a completed seal: the record sample of the sample tick before the sealed one (R251). -/
def recordersTake (s : State) : State :=
  let f1 := latestFrame s.hop
  let f0 := if s.hop.bufOdd then s.hop.even else s.hop.odd
  match f0.tick, f1.tick with
  | some j, some m =>
    if m = j + 1 then
      (List.range 8).foldl (fun s k =>
        if recEn s k && j % rateHz s % 2 ^ recRk s k = 0 && (tenOf s (recTid s k)).state ≠ .resetting then
          let s1 := tryStart k s
          if recState s1 k = 1 || recState s1 k = 2 || recState s1 k = 3 then takeSample k j (recEntries s1 k f0 f1) s1 else s1
        else s) s
    else s
  | _, _ => s

/-- The publish table of the flip taken for KIND 2 channels (R251). -/
def captureFlip (s : State) : State := { s with cap := { s.cap with table := frontTable s.car } }

/-- A TEN(t) reset (R261): recorders of TID t stop. -/
def capTenReset (t : Nat) (s : State) : State :=
  (List.range 8).foldl (fun s k => if recTid s k = t && recEn s k then recOff k s else s) s

/-- RECORD_TABLE_SNAPSHOT (R263). -/
def recordTableSnapshot (tid k i : Nat) (s : State) : State :=
  if k < 8 then selectMailbox tid (pgCap k) (selWord 1 i) (i < 16) s else deny s

/-- RECORD_TABLE_SNAPSHOT. -/
def execRecordTableSnapshot (tid rec index : Nat) (s : State) : Host.Outcome State Fault Refusal :=
  .next (recordTableSnapshot tid rec index s)

end Sys2Proof.Machine
end

