-- ==== Sys2Proof/Machine/Ptp.lean ====
section
/-!
DEFINITION. The messages of IEEE 1588 that the Time unit sends and reads (spec/15_time_unit.md R373-R376). The spec names the standard and
not the octets of its messages: their layout is assumption 26.
-/
namespace Sys2Proof.Machine

/-- Peer-delay state of port `p`. -/
def ptpOf (s : State) (p : Nat) : PtpPort := tget PtpPort.init s.tim.ports p

/-- Peer-delay state of port `p` changed. -/
def updPtp (p : Nat) (f : PtpPort → PtpPort) (s : State) : State :=
  { s with tim := { s.tim with ports := tset s.tim.ports p (f (ptpOf s p)) } }

/-- A counter of port `p` on TIME page 2. -/
def countPtp (p off : Nat) (s : State) : State := countReg s pgTime2 (off + 0x40 * p) 1

def ppEn (s : State) (p : Nat) : Bool := regBit s pgTime2 (Off.PP_CFG + 0x40 * p) 0
def ppOneStep (s : State) (p : Nat) : Bool := regBit s pgTime2 (Off.PP_CFG + 0x40 * p) 1
def pdDomain (s : State) (p : Nat) : Nat := regFld s pgTime2 (Off.PP_CFG + 0x40 * p) 24 8
def tbDomain (s : State) (d : Nat) : Nat := fld (tbReg s d Off.TB_CFG) 4 8

/-- The portIdentity of port `p`: CLOCK_ID and the port's number counted from 1. -/
def portIdentity (s : State) (p : Nat) : List Byte :=
  beBytes 4 (reg s pgTime1 Off.CLOCK_ID_HI).toNat ++ beBytes 4 (reg s pgTime1 Off.CLOCK_ID_LO).toNat ++ beBytes 2 (p + 1)

/-- A number of 2^−16 ns as a correctionField. -/
def corrField (c : Int) : List Byte := beBytes 8 (BitVec.ofInt 64 c).toNat

/-- A time in whole ns as a Timestamp: 48 bits of seconds, 32 of ns. -/
def timestamp (ns : Nat) : List Byte := beBytes 6 (ns / 10 ^ 9) ++ beBytes 4 (ns % 10 ^ 9)

/-- A message with its header: messageType, domain, twoStepFlag, correctionField, sequenceId, logMessageInterval, body. -/
def ptpMessage (s : State) (p ty domain : Nat) (twoStep : Bool) (corr : Int) (seq : Nat) (logInt : Int) (body : List Byte) : List Byte :=
  let control := if ty = 0 then 0 else if ty = 8 then 2 else 5
  beBytes 1 ty ++ beBytes 1 2 ++ beBytes 2 (34 + body.length) ++ beBytes 1 domain ++ beBytes 1 0
    ++ beBytes 1 (if twoStep then 2 else 0) ++ beBytes 1 0 ++ corrField corr ++ beBytes 4 0 ++ portIdentity s p ++ beBytes 2 (seq % 65536)
    ++ beBytes 1 control ++ beBytes 1 (BitVec.ofInt 8 logInt).toNat ++ body

/-- The port address of R367. -/
def ptpSource (s : State) (p : Nat) : Nat := (reg s (pgPort p) Off.MAC_LO).toNat + regFld s (pgPort p) Off.MAC_HI 0 16 * 2 ^ 32

/-- A frame of queue 7 with a message: Sync and Follow_Up to 01-1B-19-00-00-00, the others to 01-80-C2-00-00-0E (R373). -/
def ptpFrame (s : State) (p : Nat) (peer : Bool) (m : PtpSent) (msg : List Byte) : TxFrame :=
  { queue := 7, src := .ptp m
    bytes := beBytes 6 (if peer then 0x0180C200000E else 0x011B19000000) ++ beBytes 6 (ptpSource s p) ++ beBytes 2 0x88F7 ++ msg }

/-- The Sync of time base `d`, with the time `v` in 2^−16 ns (R376). -/
def syncFrame (s : State) (p d seq : Nat) (oneStep : Bool) (v : Nat) : TxFrame :=
  ptpFrame s p false (.sync d seq oneStep)
    (ptpMessage s p 0 (tbDomain s d) (!oneStep) (if oneStep then v % 65536 else 0 : Nat) seq (logSync s p) (timestamp (v / 65536)))

/-- The Follow_Up of a Sync with the transmit stamp `v`. -/
def followUpFrame (s : State) (p d seq v : Nat) : TxFrame :=
  ptpFrame s p false .other (ptpMessage s p 8 (tbDomain s d) false (v % 65536 : Nat) seq (logSync s p) (timestamp (v / 65536)))

/-- A Pdelay_Req (R375). -/
def requestFrame (s : State) (p seq : Nat) : TxFrame :=
  ptpFrame s p true (.request seq) (ptpMessage s p 2 (pdDomain s p) false 0 seq (logPdelay s p) (List.replicate 20 0))

/-- A Pdelay_Resp: one-step with the turnaround in its correctionField, two-step with the receive stamp. -/
def responseFrame (s : State) (p seq : Nat) (identity : List Byte) (domain : Nat) (t2 corr : Int) (oneStep : Bool) (turn : Int) : TxFrame :=
  ptpFrame s p true (.response seq identity domain t2 corr oneStep)
    (ptpMessage s p 3 domain (!oneStep) (if oneStep then corr + turn else 0) seq 0x7F
      (timestamp (if oneStep then 0 else (t2 / 65536).toNat) ++ identity))

/-- A Pdelay_Resp_Follow_Up with the transmit stamp `t3`. -/
def responseFollowUp (s : State) (p seq : Nat) (identity : List Byte) (domain : Nat) (t2 corr t3 : Int) : TxFrame :=
  ptpFrame s p true .other
    (ptpMessage s p 10 domain false (corr + t3 % 65536 - t2 % 65536) seq 0x7F (timestamp (t3 / 65536).toNat ++ identity))

/-- A stamp on the free-running local counter, in 2^−16 ns, of an instant in 1/25 of an ME cycle, which is 1/30 ns. -/
def localStamp (at25 : Nat) (corr : Int) : Int := (at25 / 30 * 65536 : Nat) + corr

/-- A message of the Time unit begins on port `p` with its first bit after the SFD at `at25`: the frame as it goes out, the frames that
follow it, and the state with its stamp (R375, R376). -/
def ptpBegin (p at25 : Nat) (m : PtpSent) (f : TxFrame) (s : State) : (TxFrame × List TxFrame) × State :=
  let c := stampCorr p true (countPtp p Off.TX_EVT s)
  match m with
  | .request seq =>
    ((f, []), updPtp p (fun x => if x.seq = seq then { x with t1 := localStamp at25 c.1 } else x) c.2)
  | .sync d seq oneStep =>
    let v := stampIn c.2 d at25 c.1
    ((if oneStep then { f with bytes := (syncFrame s p d seq true v).bytes } else f,
      if oneStep then [] else [followUpFrame s p d seq v]), c.2)
  | .response seq identity domain t2 corr oneStep =>
    let t3 := localStamp at25 c.1
    ((if oneStep then { f with bytes := (responseFrame s p seq identity domain t2 corr true (t3 - t2)).bytes } else f,
      if oneStep then [] else [responseFollowUp s p seq identity domain t2 corr t3]), c.2)
  | .other => ((f, []), c.2)

/-- A message read from a frame. -/
structure PtpMsg where
  type : Nat
  domain : Nat
  twoStep : Bool
  corr : Int
  source : Nat
  seq : Nat
  /-- the first Timestamp of the body in 2^−16 ns -/
  time : Int
  /-- the port identity after that Timestamp -/
  identity : Nat
  deriving DecidableEq, Repr

/-- The message of a frame: PTP version 2, its length within the frame. -/
def parsePtp (body : List Byte) : Option PtpMsg :=
  let n := beNat ((body.drop 2).take 2)
  if body.length < 34 || n < 34 || body.length < n || beNat ((body.drop 1).take 1) % 16 ≠ 2 then none
  else
    let b := body.take n
    let ts := b.drop 34
    some { type := beNat (b.take 1) % 16, domain := beNat ((b.drop 4).take 1), twoStep := beNat ((b.drop 6).take 1) / 2 % 2 = 1
           corr := (BitVec.ofNat 64 (beNat ((b.drop 8).take 8))).toInt, source := beNat ((b.drop 20).take 10)
           seq := beNat ((b.drop 30).take 2)
           time := ((beNat (ts.take 6) * 10 ^ 9 + beNat ((ts.drop 6).take 4)) * 65536 : Nat), identity := beNat ((ts.drop 10).take 10) }

/-- Whether the Time unit takes messages sent to `da` on port `p` (R373). -/
def ptpAddress (s : State) (p da : Nat) : Bool := da = 0x011B19000000 || da = 0x0180C200000E || da = ptpSource s p

end Sys2Proof.Machine
end

