-- ==== Sys2Proof/Machine/PortsTx.lean ====
section
/-!
DEFINITION. Links and transmission: queues, preemption, pause, tenant transmit rings and the sending half of the RED block
(spec/14_network_ports.md R343-R349, R351, R353-R355, R360, R363, R365).
-/
namespace Sys2Proof.Machine

/-- Port `p`. -/
def portOf (s : State) (p : Nat) : Port := tget Port.init s.net p

/-- Port `p` changed. -/
def updPort (p : Nat) (f : Port → Port) (s : State) : State := { s with net := tset s.net p (f (portOf s p)) }

/-- Pair `g` of ports. -/
def redOf (s : State) (g : Nat) : RedPair := tget RedPair.init s.red g

/-- Pair `g` changed. -/
def updRed (g : Nat) (f : RedPair → RedPair) (s : State) : State := { s with red := tset s.red g (f (redOf s g)) }

/-- A frame counter of port `p`, by its place in the list of R367. -/
def countPort (p i : Nat) (s : State) : State := countReg s (pgPort p) (Off.PCNT + 4 * i) 1

abbrev cRxOk : Nat := 0
abbrev cRxFcs : Nat := 1
abbrev cRxOvf : Nat := 6
abbrev cRxCtrl : Nat := 7
abbrev cRxPause : Nat := 8
abbrev cRxUnsteered : Nat := 9
abbrev cTxOk : Nat := 10
abbrev cTxDrop : Nat := 11
abbrev cTxPause : Nat := 12
abbrev cTxFrag : Nat := 13
abbrev cTxAbort : Nat := 14
abbrev cRedNotrail : Nat := 15

def linkUp (s : State) (p : Nat) : Bool := regBit s (pgPort p) Off.LINK_STAT 0
def preemptActive (s : State) (p : Nat) : Bool := regBit s (pgPort p) Off.LINK_STAT 5
def maxLen (s : State) (p : Nat) : Nat := regFld s (pgPort p) Off.MAXLEN 0 12
/-- The port address, first octet in [47:40]. -/
def portAddr (s : State) (p : Nat) : Nat := (reg s (pgPort p) Off.MAC_LO).toNat + regFld s (pgPort p) Off.MAC_HI 0 16 * 2 ^ 32

/-- A bit of LINK_STAT set or cleared. -/
def linkBit (p i : Nat) (b : Bool) (s : State) : State :=
  if b then orReg s (pgPort p) Off.LINK_STAT (1 <<< i) else clearReg s (pgPort p) Off.LINK_STAT (1 <<< i)

/-! ### Descriptors of transmitted frames (R351) -/

/-- The event bits `m` of tenant `t`'s doorbell block on port `p` (R368): bits 0 and 2 are class 0, bits 1 and 3 class 1. -/
def doorbellEvt (p t : Nat) (m : Word) (s : State) : State :=
  noteSource (128 + 8 * t) (setTenEvt (pgPort p) (Off.DB_EVT + 0x10 * t) t 1 m s)

/-- HEAD moved past the descriptors that are complete, in ring order. -/
def advanceHead (r : Ring) (p key : Nat) : Nat → State → State
  | 0, s => s
  | n + 1, s =>
    let d := tget [] (portOf s p).done key
    let h := ringHead s r
    if d.contains h then
      advanceHead r p key n (updPort p (fun x => { x with done := tset x.done key (d.erase h) }) (setHead r ((h + 1) % ringSize s r) s))
    else s

/-- A transmit descriptor completed: STATUS and STAMP written, then HEAD. `key` is the TID, or 16 for the PTP ring,
whose descriptors port 0 keeps. -/
def completeTx (r : Ring) (p key d status stamp : Nat) (s : State) : State :=
  let a := ringDesc s r d
  let s1 := dmaWrite r.tid (a + 0x18) (leBytes 8 stamp) (dmaWrite r.tid (a + 0x10) (leBytes 1 status) s)
  let s2 := updPort p (fun x => { x with done := tset x.done key (tget [] x.done key ++ [d]) }) s1
  let s3 := advanceHead r p key ((tget [] (portOf s2 p).done key).length) s2
  if key < 16 then doorbellEvt p key (if status = 1 then 2 else 10) s3 else setIrq pgTime2 2 s3

/-- The end of a frame as its source sees it: `status` is SENT or the reason for which it was not sent. -/
def frameDone (p : Nat) (w : TxWire) (status : Nat) (s : State) : State :=
  match w.frame.src with
  | .ring t d st =>
    let c := stampCorr p true s
    let stamp := if st && status = 1 then stampIn c.2 (regFld s (pgPort p) Off.PCFG 16 2) (w.first + 8 * octet s p) c.1 / 65536 else 0
    completeTx (txRing p t) p t d status stamp c.2
  | .ptpRing d st =>
    let c := stampCorr p true s
    let stamp := if st && status = 1 then stampIn c.2 0 (w.first + 8 * octet s p) c.1 / 65536 else 0
    completeTx ptpTxRing 0 16 d status stamp c.2
  | _ => s

/-! ### The wire (R347-R349) -/

/-- The instant in 1/25 of an ME cycle. -/
def now25 (s : State) : Nat := 25 * s.now

/-- The source of a frame in the round of its queue (R347): its TID, or 16. -/
def roundSrc : TxSrc → Nat
  | .ring t _ _ => t
  | _ => 16

/-- Whether queue `q` is held by a pause at instant `u` (R360); a port without a link discards its queues all the same (R345). -/
def queueHeld (s : State) (p q u : Nat) : Bool :=
  match (portOf s p).pauseUntil with
  | none => false
  | some e => linkUp s p && u < e && (regFld s (pgPort p) Off.PCFG 8 2 = 2 || (regFld s (pgPort p) Off.PCFG 8 2 = 1 && q < 5))

/-- The next frame of queue `q`: the oldest of queues 7 and 6; in the others the oldest of the next source in the round. -/
def nextOf (x : Port) (q : Nat) : Option TxFrame :=
  let fs := x.queue.filter (fun f => f.queue = q)
  if 6 ≤ q then fs.head?
  else ((List.range 17).filterMap (fun i => fs.find? (fun f => roundSrc f.src = (tget 16 x.last q + 1 + i) % 17))).head?

/-- The frame of the highest queue of `qs` that has one and is not held. -/
def pickFrame (s : State) (p u : Nat) (qs : List Nat) : Option TxFrame :=
  (qs.filterMap (fun q => if queueHeld s p q u then none else nextOf (portOf s p) q)).head?

/-- Octets of a frame with padding and FCS. -/
def wireOctets (f : TxFrame) : Nat := max 60 f.bytes.length + 4

/-- A frame or what is left of one begins at `u`: preamble, octets, gap. -/
def beginWire (p u : Nat) (w : TxWire) (s : State) : State :=
  updPort p (fun x => { x with wire := some { w with
    start := u, cut := none, endAt := u + (8 + w.left + 12) * octet s p, dead := !linkUp s p } }) s

/-- The transmit stamp of an own DIGEST that begins on the String link, kept by its TICK (spec/13_redundant_pair.md R319). -/
def pairStamp (p at25 : Nat) (f : TxFrame) (s : State) : State :=
  if p = 4 && (f.bytes.drop 15).head? = some 0x10 then
    let c := stampCorr 4 true s
    let old := c.2.pair.txStamp.drop (c.2.pair.txStamp.length - 3)
    { c.2 with pair := { c.2.pair with
      txStamp := tset old (leNat ((f.bytes.drop 22).take 8)) (stampIn c.2 0 at25 c.1 / 65536) } }
  else s

/-- A new frame begins (R347); a message of the Time unit takes its transmit stamp, and its Follow_Up enters queue 7. -/
def beginFrame (p u : Nat) (f : TxFrame) (s : State) : State :=
  let s1 := updPort p (fun x => { x with
    queue := x.queue.erase f
    last := if f.queue < 6 then tset x.last f.queue (roundSrc f.src) else x.last }) s
  let r := match f.src with
    | .ptp m => if linkUp s p then ptpBegin p (u + 8 * octet s p) m f s1 else ((f, []), s1)
    | .pair => if linkUp s p then ((f, []), pairStamp p (u + 8 * octet s p) f s1) else ((f, []), s1)
    | _ => ((f, []), s1)
  let s2 := updPort p (fun x => { x with queue := x.queue ++ r.1.2 }) r.2
  beginWire p u ⟨r.1.1, u, u, wireOctets r.1.1, none, 0, false⟩ s2

/-- A pause frame of the port: DA 01-80-C2-00-00-01, opcode 1 (R361). -/
def pauseFrame (s : State) (p t : Nat) : TxFrame :=
  { queue := 7, src := .pause
    bytes := beBytes 6 0x0180C2000001 ++ beBytes 6 (portAddr s p) ++ beBytes 2 0x8808 ++ beBytes 2 1 ++ beBytes 2 t }

/-- The port serves its queues at instant `u` (R346, R347, R349). -/
def serve (p u : Nat) (s : State) : State :=
  let x := portOf s p
  if x.wire.isSome then s
  else
    match x.pauses with
    | t :: rest => beginWire p u ⟨pauseFrame s p t, u, u, 64, none, 0, false⟩ (updPort p (fun x => { x with pauses := rest }) s)
    | [] =>
      match pickFrame s p u [7, 6, 5] with
      | some f => beginFrame p u f s
      | none =>
        match x.preempted with
        | some w => beginWire p u w (updPort p (fun x => { x with preempted := none }) s)
        | none =>
          match pickFrame s p u [4, 3, 2, 1, 0] with
          | some f => beginFrame p u f s
          | none => s

/-- The frame on the wire has ended: counted and completed, or its remainder kept (R345, R349, R351). -/
def endWire (p : Nat) (w : TxWire) (s : State) : State :=
  let s1 := updPort p (fun x => { x with wire := none }) s
  match w.cut with
  | some k => countPort p cTxFrag (updPort p (fun x => { x with preempted := some { w with left := w.left - k, cut := none } }) s1)
  | none =>
    if w.dead then frameDone p w 7 (countPort p cTxDrop s1)
    else if w.frame.src = .aborted then s1
    else if w.frame.src = .pause then countPort p cTxPause s1
    else frameDone p w 1 (countPort p cTxOk s1)

/-- Frames that end by instant `u`, and what the port serves after each. -/
def settleTx (p u : Nat) : Nat → State → State
  | 0, s => s
  | n + 1, s =>
    match (portOf s p).wire with
    | some w => if w.endAt ≤ u then settleTx p u n (serve p w.endAt (endWire p w s)) else s
    | none => serve p u s

/-- Frames that may end before the queues are empty. -/
def txFuel (s : State) (p : Nat) : Nat := 2 * (portOf s p).queue.length + (portOf s p).pauses.length + 4

/-- The wire of port `p` up to now. -/
def settleNow (p : Nat) (s : State) : State := settleTx p (now25 s) (txFuel s p) s

/-- A preemptable frame yields at the first permitted octet boundary (R349). -/
def tryPreempt (p : Nat) (s : State) : State :=
  match (portOf s p).wire with
  | some w =>
    if preemptActive s p && w.frame.queue < 5 && w.cut.isNone && !w.dead then
      let o := octet s p
      let k := max ((now25 s - w.start + o - 1) / o - 8) (64 * (1 + regFld s (pgPort p) Off.PCFG 14 2) - 4)
      if k + 64 ≤ w.left then
        updPort p (fun x => { x with wire := some { w with cut := some k, endAt := w.start + (8 + k + 4 + 12) * o } }) s
      else s
    else s
  | none => s

/-- A frame enters a transmit queue of port `p` now. -/
def enqueue (p : Nat) (f : TxFrame) (s : State) : State :=
  let s1 := settleNow p s
  let s2 := updPort p (fun x => { x with queue := x.queue ++ [f] }) s1
  if (portOf s2 p).wire.isNone then serve p (now25 s2) s2
  else if 5 ≤ f.queue && !queueHeld s2 p f.queue (now25 s2) then tryPreempt p s2 else s2

/-- Queues that a pause has held are served again: an express frame that waits may preempt the frame on the wire (R349, R360). -/
def releasePause (p : Nat) (s : State) : State :=
  let s1 := settleNow p s
  if (portOf s1 p).queue.any (fun f => 5 ≤ f.queue) then tryPreempt p s1 else s1

/-- TX_FRAME_END (R347): the frames of port `p` that end by `tm`, and the next ones served. -/
def txFrameEnd (p tm : Nat) (s : State) : State :=
  let s0 := advance s tm
  if p < numPorts s.variant || p = 4 then settleTx p (25 * tm) (txFuel s0 p) s0 else s0

/-- TX_FRAME_END. -/
def execTxFrameEnd (port tm : Nat) (s : State) : Host.Outcome State Fault Refusal := .next (txFrameEnd port tm s)

/-! ### Links (R344, R345, R349) -/

/-- Whether the variant has port `p`. -/
def hasPort (s : State) (p : Nat) : Bool := p < numPorts s.variant || p = 4

/-- The SerDes PLL that serves port `p` (spec/17_modes_clocks_power.md R430): 0 for 10GBASE-R, 1 otherwise. -/
def pllOf (s : State) (p : Nat) : Nat := if portMode s p = 0 then 0 else 1

/-- The SerDes PLL of port `p` has locked. -/
def pllLock (p : Nat) (s : State) : State := orReg s pgClk Off.PLL_STAT (2 <<< pllOf s p)

/-- A SerDes PLL that no enabled port needs is powered down. -/
def pllIdle (p : Nat) (s : State) : State :=
  if (List.range 5).any (fun q => pllOf s q = pllOf s p && regBit s (pgPort q) Off.CTRL 0) then s
  else clearReg s pgClk Off.PLL_STAT (2 <<< pllOf s p)

/-- PORT_POWER_UP (R344): EN_ACK is set. -/
def portPowerUp (p tm : Nat) (s : State) : State :=
  let s0 := advance s tm
  if hasPort s p && regBit s0 (pgPort p) Off.CTRL 0 then pllLock p (orReg s0 (pgPort p) Off.STAT 1) else s0

/-- PORT_POWER_UP. -/
def execPortPowerUp (port tm : Nat) (s : State) : Host.Outcome State Fault Refusal := .next (portPowerUp port tm s)

/-- Preemption becomes active; an express frame that waits need wait no longer than R348 says. -/
def activatePreempt (p : Nat) (s : State) : State :=
  let s1 := linkBit p 5 true s
  if (portOf s1 p).queue.any (fun f => 5 ≤ f.queue) then tryPreempt p s1 else s1

/-- LINK_UP (R344, R349): with VERIFY_EN = 0 preemption becomes active, with VERIFY_EN = 1 verification begins. -/
def linkComesUp (p tm : Nat) (s : State) : State :=
  let s0 := advance s tm
  let pg := pgPort p
  if hasPort s p && regBit s0 pg Off.CTRL 0 && regBit s0 pg Off.STAT 0 && !linkUp s0 p then
    let an := portMode s0 p ≠ 0 && regBit s0 pg Off.PCFG 4
    let s1 := pllLock p (setIrq pg 1 (linkBit p 3 an (linkBit p 1 true (linkBit p 0 true s0))))
    let s2 :=
      if p = 4 || !(regBit s1 pg Off.PCFG 12) then s1
      else if regBit s1 pg Off.PCFG 13 then updPort p (fun x => { x with verifying := true, attempts := 0, verifyAt := tm }) s1
      else activatePreempt p s1
    settleNow p s2
  else s0

/-- LINK_UP. -/
def execLinkUp (port tm : Nat) (s : State) : Host.Outcome State Fault Refusal := .next (linkComesUp port tm s)

/-- The frame on the wire ends at once, and what is left of a preempted one with it (R345). -/
def cutWire (p : Nat) (s : State) : State :=
  let x := portOf s p
  let s1 := updPort p (fun x => { x with wire := none, preempted := none, pauses := [] }) s
  let s3 := match x.wire with | some w => frameDone p w 7 s1 | none => s1
  match x.preempted with | some w => frameDone p w 7 s3 | none => s3

/-- The link of port `p` goes down now. -/
def dropLink (p : Nat) (s : State) : State :=
  let pg := pgPort p
  if linkUp s p then
    let s1 := settleNow p s
    let s2 := setIrq pg 1 (setReg s1 pg Off.LINK_STAT (reg s1 pg Off.LINK_STAT &&& 0xD0))
    serve p (now25 s2) (updPort p (fun x => { x with verifying := false }) (cutWire p s2))
  else s

/-- LINK_DOWN (R344, R345). -/
def linkGoesDown (p tm : Nat) (s : State) : State :=
  let s0 := advance s tm
  if hasPort s p then dropLink p s0 else s0

/-- LINK_DOWN. -/
def execLinkDown (port tm : Nat) (s : State) : Host.Outcome State Fault Refusal := .next (linkGoesDown port tm s)

/-- CTRL.EN of a port changes (R344): EN_ACK is set when the power-up is done; without EN the link is down. -/
def portEnable (p : Nat) (en : Bool) (s : State) : State :=
  if en then s else pllIdle p (clearReg (dropLink p s) (pgPort p) Off.STAT 1)

/-- The verify time of port `p` in ME cycles: TIME is in ms, 1 to 128, and 0 stands for 128 (assumption 20). -/
def verifyTime (s : State) (p : Nat) : Nat :=
  let t := regFld s (pgPort p) Off.VERIFY_CFG 0 7
  (if t = 0 then 128 else t) * 1200000

/-- VERIFY_TIMER (R349). -/
def verifyTimer (p tm : Nat) (s : State) : State :=
  let s0 := advance s tm
  let x := portOf s0 p
  if x.verifying && x.verifyAt ≤ tm then
    if x.attempts < 3 then
      updPort p (fun x => { x with attempts := x.attempts + 1, verifyAt := tm + verifyTime s0 p }) s0
    else setIrq (pgPort p) 4 (updPort p (fun x => { x with verifying := false }) s0)
  else s0

/-- VERIFY_TIMER. -/
def execVerifyTimer (port tm : Nat) (s : State) : Host.Outcome State Fault Refusal := .next (verifyTimer port tm s)

/-- RESPOND_MPACKET (R349). -/
def respondMpacket (p tm : Nat) (s : State) : State :=
  let s0 := advance s tm
  let x := portOf s0 p
  if x.verifying && 0 < x.attempts then
    activatePreempt p (setIrq (pgPort p) 2 (updPort p (fun x => { x with verifying := false }) s0))
  else s0

/-- RESPOND_MPACKET. -/
def execRespondMpacket (port tm : Nat) (s : State) : Host.Outcome State Fault Refusal := .next (respondMpacket port tm s)

/-- PAUSE_TIMER_EXPIRY (R360): the held queues are released. -/
def pauseTimerExpiry (p tm : Nat) (s : State) : State :=
  let s0 := advance s tm
  match (portOf s0 p).pauseUntil with
  | some e => if e ≤ 25 * tm then releasePause p (linkBit p 6 false (updPort p (fun x => { x with pauseUntil := none }) s0)) else s0
  | none => s0

/-- PAUSE_TIMER_EXPIRY. -/
def execPauseTimerExpiry (port tm : Nat) (s : State) : Host.Outcome State Fault Refusal := .next (pauseTimerExpiry port tm s)

/-! ### The RED block: sending (R362, R363, R365) -/

/-- MODE of pair `g`, and its interlink port. -/
def redMode (s : State) (g : Nat) : Nat := regFld s pgRed (Off.RED_CFG + 4 * g) 0 3
def redIl (s : State) (g : Nat) : Nat := regFld s pgRed (Off.RED_CFG + 4 * g) 4 3
/-- Whether pair `g` runs HSR, and whether it is a RedBox. -/
def redHsr (s : State) (g : Nat) : Bool := redMode s g = 2 || redMode s g = 4
def redBox (s : State) (g : Nat) : Bool := redMode s g = 3 || redMode s g = 4
/-- A counter of pair `g`, by its place in R369. -/
def countRed (g i : Nat) (s : State) : State := countReg s pgRed (Off.RED_CNT0 + 0x40 * g + 4 * i) 1

/-- A frame with the redundancy control trailer of IEC 62439-3, after padding (assumption 19). -/
def withTrailer (f : List Byte) (seq lan : Nat) : List Byte :=
  let body := f ++ List.replicate (54 - f.length) 0
  let hdr := if beNat ((f.drop 12).take 2) = 0x8100 then 18 else 14
  body ++ beBytes 2 seq ++ beBytes 2 (lan * 4096 + (body.length - hdr + 6) % 4096) ++ beBytes 2 0x88FB

/-- A frame with the HSR tag of IEC 62439-3 before its EtherType (assumption 19). -/
def withTag (f : List Byte) (seq path : Nat) : List Byte :=
  let at0 := if beNat ((f.drop 12).take 2) = 0x8100 then 16 else 12
  f.take at0 ++ beBytes 2 0x892F ++ beBytes 2 (path * 4096 + (f.length - at0 - 2 + 6) % 4096) ++ beBytes 2 seq ++ f.drop at0

/-- A frame sent on both ports of pair `g` with one SeqNr (R363, R365); the source's descriptor stands on port A, `srcB` is what
port B sees. -/
def sendPair (g queue : Nat) (f : List Byte) (srcA srcB : TxSrc) (s : State) : State :=
  let a := 2 * g
  if maxLen s a - 6 < f.length + 4 then
    let s1 := countPort (a + 1) cRedNotrail (countPort a cRedNotrail s)
    enqueue (a + 1) ⟨queue, f, srcB⟩ (enqueue a ⟨queue, f, srcA⟩ s1)
  else
    let n := (redOf s g).seqNr
    let s1 := updRed g (fun r => { r with seqNr := (n + 1) % 65536 }) s
    let fa := if redHsr s g then withTag f n 0 else withTrailer f n 0xA
    let fb := if redHsr s g then withTag f n 1 else withTrailer f n 0xB
    enqueue (a + 1) ⟨queue, fb, srcB⟩ (enqueue a ⟨queue, fa, srcA⟩ s1)

/-- A frame of the GOOSE publisher for the ports of a mask (R214, R363). -/
def sendPorts (mask queue : Nat) (f : List Byte) (src : TxSrc) (s : State) : State :=
  (List.range 2).foldl (fun s g =>
    let both := mask / 2 ^ (2 * g) % 4
    if redMode s g ≠ 0 && both = 3 then sendPair g queue f src src s
    else
      let s1 := if both % 2 = 1 then enqueue (2 * g) ⟨queue, f, src⟩ s else s
      if 2 ≤ both then enqueue (2 * g + 1) ⟨queue, f, src⟩ s1 else s1) s

/-! ### Tenant transmit rings (R351, R353-R355) -/

/-- EtherTypes refused to a ring of a tenant (R355). -/
def refusedType (ty : Nat) : Bool :=
  ty = 0x88B8 || ty = 0x88BA || ty = 0x88B5 || ty = 0x88F7 || ty = 0x8808 || ty = 0x892F || ty = 0x88FB

/-- A frame with its tag inserted or its VID forced (R355). -/
def taggedFrame (f : List Byte) (ins : Bool) (tci : Nat) (force : Bool) (vid : Nat) : List Byte :=
  let f1 := if ins then f.take 12 ++ beBytes 2 0x8100 ++ beBytes 2 tci ++ f.drop 12 else f
  if !force then f1
  else if beNat ((f1.drop 12).take 2) = 0x8100 then
    f1.take 14 ++ beBytes 2 (beNat ((f1.drop 14).take 2) / 4096 * 4096 + vid) ++ f1.drop 16
  else f1.take 12 ++ beBytes 2 0x8100 ++ beBytes 2 vid ++ f1.drop 12

/-- The checks of R355 on a descriptor: the status of its first failure, or the frame, its queue, STAMP and SINGLE. -/
def txCheck (s : State) (r : Ring) (p d : Nat) : Except Nat (List Byte × Nat × Bool × Bool) :=
  match dmaRead s r.tid (ringDesc s r d) 16 with
  | none => .error 6
  | some w =>
    let a := leNat (w.take 6)
    let len := leNat ((w.drop 8).take 2)
    let op := leNat ((w.drop 10).take 1)
    let tci := leNat ((w.drop 12).take 2)
    let q := op % 8
    let ins := op / 16 % 2 = 1
    let cfg := reg s r.page r.cfg
    if len < 1 || maxLen s p - 4 < len + (if ins then 4 else 0) then .error 2
    else if !(q < 6 && bit cfg (8 + q)) then .error 3
    else
      match dmaRead s r.tid a len with
      | none => .error 6
      | some f =>
        let tagged := beNat ((f.drop 12).take 2) = 0x8100
        if r.tid ≠ 0 && refusedType (beNat ((f.drop (if tagged then 16 else 12)).take 2)) then .error 4
        else if ins && tagged then .error 5
        else
          let g := taggedFrame f ins tci (bit cfg 15) (fld cfg 16 12)
          if maxLen s p - 4 < g.length then .error 2 else .ok (g, q, op / 32 % 2 = 1, op / 64 % 2 = 1)

/-- A descriptor handed to the port: completed at its first failure, or its frame queued (R355, R363). -/
def takeDesc (p t d : Nat) (s : State) : State :=
  match txCheck s (txRing p t) p d with
  | .error st => completeTx (txRing p t) p t d st 0 s
  | .ok (f, q, stamp, single) =>
    if p % 2 = 0 && redMode s (p / 2) ≠ 0 && !single then sendPair (p / 2) q f (.ring t d stamp) .forwarded s
    else enqueue p ⟨q, f, .ring t d stamp⟩ s

/-- TX_TAIL (R353, R368); the page counts refused writes. -/
def txTail (tid p t : Nat) (data : Word) (s : State) : State :=
  if p < 4 ∧ t < 16 then
    access tid (pgPort p) (Off.DB_TX_TAIL + 0x10 * t) data (fun s =>
      let r := txRing p t
      let v := fld data 0 12
      let s1 := if tailResult s r v = 0 then s else countReg s (pgPort p) (Off.TX_REFUSED + 0x20 * t) 1
      tailWrite tid r 11 v (takeDesc p t) s1) s
  else deny s

/-- TX_TAIL. -/
def execTxTail (tid port tenant : Nat) (data : Word) (s : State) : Host.Outcome State Fault Refusal :=
  .next (txTail tid port tenant data s)

/-- RX_TAIL (R353). -/
def rxTail (tid p t : Nat) (data : Word) (s : State) : State :=
  if p < 4 ∧ t < 16 then
    access tid (pgPort p) (Off.DB_RX_TAIL + 0x10 * t) data (fun s => tailWrite tid (rxRing p t) 11 (fld data 0 12) (fun _ s => s) s) s
  else deny s

/-- RX_TAIL. -/
def execRxTail (tid port tenant : Nat) (data : Word) (s : State) : Host.Outcome State Fault Refusal :=
  .next (rxTail tid port tenant data s)

/-- Whether a frame in a queue belongs to the ring of TID `t`. -/
def ofRing (t : Nat) (f : TxFrame) : Bool := match f.src with | .ring u _ _ => u = t | _ => false

/-- A transmit ring ends (R354, R297): its queued descriptors complete with `status` in ring order; a frame on the wire or
preempted lies wholly in the FIFO and is sent (assumption 20). -/
def stopTxRing (p t status : Nat) (s : State) : State :=
  let s0 := settleNow p s
  let ds := ((portOf s0 p).queue.filter (ofRing t)).filterMap (fun f => match f.src with | .ring _ d _ => some d | _ => none)
  let s1 := updPort p (fun x => { x with queue := x.queue.filter (fun f => !ofRing t f) }) s0
  ((ringOwned s1 (txRing p t)).filter (fun d => ds.contains d)).foldl (fun s d => completeTx (txRing p t) p t d status 0 s) s1

/-- A receive descriptor completed without a frame. -/
def abortRx (r : Ring) (status : Nat) (d : Nat) (s : State) : State :=
  setHead r ((d + 1) % ringSize s r)
    (dmaWrite r.tid (ringDesc s r d + 0x08) (leBytes 2 0 ++ leBytes 1 status ++ List.replicate 13 0) s)

/-- A receive ring ends: frames that wait for it lose its copy, and its posted descriptors complete with `status`. -/
def stopRxRing (p t status : Nat) (s : State) : State :=
  let s1 := (List.range 4).foldl (fun s q => updPort q (fun x => { x with
    fifo := x.fifo.map (fun f => if f.ringPort = p then { f with tids := f.tids.filter (· ≠ t) } else f) }) s) s
  let ds := ringOwned s1 (rxRing p t)
  let s2 := ds.foldl (fun s d => abortRx (rxRing p t) status d s) s1
  if ds = [] then s2 else doorbellEvt p t 1 s2

/-- The ring of port page `pg` whose CFG lies at offset `off`: port, TID, and whether it is a transmit ring. -/
def ringAt (pg off : Nat) : Option (Nat × Nat × Bool) :=
  if 0xB0 ≤ pg ∧ pg < 0xB4 ∧ 0x100 ≤ off ∧ off < 0x300 then
    (if off % 0x20 = 0x08 then some (pg - 0xB0, (off - 0x100) / 0x20, true)
     else if off % 0x20 = 0x14 then some (pg - 0xB0, (off - 0x100) / 0x20, false) else none)
  else none

/-- A write of a ring's CFG register on a port page or on TIME page 2 (R350, R354, spec/15_time_unit.md R389). -/
def ringWrite (tid pg off : Nat) (data : Word) (s : State) : State :=
  match ringAt pg off with
  | some (p, t, true) => ringCfgWrite tid (txRing p t) 8 10 data (stopTxRing p t 8) s
  | some (p, t, false) => ringCfgWrite tid (rxRing p t) 8 10 data (stopRxRing p t 3) s
  | none =>
    if pg = pgTime2 ∧ off = Off.PTP_TXR_CFG then
      ringCfgWrite tid ptpTxRing 10 8 data (fun s =>
        (ringOwned s ptpTxRing).foldl (fun s d => setHead ptpTxRing ((d + 1) % ringSize s ptpTxRing)
          (dmaWrite 0 (ringDesc s ptpTxRing d + 0x10) (leBytes 1 8) s)) s) s
    else if pg = pgTime2 ∧ off = Off.PTP_RXR_CFG then
      ringCfgWrite tid ptpRxRing 10 8 data (fun s => (ringOwned s ptpRxRing).foldl (fun s d => abortRx ptpRxRing 3 d s) s) s
    else deny s

/-- RING_ENABLE (R350). -/
def execRingEnable (tid page offset : Nat) (data : Word) (s : State) : Host.Outcome State Fault Refusal :=
  .next (ringWrite tid page offset data s)

/-- RING_DISABLE (R354). -/
def execRingDisable (tid page offset : Nat) (data : Word) (s : State) : Host.Outcome State Fault Refusal :=
  .next (ringWrite tid page offset data s)

/-- RING_DISABLE_DONE (R354). -/
def ringDisableDone (pg off tm : Nat) (s : State) : State :=
  let s0 := advance s tm
  match ringAt pg off with
  | some (p, t, true) => ringStopped (txRing p t) (settleNow p s0)
  | some (p, t, false) => ringStopped (rxRing p t) s0
  | none =>
    if pg = pgTime2 ∧ off = Off.PTP_TXR_CFG then ringStopped ptpTxRing s0
    else if pg = pgTime2 ∧ off = Off.PTP_RXR_CFG then ringStopped ptpRxRing s0 else s0

/-- RING_DISABLE_DONE. -/
def execRingDisableDone (page offset tm : Nat) (s : State) : Host.Outcome State Fault Refusal :=
  .next (ringDisableDone page offset tm s)

end Sys2Proof.Machine
end

