-- ==== Sys2Proof/Machine/PortsRx.lean ====
section
/-!
DEFINITION. Reception: bad frames, the receiving half of the RED block, pause, steering, classification, the receive FIFO and the node
table (spec/14_network_ports.md R352, R356-R362, R364-R366).
-/
namespace Sys2Proof.Machine

/-! ### The receive FIFO (R352, R357, R361) -/

/-- Octets in the receive FIFO of port `p`. -/
def fifoLevel (s : State) (p : Nat) : Nat := ((portOf s p).fifo.map (fun f => f.bytes.length)).foldl (· + ·) 0

/-- A pause frame of the port's own (R361): it goes out at the next frame boundary. -/
def sendPause (p t : Nat) (s : State) : State :=
  let s1 := settleNow p s
  let s2 := updPort p (fun x => { x with pauses := x.pauses ++ [t], pauseAt := now25 s1 }) s1
  serve p (now25 s2) s2

def pauseTime (s : State) (p : Nat) : Nat := regFld s (pgPort p) Off.PAUSE_CFG 0 16
def rxHi (s : State) (p : Nat) : Nat := 256 * regFld s (pgPort p) Off.PAUSE_CFG 16 8
def rxLo (s : State) (p : Nat) : Nat := 256 * regFld s (pgPort p) Off.PAUSE_CFG 24 8

/-- The level has risen to RX_HI, or fallen to RX_LO (R361). -/
def watermarks (p : Nat) (s : State) : State :=
  let x := portOf s p
  if !(regBit s (pgPort p) Off.PCFG 10) then s
  else if !x.pausing && rxHi s p ≤ fifoLevel s p then
    sendPause p (pauseTime s p) (linkBit p 7 true (updPort p (fun x => { x with pausing := true }) s))
  else if x.pausing && fifoLevel s p ≤ rxLo s p then
    sendPause p 0 (linkBit p 7 false (updPort p (fun x => { x with pausing := false }) s))
  else s

/-- PAUSE_REPEAT (R361): half of PAUSE_TIME quanta of 64 octets after the latest pause. -/
def pauseRepeat (p tm : Nat) (s : State) : State :=
  let s0 := advance s tm
  let x := portOf s0 p
  if p < 4 && x.pausing && rxLo s0 p < fifoLevel s0 p && x.pauseAt + pauseTime s0 p * 32 * octet s0 p ≤ 25 * tm then
    sendPause p (pauseTime s0 p) s0
  else s0

/-- PAUSE_REPEAT. -/
def execPauseRepeat (port tm : Nat) (s : State) : Host.Outcome State Fault Refusal := .next (pauseRepeat port tm s)

/-- Posted descriptors of a receive ring that no frame in a FIFO takes. -/
def freeDescs (s : State) (rp t : Nat) : Nat :=
  let taken := ((List.range 4).map (fun q => ((portOf s q).fifo.filter (fun f => f.ringPort = rp && f.tids.contains t)).length)).foldl (· + ·) 0
  ringOcc s (rxRing rp t) - taken

/-- The port whose rings take the frames of port `p`: the A port of a redundant pair (R357). -/
def ringPortOf (s : State) (p : Nat) : Nat := if redMode s (p / 2) ≠ 0 then p / 2 * 2 else p

/-- A frame for the rings of the TIDs `ts` (R357, R361): it enters the FIFO, and every ring without a descriptor loses its copy. -/
def toRings (p : Nat) (f : RxFrame) (s : State) : State :=
  if 65536 < fifoLevel s p + f.bytes.length then setIrq (pgPort p) 8 (countPort p cRxOvf s)
  else
    let rp := f.ringPort
    let has := fun t => ringEn s (rxRing rp t) && 0 < freeDescs s rp t
    let s1 := (f.tids.filter (fun t => !has t)).foldl (fun s t =>
      doorbellEvt rp t 4 (countReg s (pgPort rp) (Off.RX_NODESC + 0x20 * t) 1)) s
    let ts := f.tids.filter has
    if ts = [] then s1 else watermarks p (updPort p (fun x => { x with fifo := x.fifo ++ [{ f with tids := ts }] }) s1)

/-- A frame written to a posted descriptor of its ring (R352, R358). -/
def fillDesc (p : Nat) (f : RxFrame) (t : Nat) (s : State) : State :=
  let r := rxRing f.ringPort t
  let d := ringHead s r
  let a := ringDesc s r d
  let tagged := beNat ((f.bytes.drop 12).take 2) = 0x8100
  let strip := regBit s (pgPort p) Off.PCFG 6 && tagged
  let long := f.flags / 4 % 2 = 1
  let body := if strip then f.bytes.take 12 ++ f.bytes.drop 16 else f.bytes
  let data := if long then body.take (maxLen s p) else body
  let len := if long then maxLen s p - 4 else body.length
  let tci := if strip then beNat ((f.bytes.drop 14).take 2) else 0
  let stamp := stampIn s (regFld s (pgPort p) Off.PCFG 16 2) f.stamp (-f.corr) / 65536
  let ok := match dmaRead s t a 8 with
    | some w => if inWindow s t (leNat (w.take 6) / 64 * 64) data.length then some (leNat (w.take 6) / 64 * 64) else none
    | none => none
  let status := if ok.isNone then 5 else if f.flags % 32 ≠ 0 then 2 else 1
  let s1 := match ok with | some b => dmaWrite t b data s | none => s
  let words := leBytes 2 len ++ leBytes 1 status ++ leBytes 1 (f.flags % 32 + b2n strip * 32) ++ leBytes 2 tci
    ++ leBytes 1 (f.lan % 4 + f.entry % 64 * 4) ++ leBytes 1 0 ++ leBytes 8 stamp
  doorbellEvt f.ringPort t 1 (setHead r ((d + 1) % ringSize s r) (dmaWrite t (a + 8) words s1))

/-- RX_DESCRIPTOR_COMPLETE (R352): one copy of the frame at the head of the FIFO. -/
def rxDescriptorComplete (p tm : Nat) (s : State) : State :=
  let s0 := advance s tm
  match (portOf s0 p).fifo with
  | [] => s0
  | f :: rest =>
    match f.tids with
    | [] => watermarks p (updPort p (fun x => { x with fifo := rest }) s0)
    | t :: ts =>
      let s1 := fillDesc p f t s0
      watermarks p (updPort p (fun x => { x with fifo := if ts = [] then rest else { f with tids := ts } :: rest }) s1)

/-- RX_DESCRIPTOR_COMPLETE. -/
def execRxDescriptorComplete (port tm : Nat) (s : State) : Host.Outcome State Fault Refusal :=
  .next (rxDescriptorComplete port tm s)

/-! ### Classification (R357) -/

/-- Whether entry `e` of port `p` matches. -/
def clMatch (s : State) (p e da : Nat) (tag : Option Nat) (ty : Nat) : Bool :=
  let r := fun o => reg s (pgPort p) (o + 0x10 * e)
  let pre := fld (r Off.CL_DA_HI) 16 6
  let want := (r Off.CL_DA_LO).toNat + fld (r Off.CL_DA_HI) 0 16 * 2 ^ 32
  bit (r Off.CL_TMASK) 31 && da / 2 ^ (48 - pre) = want / 2 ^ (48 - pre)
  && (!(bit (r Off.CL_MATCH) 12) || (tag = some (fld (r Off.CL_MATCH) 0 12) && ty ≠ 0x8100))
  && (!(bit (r Off.CL_TMASK) 16) || ty = fld (r Off.CL_MATCH) 16 16)

/-- Row 8 of R356: the first matching entry's TIDs, or the default. -/
def classify (p : Nat) (f : RxFrame) (s : State) : State :=
  let (da, tag, _, ty, _) := etherHeader f.bytes
  match (List.range 32).find? (fun e => clMatch s p e da tag ty) with
  | some e => toRings p { f with tids := idxWhere 16 (fun t => regBit s (pgPort p) (Off.CL_TMASK + 0x10 * e) t), entry := e } s
  | none =>
    if regBit s (pgPort p) Off.PCFG 24 then countPort p cRxUnsteered s
    else toRings p { f with tids := [regFld s (pgPort p) Off.PCFG 20 4], entry := 0x3F } s

/-! ### The RED block: receiving (R364-R366) -/

/-- Keys of a table that are still remembered at instant `tm`. -/
def liveKeys (s : State) (g tm : Nat) (l : List (Nat × Nat × Nat)) : List (Nat × Nat × Nat) :=
  l.filter (fun k => tm ≤ k.2.2 + regFld s pgRed (Off.RED_CFG + 4 * g) 16 10 * 1200000)

/-- Duplicate discard (R364): whether this is the first copy of its key. -/
def firstCopy (g sa seq tm : Nat) (s : State) : Bool × State :=
  let ks := liveKeys s g tm (redOf s g).keys
  if ks.any (fun k => k.1 = sa && k.2.1 = seq) then (false, countRed g 0 (updRed g (fun r => { r with keys := ks }) s))
  else
    let full := 4096 ≤ ks.length
    let ks' := (if full then ks.drop 1 else ks) ++ [(sa, seq, tm)]
    (true, (if full then countRed g 2 else id) (updRed g (fun r => { r with keys := ks' }) s))

/-- A valid redundancy control trailer: SeqNr and LanId (assumption 19). -/
def trailerOf (f : List Byte) : Option (Nat × Nat) :=
  let n := f.length
  let t := f.drop (n - 6)
  let hdr := if beNat ((f.drop 12).take 2) = 0x8100 then 18 else 14
  let lan := beNat ((t.drop 2).take 2) / 4096
  if hdr + 6 ≤ n && beNat (t.drop 4) = 0x88FB && (lan = 0xA || lan = 0xB) && beNat ((t.drop 2).take 2) % 4096 = n - hdr then
    some (beNat (t.take 2), lan)
  else none

/-- The queue of a forwarded frame on port `p`: its PCP through QMAP (R346). -/
def qmapQueue (s : State) (p pcp : Nat) : Nat := regFld s (pgPort p) Off.QMAP (3 * (pcp % 8)) 3

/-- The node that a supervision frame names and whether it is a proxied SAN (assumption 19). -/
def supNode (f : List Byte) : Nat × Bool :=
  let (_, _, _, _, p) := etherHeader f
  (beNat ((p.drop 6).take 6), (p.drop 12).take 1 = [30])

/-- A node of pair `g` seen on side A (0) or B (1) (R366). -/
def seeNode (g side : Nat) (f : List Byte) (tm : Nat) (s : State) : State :=
  let (a, prox) := supNode f
  let s1 := countRed g 7 s
  let tick := s.tick.count % 2 ^ 32
  let seen := fun (n : RedNode) =>
    { n with tickA := if side = 0 then tick else n.tickA, tickB := if side = 1 then tick else n.tickB, seen := tm, proxied := prox }
  let put := fun i (n : RedNode) s => updRed g (fun r => { r with nodes := tset r.nodes i (seen n) }) s
  match (redOf s1 g).nodes.find? (fun n => n.2.addr = a) with
  | some (i, n) => put i n s1
  | none =>
    match (List.range 256).find? (fun i => (redOf s1 g).nodes.all (fun n => n.1 ≠ i)) with
    | some i => setIrq pgRed 1 (put i ⟨a, 0, 0, tm, prox⟩ s1)
    | none => countRed g 9 s1

/-- A frame of the pair sent on the interlink: to a SAN learned there, or multicast (R365). -/
def toInterlink (g : Nat) (f : List Byte) (s : State) : State :=
  let (da, _, pcp, _, _) := etherHeader f
  let il := redIl s g
  let multi := da / 2 ^ 40 % 2 = 1
  if redBox s g && (multi || (redOf s g).proxy.any (fun x => x.2.1 = da)) then
    enqueue il ⟨qmapQueue s il pcp, f, .forwarded⟩ s
  else s

/-- A frame of a redundant pair (R364, R365): what passes to steering, with its LAN. -/
def redReceive (g side : Nat) (f : List Byte) (tm : Nat) (s : State) : Option (List Byte × Nat) × State :=
  let s1 := countRed g (3 + side) s
  let sa := beNat ((f.drop 6).take 6)
  let da := beNat (f.take 6)
  let multi := da / 2 ^ 40 % 2 = 1
  let tagged := beNat ((f.drop 12).take 2) = 0x8100
  if !redHsr s g then
    match trailerOf f with
    | none => (some (f, 0), toInterlink g f s1)
    | some (seq, lan) =>
      let inner := f.take (f.length - 6)
      let s2 := if lan = 0xA + side then s1 else setIrq pgRed 4 (countRed g 1 s1)
      let (_, _, _, ty, _) := etherHeader inner
      let s3 := if ty = 0x88FB then seeNode g side inner tm s2 else s2
      let d := firstCopy g sa seq tm s3
      if d.1 then (some (inner, side + 1), toInterlink g inner d.2) else (none, d.2)
  else
    let at0 := if tagged then 16 else 12
    if beNat ((f.drop at0).take 2) ≠ 0x892F then (some (f, 0), toInterlink g f s1)
    else
      let seq := beNat ((f.drop (at0 + 4)).take 2)
      let inner := f.take at0 ++ f.drop (at0 + 6)
      let own := portAddr s (2 * g)
      if sa = own then (none, countRed g 6 s1)
      else
        let (_, _, pcp, ty, _) := etherHeader inner
        let s2 := if ty = 0x88FB then seeNode g side inner tm s1 else s1
        let mine := multi || da = own
        let san := redBox s g && (redOf s g).proxy.any (fun x => x.2.1 = da)
        let d := if mine || san then firstCopy g sa seq tm s2 else (false, s2)
        let s3 := if d.1 then toInterlink g inner d.2 else d.2
        let fw := liveKeys s3 g tm (redOf s3 g).forwarded
        let s4 :=
          if da = own || fw.any (fun k => k.1 = sa && k.2.1 = seq) then updRed g (fun r => { r with forwarded := fw }) s3
          else
            let other := 2 * g + (1 - side)
            enqueue other ⟨qmapQueue s3 other pcp, f, .forwarded⟩
              (countRed g 5 (updRed g (fun r => { r with forwarded := (if 4096 ≤ fw.length then fw.drop 1 else fw) ++ [(sa, seq, tm)] }) s3))
        (if d.1 && mine then some (inner, side + 1) else none, s4)

/-- A frame received on an interlink is sent into its pair, and its source is learned (R365). -/
def fromInterlink (p : Nat) (f : List Byte) (tm : Nat) (s : State) : State :=
  (List.range 2).foldl (fun s g =>
    if redBox s g && redIl s g = p then
      let sa := beNat ((f.drop 6).take 6)
      let (_, _, pcp, _, _) := etherHeader f
      let t := (redOf s g).proxy
      let i := match t.find? (fun x => x.2.1 = sa) with
        | some (i, _) => some i
        | none => (List.range 256).find? (fun i => t.all (fun x => x.1 ≠ i))
      let s1 := match i with | some i => updRed g (fun r => { r with proxy := tset r.proxy i (sa, tm) }) s | none => s
      sendPair g (qmapQueue s (2 * g) pcp) f .forwarded .forwarded s1
    else s) s

/-! ### Messages of PTP (spec/15_time_unit.md R373, R374) -/

/-- A message delivered to the PTP receive ring with its corrected stamp in TB0 and its port (R374); without a descriptor it is dropped. -/
def ptpDeliver (p : Nat) (f : RxFrame) (s : State) : State :=
  let r := ptpRxRing
  if !ringEn s r || ringOcc s r = 0 then countPtp p Off.RX_DROP s
  else
    let d := ringHead s r
    let a := ringDesc s r d
    let ok := match dmaRead s 0 a 8 with
      | some w => if inWindow s 0 (leNat (w.take 6) / 64 * 64) f.bytes.length then some (leNat (w.take 6) / 64 * 64) else none
      | none => none
    let s1 := match ok with | some b => dmaWrite 0 b f.bytes s | none => s
    let words := leBytes 2 f.bytes.length ++ leBytes 1 (if ok.isNone then 5 else 1) ++ leBytes 1 0 ++ leBytes 2 0
      ++ leBytes 1 (f.lan % 4 + 63 * 4) ++ leBytes 1 p ++ leBytes 8 (stampIn s 0 f.stamp (-f.corr) / 65536)
    setIrq pgTime2 1 (setHead r ((d + 1) % ringSize s r) (dmaWrite 0 (a + 8) words s1))

/-- The Time unit takes a frame of EtherType 0x88F7: a timed message is handed on, Delay_Req, Delay_Resp and what is outside the limits
of R373 are dropped, every other message goes to the receive ring. -/
def ptpReceive (p : Nat) (f : RxFrame) (hand : State → State) (s : State) : State :=
  let (da, _, _, _, body) := etherHeader f.bytes
  match parsePtp body with
  | none => countPtp p Off.RX_DROP s
  | some m =>
    if !ppEn s p || !ptpAddress s p da || m.type = 1 || m.type = 9 then countPtp p Off.RX_DROP s
    else if m.type = 0 || m.type = 2 || m.type = 3 || m.type = 8 || m.type = 10 then hand (countPtp p Off.RX_EVT s)
    else ptpDeliver p f s

/-! ### Steering (R356, R359, R360) -/

/-- A pause frame (R360). -/
def receivePause (p quanta tm : Nat) (s : State) : State :=
  let s1 := countPort p cRxPause s
  if p = 4 || regFld s (pgPort p) Off.PCFG 8 2 = 0 then s1
  else if quanta = 0 then releasePause p (linkBit p 6 false (updPort p (fun x => { x with pauseUntil := none }) s1))
  else linkBit p 6 true (updPort p (fun x => { x with pauseUntil := some (25 * tm + quanta * 64 * octet s p) }) (settleNow p s1))

/-- The consumer of a good frame after the RED block (R356). -/
def steer (p : Nat) (f : RxFrame) (tm : Nat) (s : State) : State :=
  let (da, _, _, ty, body) := etherHeader f.bytes
  let hand := fun s => { s with handed := s.handed ++ [⟨p, f.bytes, f.stamp / 25, f.corr, f.lan⟩] }
  if ty = 0x8808 then
    (if beNat (body.take 2) = 1 && (da = 0x0180C2000001 || da = portAddr s p) then receivePause p (beNat ((body.drop 2).take 2)) tm s
     else countPort p cRxCtrl s)
  else if ty = 0x88FB then s
  else if ty = 0x88B5 && (p = 4 || regBit s pgPair0 Off.BK_CFG p) then s
  else if p = 4 then countPort p cRxCtrl s
  else if ty = 0x88F7 then ptpReceive p f hand s
  else if ty = 0x88BA || ty = 0x88B8 then hand s
  else classify p f s

/-- Flags of a received frame (R352, R359): FCS, RUNT, LONG, CODE, FRAG. -/
def rxFlags (s : State) (p : Nat) (f : List Byte) (err : RxError) : Nat :=
  (if err = .fcs then 1 else 0) + (if f.length + 4 < 64 then 2 else 0) + (if maxLen s p < f.length + 4 then 4 else 0)
    + (if err = .code then 8 else 0) + (if err = .fragment then 16 else 0)

/-- FRAME_RECEIVED (R356): the octets from DA to the one before the FCS, the last bit of the frame at `tm`. -/
def frameReceived (p : Nat) (f : List Byte) (err : RxError) (tm : Nat) (s : State) : State :=
  let s0 := advance s tm
  if !(hasPort s p && linkUp s0 p) then s0
  else
    let c := stampCorr p false s0
    let flags := rxFlags s0 p f err
    let x : RxFrame := ⟨f, flags, [], ringPortOf s0 p, 25 * tm - (f.length + 4) * octet s0 p, c.1, 0, 0x3F⟩
    match (List.range 5).find? (fun i => flags / 2 ^ i % 2 = 1) with
    | some i =>
      let s1 := countPort p (cRxFcs + i) c.2
      if p < 4 && regBit s1 (pgPort p) Off.PCFG 5 then toRings p { x with tids := [regFld s1 (pgPort p) Off.PCFG 20 4] } s1 else s1
    | none =>
      let s1 := countPort p cRxOk c.2
      if p < 4 && redMode s1 (p / 2) ≠ 0 then
        let r := redReceive (p / 2) (p % 2) f tm s1
        match r.1 with
        | some (g, lan) => steer p { x with bytes := g, lan := lan } tm r.2
        | none => r.2
      else steer p x tm (if p < 4 then fromInterlink p f tm s1 else s1)

/-- FRAME_RECEIVED. -/
def execFrameReceived (port : Nat) (frame : List Byte) (err : RxError) (tm : Nat) (s : State) : Host.Outcome State Fault Refusal :=
  .next (frameReceived port frame err tm s)

/-! ### Configuration and supervision of a pair (R362, R366) -/

/-- Whether a write of RED_CFG breaks a condition of R362. -/
def redCfgBad (s : State) (g : Nat) (data : Word) : Bool :=
  let m := fld data 0 3
  let il := fld data 4 3
  let forget := fld data 16 10
  5 ≤ m || forget < 1 || 1000 < forget
  || ((m = 3 || m = 4) && !(il < 4 && il < numPorts s.variant && il / 2 ≠ g && redMode s (il / 2) = 0))
  || (m ≠ 0 && portAddr s (2 * g) ≠ portAddr s (2 * g + 1))
  || (m ≠ 0 && (List.range 2).any (fun o => o ≠ g && redBox s o && redIl s o / 2 = g))
  || regBit s (pgPort (2 * g)) Off.CTRL 0 || regBit s (pgPort (2 * g + 1)) Off.CTRL 0

/-- RED_CFG_WRITE (R362). -/
def redCfgWrite (tid g : Nat) (data : Word) (s : State) : State :=
  let off := Off.RED_CFG + 4 * g
  if g < 2 then
    access tid pgRed off data (fun s =>
      let m := fld data 0 3
      if s.variant = .wln4820 && (m = 2 || m = 3 || m = 4 || (g = 1 && m ≠ 0)) then deny s
      else if redCfgBad s g data then refuse pgRed 8 off tid s
      else plainWrite pgRed off data s) s
  else deny s

/-- RED_CFG_WRITE. -/
def execRedCfgWrite (tid pair : Nat) (data : Word) (s : State) : Host.Outcome State Fault Refusal :=
  .next (redCfgWrite tid pair data s)

/-- A supervision frame of pair `g` for the node address `a`, with the RedBox's own where `a` is a proxied SAN (assumption 19). -/
def supFrame (s : State) (g a : Nat) (proxied : Bool) : List Byte :=
  let own := portAddr s (2 * g)
  beBytes 6 (0x01154E000100 + regFld s pgRed (Off.SUP_CFG + 4 * g) 8 8) ++ beBytes 6 own ++ beBytes 2 0x88FB ++ beBytes 2 1
    ++ beBytes 2 (redOf s g).supSeq ++ beBytes 1 (if redHsr s g then 23 else 20) ++ beBytes 1 6 ++ beBytes 6 a
    ++ (if proxied then beBytes 1 30 ++ beBytes 1 6 ++ beBytes 6 own else []) ++ beBytes 2 0

/-- A supervision frame sent on both ports; its queue is queue 7 (assumption 19). -/
def sendSup (g a : Nat) (proxied : Bool) (s : State) : State :=
  let f := supFrame s g a proxied
  sendPair g 7 f .supervision .supervision (countRed g 8 (updRed g (fun r => { r with supSeq := (r.supSeq + 1) % 65536 }) s))

/-- SUPERVISION_TIMER (R366): every LIFE_CHECK × 100 ms. -/
def supervisionTimer (g tm : Nat) (s : State) : State :=
  let s0 := advance s tm
  let due := match (redOf s0 g).lastSup with
    | some l => decide (l + regFld s0 pgRed (Off.SUP_CFG + 4 * g) 16 10 * 120000000 ≤ tm)
    | none => true
  if g < 2 && redMode s0 g ≠ 0 && regBit s0 pgRed (Off.SUP_CFG + 4 * g) 0 && due then
    let s1 := sendSup g (portAddr s0 (2 * g)) false (updRed g (fun r => { r with lastSup := some tm }) s0)
    if redBox s1 g then (redOf s1 g).proxy.foldl (fun s x => sendSup g x.2.1 true s) s1 else s1
  else s0

/-- SUPERVISION_TIMER. -/
def execSupervisionTimer (pair tm : Nat) (s : State) : Host.Outcome State Fault Refusal := .next (supervisionTimer pair tm s)

/-- NODE_FORGET (R365, R366): a node or a proxied address last seen NODE_FORGET seconds ago. -/
def nodeForget (g n : Nat) (proxy : Bool) (tm : Nat) (s : State) : State :=
  let s0 := advance s tm
  let life := regFld s0 pgRed (Off.NODE_CFG + 4 * g) 0 12 * 1200000000
  if proxy then
    (if (redOf s0 g).proxy.any (fun x => x.1 = n && x.2.2 + life ≤ tm) then updRed g (fun r => { r with proxy := tdel r.proxy n }) s0 else s0)
  else if (redOf s0 g).nodes.any (fun x => x.1 = n && x.2.seen + life ≤ tm) then
    setIrq pgRed 2 (updRed g (fun r => { r with nodes := tdel r.nodes n }) s0)
  else s0

/-- NODE_FORGET. -/
def execNodeForget (pair node : Nat) (proxy : Bool) (tm : Nat) (s : State) : Host.Outcome State Fault Refusal :=
  .next (nodeForget pair node proxy tm s)

/-- Selector 0x0010 + g of the RED page (R369). -/
def nodeSnapshot (tid g n : Nat) (s : State) : State :=
  selectMailbox tid pgRed (selWord (0x10 + g) n) (g < 2) s

/-- NODE_SNAPSHOT. -/
def execNodeSnapshot (tid pair index : Nat) (s : State) : Host.Outcome State Fault Refusal := .next (nodeSnapshot tid pair index s)

/-! ### Soft reset and the gate (R367; spec/13_redundant_pair.md R325) -/

/-- A soft reset of a port: every tenant descriptor, and every one of the PTP ring that waits on the port, completes with
ABORTED, the FIFOs and the pause state clear (R367). -/
def portSoftReset (p : Nat) (s : State) : State :=
  let s0 := settleNow p s
  let x := portOf s0 p
  let onWire := (match x.wire with | some w => [w.frame] | none => []) ++ (match x.preempted with | some w => [w.frame] | none => [])
  let s1 := updPort p (fun x => { x with
    queue := (onWire ++ x.queue).filter (fun f => match f.src with | .ring _ _ _ => true | _ => false), wire := none, preempted := none
    pauses := [], fifo := [], pauseUntil := none, pausing := false }) s0
  let ptp := (onWire ++ x.queue).filterMap (fun f => match f.src with | .ptpRing d _ => some d | _ => none)
  let s2 := (List.range 16).foldl (fun s t =>
    let r := txRing p t
    let ds := ((portOf s p).queue.filter (ofRing t)).filterMap (fun f => match f.src with | .ring _ d _ => some d | _ => none)
    let s3 := ((ringOwned s r).filter (fun d => ds.contains d)).foldl (fun s d => completeTx r p t d 8 0 s)
      (updPort p (fun x => { x with queue := x.queue.filter (fun f => !ofRing t f) }) s)
    if p < 4 then stopRxRing p t 3 s3 else s3) (ptp.foldl (fun s d => completeTx ptpTxRing 0 16 d 8 0 s) s1)
  clearReg s2 (pgPort p) Off.LINK_STAT 0xC0

/-- The GOOSE frames of port `p` that have not begun are discarded, and one in transmission is cut (R325): the publications of the
frames discarded. -/
def gateCut (p : Nat) (s : State) : List Nat × State :=
  let s0 := settleNow p s
  let pubOf := fun (f : TxFrame) => match f.src with | .goose k => some k | _ => none
  let ks := (portOf s0 p).queue.filterMap pubOf
  let s1 := updPort p (fun x => { x with queue := x.queue.filter (fun f => (pubOf f).isNone) }) s0
  match (portOf s1 p).wire with
  | some w =>
    if (pubOf w.frame).isSome then
      let o := octet s1 p
      let k := (now25 s1 - w.start + o - 1) / o
      let s2 := countPort p cTxAbort (updPort p (fun x => { x with wire := none }) s1)
      (ks, updPort p (fun x => { x with wire := some { w with
        frame := { w.frame with src := .aborted }, cut := none, dead := false, endAt := w.start + (k + 16) * o } }) s2)
    else (ks, s1)
  | none => (ks, s1)

end Sys2Proof.Machine
end

