-- ==== Sys2Proof/Machine/Pulse.lean ====
section
/-!
DEFINITION. The pulse outputs (spec/09_quantity_engine.md R242-R245, R248).
-/
namespace Sys2Proof.Machine

/-- Pulse output `o`. -/
def outOf (s : State) (o : Nat) : PulseOut := tget PulseOut.init s.met.outs o

/-- Pulse output `o` changed. -/
def updOut (o : Nat) (f : PulseOut → PulseOut) (s : State) : State :=
  { s with met := { s.met with outs := tset s.met.outs o (f (outOf s o)) } }

/-- A register of output `o`, by its offset in the block. -/
def po (s : State) (o off : Nat) : Word := reg s pgPul (off + 0x20 * o)
def poEn (s : State) (o : Nat) : Bool := bit (po s o Off.PO_CFG) 0
def poResidue (s : State) (o : Nat) : Bool := bit (po s o Off.PO_CFG) 1
def poTid (s : State) (o : Nat) : Nat := fld (po s o Off.PO_CFG) 16 4
def poHigh (s : State) (o : Nat) : Bool := bit (po s o Off.PO_STAT) 16
def poBacklog (s : State) (o : Nat) : Nat := fld (po s o Off.PO_STAT) 0 16
def pulOn (s : State) : Bool := regBit s pgPul Off.CTRL 0

/-- The publish gate (R208, spec/13_redundant_pair.md R322). -/
def gateIsOpen (s : State) : Bool := regBit s pgPair0 Off.GATE_STAT 0

def setBacklog (o n : Nat) (s : State) : State := setRegFld s pgPul (Off.PO_STAT + 0x20 * o) 0 16 n
def setHigh (o : Nat) (b : Bool) (s : State) : State := setRegFld s pgPul (Off.PO_STAT + 0x20 * o) 16 1 (b2n b)
def countOut (o off n : Nat) (s : State) : State := countReg s pgPul (off + 0x20 * o) n

/-! ### Pulses (R242) -/

/-- A pulse begins at instant `t`: high for WIDTH × 10 µs. -/
def raisePulse (o t : Nat) (s : State) : State :=
  let w := fld (po s o Off.PO_WIDTH) 0 16 * 12000
  countOut o Off.PO_COUNT 1 (setHigh o true (updOut o (fun x => { x with highEnd := t + w, width := w, lowEnd := none }) s))

/-- A queued pulse begins at `t`, where the output is low, its low time has passed and the gate is open; a closed gate keeps the queue
(assumption 29). -/
def startQueued (o t : Nat) (s : State) : State :=
  if !poHigh s o && (outOf s o).lowEnd = none && 0 < poBacklog s o && gateIsOpen s && pulOn s && poEn s o then
    raisePulse o t (setBacklog o (poBacklog s o - 1) s)
  else s

/-- The pulse that is high ends, where its width has passed by `t`: the low time begins. -/
def endPulse (o t : Nat) (s : State) : State :=
  let x := outOf s o
  if poHigh s o && x.highEnd ≤ t then setHigh o false (updOut o (fun x => { x with lowEnd := some (x.highEnd + x.width) }) s) else s

/-- The low time ends, where it has passed by `t`, and a queued pulse begins at its end. -/
def endLow (o t : Nat) (s : State) : State :=
  match (outOf s o).lowEnd with
  | some e => if !poHigh s o && e ≤ t then startQueued o e (updOut o (fun x => { x with lowEnd := none }) s) else s
  | none => s

/-- The output brought to instant `t`. -/
def outTo (o t : Nat) : Nat → State → State
  | 0, s => s
  | n + 1, s =>
    let s1 := endLow o t (endPulse o t s)
    if poHigh s1 o && (outOf s1 o).highEnd ≤ t then outTo o t n s1 else s1

/-- The output at instant `t`, every queued pulse served. -/
def serveOut (o t : Nat) (s : State) : State := outTo o t (poBacklog s o + 2) s

/-- A pulse that is due takes its place at instant `t`: it begins where the output is free and the gate open, and is queued otherwise. -/
def placePulse (o t : Nat) (s : State) : State :=
  if gateIsOpen s && !poHigh s o && (outOf s o).lowEnd = none && poBacklog s o = 0 then raisePulse o t s
  else if poBacklog s o < 65535 then startQueued o t (setBacklog o (poBacklog s o + 1) s)
  else setIrq pgPul 1 (countOut o Off.PO_LOST 1 s)

/-- A pulse falls due at instant `t`. -/
def pulseDue (o t : Nat) (s : State) : State :=
  let s1 := serveOut o t s
  if !gateIsOpen s1 then countOut o Off.PO_GATED 1 s1 else placePulse o t s1

/-- PULSE_START: a due or queued pulse that can begin at `tm` begins. -/
def pulseStart (o tm : Nat) (s : State) : State :=
  let s0 := advance s tm
  if o < 8 then startQueued o tm (serveOut o tm s0) else s0

/-- PULSE_START. -/
def execPulseStart (output tm : Nat) (s : State) : Host.Outcome State Fault Refusal := .next (pulseStart output tm s)

/-- PULSE_END: the width has passed, and the output goes low. -/
def pulseEnd (o tm : Nat) (s : State) : State := if o < 8 then endPulse o tm (advance s tm) else advance s tm

/-- PULSE_END. -/
def execPulseEnd (output tm : Nat) (s : State) : Host.Outcome State Fault Refusal := .next (pulseEnd output tm s)

/-- PULSE_LOW_END: the low time has passed, and a queued pulse may begin. -/
def pulseLowEnd (o tm : Nat) (s : State) : State := if o < 8 then endLow o tm (advance s tm) else advance s tm

/-- PULSE_LOW_END. -/
def execPulseLowEnd (output tm : Nat) (s : State) : Host.Outcome State Fault Refusal := .next (pulseLowEnd output tm s)

/-! ### Residue mode (R244) -/

/-- ACC_RES has taken its increments up to fabric cycle `f`: its value, and the fabric cycles of its carries. -/
def residueTo (x : PulseOut) (f : Nat) : Nat × List Nat :=
  match x.since with
  | none => (x.acc, [])
  | some b =>
    if f < b || x.inc = 0 then (x.acc, [])
    else
      let total := x.acc + x.inc * (f - b + 1)
      -- the carry number j comes in the cycle in which the sum reaches (j + 1)·2^48
      (total % 2 ^ 48, (List.range (total / 2 ^ 48)).map (fun j => b + ((j + 1) * 2 ^ 48 - x.acc + x.inc - 1) / x.inc - 1))

/-- Output `o` brought to fabric cycle `f`: each carry makes a pulse due in its cycle. -/
def residueRun (o f : Nat) (s : State) : State :=
  let x := outOf s o
  let r := residueTo x f
  let s1 := updOut o (fun y => { y with acc := r.1, since := x.since.map (fun b => max b (f + 1)) }) s
  r.2.foldl (fun s c => pulseDue o (2 * c) s) s1

/-- RESIDUE_CARRY: the carries up to the fabric cycle of `tm`. -/
def residueCarry (o tm : Nat) (s : State) : State :=
  let s0 := advance s tm
  if o < 8 then residueRun o (tm / 2) s0 else s0

/-- RESIDUE_CARRY. -/
def execResidueCarry (output tm : Nat) (s : State) : Host.Outcome State Fault Refusal := .next (residueCarry output tm s)

/-- The increment of a power value: inc, and whether it was clamped. -/
def residueInc (kres : BitVec 64) (p : FVal) (neg : Bool) : Nat × Bool :=
  let q := if neg then fvalNeg p else p
  if fvalLt dZero q then
    match q with
    | .inf _ => (2 ^ 48, true)
    | v =>
      match fvalRound (fvalMul v (f64 kres)) with
      | some i => if 2 ^ 48 < i then (2 ^ 48, true) else (i.toNat, false)
      | none => (0, false)
  else (0, false)

/-- The residue outputs at a flip (R244): each reads its source in the new table. -/
def residueFlip (s : State) : State :=
  let f := s.now / 2
  (List.range 8).foldl (fun s o =>
    if !poEn s o || !poResidue s o then s
    else
      let s1 := residueRun o (f - 1) s
      let e := published s1 (fld (po s1 o Off.PO_SRC) 0 12) (fld (po s1 o Off.PO_SRC) 12 3)
      let bad := fld e.2 0 2 = 1 || fld e.2 0 2 = 2 || bit e.2 31 || f32 e.1 = .nan
      let i := if bad then (0, false) else residueInc (outOf s1 o).kres (f32 e.1) (bit (po s1 o Off.PO_CFG) 2)
      let s2 := updOut o (fun x => { x with inc := i.1, since := if pulOn s1 then some f else none }) s1
      setIrq pgPul ((if bad then 2 else 0) ||| (if i.2 then 4 else 0)) s2) s

/-! ### Tick-edge mode (R243) -/

/-- An integration step of accumulator `a` of point `m` by `d`: the pulses that fall due start at the next tick edge. -/
def stepPulses (m a d : Nat) (s : State) : State :=
  (List.range 8).foldl (fun s o =>
    let c := po s o Off.PO_CFG
    if poEn s o && !poResidue s o && pulOn s && fld c 4 3 = a && fld c 8 7 = m then
      let kh := (po s o Off.PO_KH).toNat
      let n := ((outOf s o).pcnt + d) % 2 ^ 64
      let due := n / kh
      let s1 := updOut o (fun x => { x with pcnt := n - due * kh }) s
      if gateIsOpen s1 then updOut o (fun x => { x with due := x.due + due }) s1 else countOut o Off.PO_GATED due s1
    else s) s

/-- At a tick edge the pulses that fell due in the pass before it start, or are queued. -/
def pulseEdge (s : State) : State :=
  (List.range 8).foldl (fun s o =>
    let n := (outOf s o).due
    (List.range n).foldl (fun s _ => placePulse o s.now (serveOut o s.now s)) (updOut o (fun x => { x with due := 0 }) s)) s

/-! ### Enable and configuration (R245) -/

/-- The result of an enable with the word `data`. -/
def poResult (s : State) (o : Nat) (data : Word) : Nat :=
  let t := fld data 16 4
  let x := pointOf s (fld data 8 7)
  let residue := bit data 1
  if po s o Off.PO_KH = 0 || fld (po s o Off.PO_WIDTH) 0 16 = 0 || (!residue && 5 < fld data 4 3) then 1
  else if !residue && !(pagePresent s.variant pgQe0) then 2
  else if !residue && !(ptEn x && (t = 0 || ptTid x = t)) then 3
  else if residue && !(entryInLane s t (fld (po s o Off.PO_SRC) 0 12)) then 4
  else if !(t < numTids s.variant) then 5
  else 0

/-- K_RES: the binary64 value nearest to 10^3·2^48 / (6·10^8·KH). -/
def kRes (kh : Nat) : BitVec 64 := toF64 (fvalDiv 53 (.fin false (1000 * 2 ^ 48) 0) (.fin false (600000000 * kh) 0))

/-- Output `o` without pulses, counter or residue, driven low. -/
def quietOut (o : Nat) (s : State) : State := setHigh o false (setBacklog o 0 (updOut o (fun _ => PulseOut.init) s))

/-- A write of PO_CFG: an enable, a disable, or a change of a disabled output. -/
def poCfgWrite (tid o : Nat) (data : Word) (s : State) : State :=
  let off := Off.PO_CFG + 0x20 * o
  if 8 ≤ o then deny s
  else access tid pgPul off data (fun s =>
    let old := po s o Off.PO_CFG
    let new := data &&& 0x000F7F77
    if bit old 0 then
      (if (new ||| 1) ≠ (old ||| 1) then refuse pgPul 9 off tid s
       else if bit new 0 then s
       else setReg (quietOut o (residueRun o (s.now / 2) s)) pgPul off new)
    else if bit new 0 then
      let r := poResult s o new
      let s1 := setRegFld s pgPul (Off.PO_STAT + 0x20 * o) 20 4 r
      if r ≠ 0 then refuse pgPul 8 off tid s1
      else updOut o (fun _ => { PulseOut.init with kres := if bit new 1 then kRes (po s o Off.PO_KH).toNat else 0 }) (setReg s1 pgPul off new)
    else setReg s pgPul off new) s

/-- PULSE_ENABLE. -/
def execPulseEnable (tid output : Nat) (data : Word) (s : State) : Host.Outcome State Fault Refusal :=
  .next (poCfgWrite tid output data s)

/-- PULSE_DISABLE. -/
def execPulseDisable (tid output : Nat) (data : Word) (s : State) : Host.Outcome State Fault Refusal :=
  .next (poCfgWrite tid output data s)

/-- A write of PO_KH or PO_SRC (R245). -/
def poFieldWrite (tid off : Nat) (data : Word) (s : State) : State :=
  access tid pgPul off data (fun s =>
    let o := (off - 0x100) / 0x20
    let s1 := plainWrite pgPul off data s
    if poEn s o && reg s1 pgPul off ≠ reg s pgPul off then refuse pgPul 9 off tid s else s1) s

/-! ### The gate, the header, snapshots -/

/-- The gate closes (R242, spec/13_redundant_pair.md R325): a pulse that is high is driven low and counted. -/
def gatePulses (s : State) : State :=
  (List.range 8).foldl (fun s o =>
    let s1 := serveOut o s.now (residueRun o (s.now / 2) s)
    if poHigh s1 o then
      countOut o Off.PO_GATED 1 (setHigh o false (updOut o (fun x => { x with lowEnd := some (s1.now + x.width) }) s1))
    else s1) s

/-- CTRL.EN of the PUL block changes (R248): without it every output is low and no pulse falls due. -/
def pulEnable (en : Bool) (s : State) : State :=
  (List.range 8).foldl (fun s o =>
    let s1 := residueRun o (s.now / 2) s
    if en then updOut o (fun x => { x with since := if poEn s1 o && poResidue s1 o then some (s1.now / 2 + 1) else none }) s1
    else setHigh o false (updOut o (fun x => { x with since := none, lowEnd := none, due := 0 }) s1)) s

/-- A soft reset of the PUL block (R248). -/
def pulSoftReset (s : State) : State :=
  (List.range 8).foldl (fun s o =>
    let k := (outOf s o).kres
    let s1 := updOut o (fun x => { x with kres := k }) (quietOut o s)
    [Off.PO_COUNT, Off.PO_GATED, Off.PO_LOST].foldl (fun s off => setReg s pgPul (off + 0x20 * o) 0) s1) s

/-- PULSE_SNAPSHOT (R248). -/
def pulseSnapshot (tid o : Nat) (s : State) : State := selectMailbox tid pgPul (selWord 1 o) (o < 8) s

/-- PULSE_SNAPSHOT. -/
def execPulseSnapshot (tid output : Nat) (s : State) : Host.Outcome State Fault Refusal := .next (pulseSnapshot tid output s)

end Sys2Proof.Machine
end

