-- ==== Sys2Proof/Machine/BlockEnable.lean ====
section
/-!
DEFINITION. What a change of CTRL.EN does in each block (spec/01_register_pages.md R19 and the block's own chapter).
-/
namespace Sys2Proof.Machine

/-- EN_ACK of page `pg` (R19). -/
def setAck (pg : Nat) (b : Bool) (s : State) : State := setRegFld s pg Off.STAT 0 1 (b2n b)

/-- CTRL.EN of page `pg` has changed to `en`. A port acknowledges its enable when it is powered (spec/14_network_ports.md R344), and an
engine a change when its string has ended (assumption 37). -/
def enChanged (pg : Nat) (en : Bool) (s : State) : State :=
  match pageAt pg with
  | some (.port, p) => portEnable p en s
  | some (.me, n) => if stringIdle s n then setAck pg en s else s
  | some (.hop0, _) => setAck pg en (if en then { s with hop := { s.hop with lastSealed := none } } else s)
  | some (.dec0, _) => setAck pg en (if en then chainsRestart (List.range 64) s else chainsDark s)
  | some (.qe0, _) => setAck pg en (if en then s else qeDisable s)
  | some (.pul, _) => setAck pg en (pulEnable en s)
  | some (.cap, k) => if en then setAck pg true s else recOff k s
  | _ => setAck pg en s

/-- EN_ACK of an engine at a tick edge: it has started or stopped. -/
def ackEngine (n : Nat) (s : State) : State := setAck (pgMe n) (regBit s (pgMe n) Off.CTRL 0) s

/-- The header of page `pg` reset, its block disabled with it (R33). -/
def resetPage (pg : Nat) (s : State) : State :=
  resetHeader pg (if regBit s pg Off.CTRL 0 then enChanged pg false (setRegFld s pg Off.CTRL 0 1 0) else s)

end Sys2Proof.Machine
end

