-- ==== Sys2Proof/Machine/Vault.lean ====
section
/-!
DEFINITION. The key vault: the key tree, its commands, record updates and the OTP (spec/16_vault_and_boot.md R391-R393, R398-R420).
-/
namespace Sys2Proof.Machine

/-! ### The key tree (R401-R406) -/

/-- The label written as text: SHA3-256 of its ASCII bytes (R401). -/
def labelOf (t : String) : List Byte := beBytes 32 (Config.sha3_256 (t.toList.map (fun c => BitVec.ofNat 8 c.toNat)))

/-- The key of a derived slot (R401). -/
def deriveKey (parent : Nat) (label : List Byte) : Nat := Config.kmac256 parent label 256 "WLN-KDF"

/-- Key slot `k`. -/
def slotOf (v : Vault) (k : Nat) : KeySlot := tget KeySlot.init v.slots k

/-- The vault changed. -/
def updVlt (f : Vault → Vault) (s : State) : State := { s with vlt := f s.vlt }

/-- Slot `k` changed. -/
def updSlot (k : Nat) (f : KeySlot → KeySlot) (s : State) : State :=
  updVlt (fun v => { v with slots := tset v.slots k (f (slotOf v k)) }) s

/-- The attributes of slot `k`, with those of the fixed slots (R402). Slots 6 and 7 hang below slots 1 and 2. -/
def slotInfoOf (v : Vault) (k : Nat) : KeySlot :=
  let fixed := fun (parent use : Nat) (text : String) =>
    { KeySlot.init with kind := .derived, use := use, depth := 1, parent := parent, label := labelOf text, pgen := (slotOf v parent).gen }
  match k with
  | 0 => { KeySlot.init with kind := .root, use := 1, key := v.otp.dus }
  | 3 => fixed 0 0 "WLN-DTK"
  | 4 => fixed 0 0 "WLN-ATT"
  | 5 => fixed 0 0 "WLN-VREC"
  | 6 => if (slotOf v 1).kind = .empty then KeySlot.init else fixed 1 3 "WLN-MIG"
  | 7 => if (slotOf v 2).kind = .empty then KeySlot.init else fixed 2 0 "WLN-PAIR-KP"
  | k => slotOf v k

/-- Whether slot `k` is not EMPTY. -/
def slotPresent (v : Vault) (k : Nat) : Bool := (slotInfoOf v k).kind ≠ .empty

/-- Whether slot `k` is stale (R405); the depth bounds the walk. -/
def slotStale (v : Vault) : Nat → Nat → Bool
  | 0, _ => false
  | n + 1, k =>
    let x := slotInfoOf v k
    match x.kind with
    | .derived | .imported => !slotPresent v x.parent || (slotInfoOf v x.parent).gen ≠ x.pgen || slotStale v n x.parent
    | _ => false

/-- The key of slot `k` (R401). -/
def slotKey (v : Vault) : Nat → Nat → Nat
  | 0, _ => 0
  | n + 1, k =>
    let x := slotInfoOf v k
    if x.kind = .derived && k ≠ 8 then deriveKey (slotKey v n x.parent) x.label else x.key

/-- The key of a slot with all its ancestors. -/
def keyOf (v : Vault) (k : Nat) : Nat := slotKey v 10 k

/-- The check of a key slot for a use by `tid`, in the order of R409: 0, or the status of R410. `use` is the mask of R403. -/
def slotStatus (v : Vault) (k tid use : Nat) : Nat :=
  let x := slotInfoOf v k
  if !slotPresent v k then 2
  else if slotStale v 10 k then 3
  else if x.counted && x.count = 0 then 4
  else if use ≠ 0 && x.use / use % 2 = 0 then 5
  else if tid ≠ 0 && x.tid ≠ tid then 6
  else 0

/-- One use of a COUNTED slot (R406). -/
def spend (k : Nat) (s : State) : State :=
  if (slotOf s.vlt k).counted then updSlot k (fun x => { x with count := x.count - 1 }) s else s

/-- The Ed25519 secret and the ML-DSA-65 seed of a key (R404). -/
def edSecret (key : Nat) : Nat := deriveKey key (labelOf "WLN-SIG-ED25519")
def mldsaSeed (key : Nat) : Nat := deriveKey key (labelOf "WLN-SIG-MLDSA65")

/-- The public keys of a signing key, laid out as BOOT_KEYS (R395). -/
def publicKeys (key : Nat) : List Byte := Config.ed25519Public (edSecret key) ++ Config.mldsa65Public (mldsaSeed key)

/-- The envelope of R142 over the 64-byte message `m`. -/
def envelopeOf (key : Nat) (m rnd : List Byte) : List Byte :=
  leBytes 4 0x47495357 ++ leBytes 4 0 ++ (Config.ed25519Sign (edSecret key) m).take 64
    ++ (Config.mldsa65Sign (mldsaSeed key) m rnd).take 3309 ++ List.replicate 3 0

/-- The digest of a body as bytes (FIPS 202). -/
def sha512 (b : List Byte) : List Byte := beBytes 64 (Config.sha3_512 b)

/-- The check of an envelope of 3,384 bytes over `m` under public keys: 0, 1 its magic or its Ed25519 signature fails, 2 its
ML-DSA-65 signature fails. -/
def checkEnvelope (pub m env : List Byte) : Nat :=
  if leNat (env.take 4) ≠ 0x47495357 then 1
  else if !Config.ed25519Verify (pub.take 32) m ((env.drop 8).take 64) then 1
  else if !Config.mldsa65Verify (pub.drop 32) m ((env.drop 72).take 3309) then 2 else 0

/-- The verify slot of a KEY_ID and PURPOSE for an image of TID `t` (R409). -/
def verifySlot (v : Vault) (keyId purpose t : Nat) : Option KeySlot :=
  (v.slots.find? (fun x => 16 ≤ x.1 && x.2.kind = .verify && x.2.keyId = keyId && x.2.purpose = purpose && (x.2.tid = t || x.2.tid = 0))).map (·.2)

/-! ### Measurements and the registers shown (R398, R419) -/

/-- MEASm extended with a digest (R398). -/
def extendMeas (m : Nat) (d : List Byte) (s : State) : State :=
  updVlt (fun v => { v with meas := v.meas.set m (Config.sha3_512 (beBytes 64 (v.meas.getD m 0) ++ d)) }) s

/-- The status registers of the VLT page hold what the vault's state says (R419). -/
def showVault (s : State) : State :=
  let v := s.vlt
  let st := word (v.otp.lifecycle % 4 + b2n v.vbat.retLost * 4 + b2n (v.vbat.latch ≠ 0) * 8 + b2n v.debug * 16 + b2n v.entropyOk * 32 + v.journal % 8 * 256)
  let used := ((List.range 256).filter (fun k => slotPresent v k)).length
  [(Off.VLT_STAT, st), (Off.CNT_OTP, word v.otp.bootVer), (Off.CNT_OTP + 4, word v.otp.stringVer), (Off.CNT_OTP + 8, word v.otp.recEpoch),
    (Off.REC_GEN, word v.gen), (Off.SLOTS_USED, word (used % 512 + v.epoch % 65536 * 65536))].foldl (fun s p => setReg s pgVlt p.1 p.2) s

/-! ### Record updates (R415, R416) -/

/-- The slots that a record keeps: slots 1 and 2 and every PERSIST slot (R403). -/
def recordSlots (v : Vault) : Tab KeySlot := v.slots.filter (fun x => x.1 = 1 || x.1 = 2 || (16 ≤ x.1 && x.2.persist && x.2.kind ≠ .empty))

/-- Whether an OWNER_BK entry is programmed. -/
def bkUsed (o : Otp) (k : Nat) : Bool := o.ownerBk.any (fun x => x.1 = k)

/-- Digests programmed into the lowest empty OWNER_BK entries. -/
def addDigests (ds : List (List Byte)) (o : Otp) : Otp :=
  ds.foldl (fun o d => match (List.range 4).find? (fun k => !bkUsed o k) with
    | some k => { o with ownerBk := tset o.ownerBk k d }
    | none => o) o

/-- An OTP action carried out. -/
def otpAct (o : Otp) (a : OtpAct) : Otp :=
  match a with
  | .counter k v => if k = 0 then { o with bootVer := v } else { o with stringVer := v }
  | .epoch e => { o with recEpoch := e }
  | .revoke k => { o with revoke := o.revoke + 2 ^ k }
  | .digests ds => addDigests ds o
  | .owned => { o with lifecycle := o.lifecycle ||| 1 }

/-- An OTP action redone at a boot (R416): what has been programmed stays. -/
def otpRedo (o : Otp) (a : OtpAct) : Otp :=
  match a with
  | .counter k v => if k = 0 then { o with bootVer := max o.bootVer v } else { o with stringVer := max o.stringVer v }
  | .epoch e => { o with recEpoch := max o.recEpoch e }
  | .revoke k => if o.revoke / 2 ^ k % 2 = 1 then o else { o with revoke := o.revoke + 2 ^ k }
  | .digests ds => addDigests (ds.filter (fun d => !(o.ownerBk.any (fun x => x.2 = d)))) o
  | .owned => { o with lifecycle := o.lifecycle ||| 1 }

/-- A record update (R415), carried out whole, so that no command leaves PREPARE set (assumption 22): the new record in the other area, the
commit word, the OTP actions `acts`, and REC_EPOCH where the update removes a key. The record's digest is a free value: its form is not given. -/
def recordUpdate (removes : Bool) (acts : List OtpAct) (s : State) : State :=
  let v := s.vlt
  let a := 1 - v.area
  let e := max v.epoch v.otp.recEpoch + b2n removes
  let s1 := updVlt (fun v => { v with
    areas := tset v.areas a ⟨v.gen + 1, e, recordSlots v⟩, area := a, gen := v.gen + 1, epoch := e
    otp := (acts ++ (if removes then [OtpAct.epoch e] else [])).foldl otpAct v.otp
    vbat := { v.vbat with commit := some (a, v.gen + 1), prepare := none } }) s
  extendMeas 7 (beBytes 64 (Config.freeNat s1.free % 2 ^ 512)) { s1 with free := s1.free + 1 }

/-- The record that the vault uses at step 3 of R394, with its area and JOURNAL (R416). -/
def chooseRecord (v : Vault) : Option (Nat × VaultRecord) × Nat :=
  let areaOf := fun a => (v.areas.find? (fun x => x.1 = a)).map (·.2)
  let good := v.areas.filter (fun x => v.otp.recEpoch ≤ x.2.epoch)
  let best := good.foldl (fun (b : Option (Nat × VaultRecord)) x => match b with
    | some y => if y.2.gen < x.2.gen then some x else some y
    | none => some x) none
  let back := if best.isSome then (best, 3) else (none, if v.otp.lifecycle = 1 then 4 else 0)
  match v.vbat.commit with
  | some (a, g) =>
    match areaOf a with
    | some r =>
      if r.gen = g && v.otp.recEpoch ≤ r.epoch then
        (some (a, r), match v.vbat.prepare with
          | some p => if p.gen = g then 1 else if g < p.gen then 2 else 0
          | none => 0)
      else back
    | none => back
  | none => back

/-- The vault record unsealed at boot: the actions of a PREPARE entry with the committed GEN redone, PREPARE cleared; a DECOMMISSIONED
device never unseals a record (R400, R416). -/
def recoverRecord (s : State) : State :=
  let c := if s.vlt.otp.lifecycle = 3 then (none, 0) else chooseRecord s.vlt
  let acts := match s.vlt.vbat.prepare with | some p => if c.2 = 1 then p.acts else [] | none => []
  let s0 := updVlt (fun v => { v with otp := acts.foldl otpRedo v.otp, vbat := { v.vbat with prepare := none } }) s
  let s1 := match c.1 with
    | some (a, r) => updVlt (fun v => { v with slots := r.slots, area := a, gen := r.gen, epoch := r.epoch, journal := c.2 }) s0
    | none => updVlt (fun v => { v with slots := [], area := 1, gen := 0, epoch := 0, journal := c.2 }) s0
  if c.2 ≠ 0 then setIrq pgVlt 2 s1 else s1

/-! ### Command rings (R407, R408, R411) -/

def vqReg (s : State) (t off : Nat) : Word := reg s pgVlt (off + 0x10 * t)
def vqEn (s : State) (t : Nat) : Bool := bit (vqReg s t Off.VQ_BASE_HI) 31
def vqSize (s : State) (t : Nat) : Nat := 2 ^ fld (vqReg s t Off.VQ_BASE_HI) 24 4
def vqBase (s : State) (t : Nat) : Nat := (vqReg s t Off.VQ_BASE_LO).toNat + fld (vqReg s t Off.VQ_BASE_HI) 0 16 * 2 ^ 32
def vqTailOf (s : State) (t : Nat) : Nat := fld (vqReg s t Off.VQ_PTR) 0 8
def vqHead (s : State) (t : Nat) : Nat := fld (vqReg s t Off.VQ_PTR) 16 8
def vqDist (s : State) (t a b : Nat) : Nat := (a + vqSize s t - b % vqSize s t) % vqSize s t
def vqOcc (s : State) (t : Nat) : Nat := vqDist s t (vqTailOf s t) (vqHead s t)
/-- The address of descriptor `d` of tenant `t`. -/
def vqDesc (s : State) (t d : Nat) : Nat := vqBase s t + 64 * d

/-- A command completed: STATUS, OUT_LEN where output is produced, HEAD and the event (R407, R408, R419). -/
def vqComplete (t status : Nat) (outLen : Option Nat) (s : State) : State :=
  let h := vqHead s t
  let a := vqDesc s t h
  let s1 := dmaWrite t (a + 3) (leBytes 1 status) s
  let s2 := match outLen with | some n => dmaWrite t (a + 0x14) (leBytes 4 n) s1 | none => s1
  let s3 := setRegFld s2 pgVlt (Off.VQ_PTR + 0x10 * t) 16 8 ((h + 1) % vqSize s t)
  setTenEvt pgVlt (Off.VQ_EVT + 0x10 * t) t 7 (if status = 1 then 1 else 2) s3

/-- VQ_TAIL (R353, R407). -/
def vqTail (tid t : Nat) (data : Word) (s : State) : State :=
  let off := Off.VQ_PTR + 0x10 * t
  if t < 16 then
    access tid pgVlt off data (fun s =>
      let v := fld data 0 8
      if (tenOf s t).state = .resetting then deny s
      else if vqSize s t ≤ v || vqDist s t v (vqHead s t) < vqOcc s t then refuse pgVlt 9 off tid s
      else if shareOf s t 0 < vqDist s t v (vqHead s t) then queueFull t (deny s)
      else if !vqEn s t then refuse pgVlt 9 off tid s
      else setRegFld s pgVlt off 0 8 v) s
  else deny s

/-- VQ_TAIL. -/
def execVqTail (tid tenant : Nat) (data : Word) (s : State) : Host.Outcome State Fault Refusal := .next (vqTail tid tenant data s)

/-- The commands owned by the vault on ring `t`, queued or in progress, complete with `status`. -/
def vqAbort (t status : Nat) (s : State) : State := (List.range (vqOcc s t)).foldl (fun s _ => vqComplete t status none s) s

/-- A write of VQ_BASE_LO or VQ_BASE_HI (R350, R354, R407, R419). -/
def vqCfgWrite (tid off : Nat) (data : Word) (s : State) : State :=
  let t := (off - 0x400) / 0x10
  access tid pgVlt off data (fun s =>
    if off % 0x10 = 0 then
      (if vqEn s t then refuse pgVlt 10 off tid s else plainWrite pgVlt off data s)
    else
      let old := reg s pgVlt off
      let lg := fld data 24 4
      let base := (vqReg s t Off.VQ_BASE_LO).toNat + fld data 0 16 * 2 ^ 32
      if vqEn s t ∧ bit data 31 ∧ (fld data 0 16 ≠ fld old 0 16 ∨ lg ≠ fld old 24 4) then refuse pgVlt 10 off tid s
      else if bit data 31 ∧ !(4 ≤ lg && lg ≤ 8 && base % (64 * 2 ^ lg) = 0 && inWindow s t base (64 * 2 ^ lg) && !tenEmpty s t) then refuse pgVlt 8 off tid s
      else
        let s1 := if bit old 31 && !(bit data 31) then vqAbort t 0x13 s else s
        plainWrite pgVlt off data s1) s

/-! ### Commands (R408-R410) -/

/-- A command as its descriptor gives it (R408). -/
structure VqCmd where
  tid : Nat
  op : Nat
  flags : Nat
  use : Nat
  slot : Nat
  slot2 : Nat
  inAddr : Nat
  inLen : Nat
  outLen : Nat
  outAddr : Nat
  arg : List Byte
  deriving DecidableEq, Repr

/-- The command of 64 descriptor bytes. -/
def vqCmdOf (t : Nat) (d : List Byte) : VqCmd :=
  let n := fun a k => leNat ((d.drop a).take k)
  { tid := t, op := n 0 1, flags := n 1 1, use := n 2 1, slot := n 4 1, slot2 := n 5 1, inAddr := n 8 8, inLen := n 0x10 4,
    outLen := n 0x14 4, outAddr := n 0x18 8, arg := (d.drop 0x20).take 32 }

/-- The ring that is served next: ascending TID order after the TID served last (R411). -/
def vqNext (s : State) : Option Nat :=
  ((List.range 16).map (fun i => (s.vlt.lastTid + 1 + i) % 16)).find? (fun t => vqEn s t && 0 < vqOcc s t)

/-- The result of a command: a failure, or the output and the state that it leaves (the count of its key slot apart). -/
abbrev VqResult := Except Nat (List Byte × State)

/-- The end of a command: an output larger than the buffer fails with E_LEN, a refused buffer with E_BUS; a failed command changes
nothing else (R410). -/
def vqFinish (c : VqCmd) (r : VqResult) (s : State) : State :=
  match r with
  | .error st => vqComplete c.tid st none s
  | .ok (out, s1) =>
    if out = [] then showVault (vqComplete c.tid 1 none s1)
    else if c.outLen < out.length then vqComplete c.tid 0xC none s
    else if !inWindow s c.tid c.outAddr out.length then vqComplete c.tid 0xD none s
    else showVault (vqComplete c.tid 1 (some out.length) (dmaWrite c.tid c.outAddr out s1))

/-- Operations listed in R409. -/
def vqOpListed (op : Nat) : Bool := 1 ≤ op && op ≤ 0x12

/-- The command at the head of the ring served next, after those with an OP that R409 does not list, which complete with E_OP, and
those whose descriptor cannot be read, with E_BUS. -/
def vqTake : Nat → State → Option VqCmd × State
  | 0, s => (none, s)
  | n + 1, s =>
    match vqNext s with
    | none => (none, s)
    | some t =>
      let s1 := updVlt (fun v => { v with lastTid := t }) s
      match dmaRead s t (vqDesc s t (vqHead s t)) 64 with
      | none => vqTake n (vqComplete t 0xD none s1)
      | some d => if vqOpListed (vqCmdOf t d).op then (some (vqCmdOf t d), s) else vqTake n (vqComplete t 0xF none s1)

/-- The vault carries out the next command of its rings where that is an operation `op` (assumption 11); in lifecycle BLANK it accepts
no key command but PROV_IMPORT (R400). -/
def vqRun (op tm : Nat) (body : VqCmd → State → VqResult) (s : State) : State :=
  let s0 := advance s tm
  match vqTake 4096 s0 with
  | (none, s1) => s1
  | (some c, s1) =>
    if c.op ≠ op then s1
    else
      let s2 := updVlt (fun v => { v with lastTid := c.tid }) s1
      if s.vlt.otp.lifecycle = 0 && op ≤ 0xC then vqFinish c (.error 0xE) s2 else vqFinish c (body c s2) s2

/-- The input of a command. -/
def vqInput (c : VqCmd) (s : State) : Except Nat (List Byte) :=
  match dmaRead s c.tid c.inAddr c.inLen with
  | some b => .ok b
  | none => if c.inLen = 0 then .ok [] else .error 0xD

/-- A key slot of a command, with the use of its count. -/
def vqKey (c : VqCmd) (k use : Nat) (s : State) : Except Nat (Nat × State) :=
  let st := slotStatus s.vlt k c.tid use
  if st = 0 then .ok (keyOf s.vlt k, spend k s) else .error st

/-- `n` random bytes (R414). -/
def vqRandom (n : Nat) (s : State) : Except Nat (List Byte × State) :=
  if s.vlt.entropyOk then .ok (Config.random s.free n, { s with free := s.free + 1 }) else .error 0x10

/-- The checks of a target slot and of the persistence asked for (R402, R403, R409). -/
def vqTarget (c : VqCmd) (s : State) : Except Nat Unit :=
  if c.slot2 < 16 || c.flags % 4 = 3 then .error 0x11 else if slotPresent s.vlt c.slot2 then .error 7 else .ok ()

/-- A slot created below `c.slot` (R403); PERSIST makes a record update. -/
def vqCreate (c : VqCmd) (x : KeySlot) (s : State) : State :=
  let p := slotInfoOf s.vlt c.slot
  let y := { x with use := c.use % 128, tid := p.tid, depth := p.depth + 1, parent := c.slot, pgen := p.gen, gen := (slotOf s.vlt c.slot2).gen
                    persist := c.flags % 2 = 1, counted := c.flags / 2 % 2 = 1, count := c.outLen }
  let s1 := updSlot c.slot2 (fun _ => y) s
  if y.persist then recordUpdate false [] s1 else s1

/-- DERIVE (R401, R409). -/
def opDerive (c : VqCmd) (s : State) : VqResult := do
  let k ← vqKey c c.slot 1 s
  vqTarget c s
  if 8 ≤ (slotInfoOf s.vlt c.slot).depth then .error 8
  else .ok ([], vqCreate c { KeySlot.init with kind := .derived, label := c.arg } k.2)

/-- DERIVE. -/
def execDeriveKey (tm : Nat) (s : State) : Host.Outcome State Fault Refusal := .next (vqRun 0x01 tm opDerive s)

/-- INVALIDATE (R405, R409): a persistent key that it removes makes a record update. -/
def opInvalidate (c : VqCmd) (s : State) : VqResult :=
  if c.slot < 16 then .error 0x11
  else
    let st := slotStatus s.vlt c.slot c.tid 0
    if st ≠ 0 then .error st
    else
      let s1 := updSlot c.slot (fun x => { x with gen := x.gen + 1 }) s
      .ok ([], if (slotOf s.vlt c.slot).persist then recordUpdate true [] s1 else s1)

/-- INVALIDATE. -/
def execInvalidate (tm : Nat) (s : State) : Host.Outcome State Fault Refusal := .next (vqRun 0x02 tm opInvalidate s)

/-- DELETE (R405, R409): the only command that frees a stale slot. -/
def opDelete (c : VqCmd) (s : State) : VqResult :=
  let x := slotOf s.vlt c.slot
  if c.slot < 16 then .error 0x11
  else if x.kind = .empty then .error 2
  else if c.tid ≠ 0 && x.tid ≠ c.tid then .error 6
  else
    let s1 := updSlot c.slot (fun x => { KeySlot.init with gen := x.gen + 1 }) s
    .ok ([], if x.persist then recordUpdate true [] s1 else s1)

/-- DELETE. -/
def execDelete (tm : Nat) (s : State) : Host.Outcome State Fault Refusal := .next (vqRun 0x03 tm opDelete s)

/-- SIGN (R404, R409). -/
def opSign (c : VqCmd) (s : State) : VqResult := do
  let k ← vqKey c c.slot 2 s
  let m ← vqInput c s
  let r ← vqRandom 32 k.2
  .ok (envelopeOf k.1 (sha512 m) r.1, r.2)

/-- SIGN. -/
def execSign (tm : Nat) (s : State) : Host.Outcome State Fault Refusal := .next (vqRun 0x04 tm opSign s)

/-- VERIFY (R409): any TID. -/
def opVerify (c : VqCmd) (s : State) : VqResult := do
  let st := slotStatus s.vlt c.slot 0 64
  if st ≠ 0 then .error st
  else if c.inLen < 3384 then .error 0xC
  else
    let b ← vqInput c s
    match checkEnvelope (slotOf s.vlt c.slot).pub (sha512 (b.take (c.inLen - 3384))) (b.drop (c.inLen - 3384)) with
    | 1 => .error 9
    | 2 => .error 0xA
    | _ => .ok ([], s)

/-- VERIFY. -/
def execVerify (tm : Nat) (s : State) : Host.Outcome State Fault Refusal := .next (vqRun 0x05 tm opVerify s)

/-- MAC (R409). -/
def opMac (c : VqCmd) (s : State) : VqResult := do
  let k ← vqKey c c.slot 4 s
  let m ← vqInput c s
  .ok (beBytes 32 (Config.kmac256 k.1 m 256 (String.ofList (c.arg.map (fun b => Char.ofNat b.toNat)))), k.2)

/-- MAC. -/
def execMac (tm : Nat) (s : State) : Host.Outcome State Fault Refusal := .next (vqRun 0x06 tm opMac s)

/-- SEAL (R409). -/
def opSeal (c : VqCmd) (s : State) : VqResult := do
  let k ← vqKey c c.slot 8 s
  let m ← vqInput c s
  let r ← vqRandom 12 k.2
  .ok (r.1 ++ Config.gcmSeal k.1 r.1 c.arg m, r.2)

/-- SEAL. -/
def execSealBlob (tm : Nat) (s : State) : Host.Outcome State Fault Refusal := .next (vqRun 0x07 tm opSeal s)

/-- UNSEAL (R409). -/
def opUnseal (c : VqCmd) (s : State) : VqResult := do
  let k ← vqKey c c.slot 8 s
  if c.inLen < 28 then .error 0xC
  else
    let b ← vqInput c s
    match Config.gcmOpen k.1 (b.take 12) c.arg (b.drop 12) with
    | none => .error 0xB
    | some p => .ok (p, k.2)

/-- UNSEAL. -/
def execUnsealBlob (tm : Nat) (s : State) : Host.Outcome State Fault Refusal := .next (vqRun 0x08 tm opUnseal s)

/-- IMPORT (R409). -/
def opImport (c : VqCmd) (s : State) : VqResult := do
  let k ← vqKey c c.slot 16 s
  vqTarget c s
  if c.inLen ≠ 60 then .error 0xC
  else if 8 ≤ (slotInfoOf s.vlt c.slot).depth then .error 8
  else
    let b ← vqInput c s
    match Config.gcmOpen k.1 (b.take 12) c.arg (b.drop 12) with
    | none => .error 0xB
    | some p => .ok ([], vqCreate c { KeySlot.init with kind := .imported, key := beNat p } k.2)

/-- IMPORT. -/
def execImportKey (tm : Nat) (s : State) : Host.Outcome State Fault Refusal := .next (vqRun 0x09 tm opImport s)

/-- REG_VK (R409). -/
def opRegVk (c : VqCmd) (s : State) : VqResult := do
  let ident := leNat (c.arg.take 8)
  let purpose := leNat ((c.arg.drop 8).take 1)
  let t := leNat ((c.arg.drop 9).take 1)
  let vks := s.vlt.slots.filter (fun x => x.2.kind = .verify)
  if c.tid ≠ 0 then .error 6
  else if c.slot2 < 16 || c.flags / 2 % 2 = 1 || 2 < purpose || numTids s.variant ≤ t || vks.any (fun x => x.2.keyId = ident) then .error 0x11
  else if slotPresent s.vlt c.slot2 then .error 7
  else if 64 ≤ vks.length then .error 0x14
  else if c.inLen ≠ 1984 then .error 0xC
  else
    let b ← vqInput c s
    .ok ([], recordUpdate false [] (updSlot c.slot2 (fun x => { KeySlot.init with
      kind := .verify, use := 64, tid := t, gen := x.gen, persist := true, pub := b, keyId := ident, purpose := purpose }) s))

/-- REG_VK. -/
def execRegVk (tm : Nat) (s : State) : Host.Outcome State Fault Refusal := .next (vqRun 0x0A tm opRegVk s)

/-- The part number of R412. -/
def partNumber : Config.Variant → Nat
  | .wln4840 => 0x4840 | .wln4830 => 0x4830 | .wln4820 => 0x4820

/-- The 768 bytes of a quote (R412). -/
def quoteBody (c : VqCmd) (s : State) : List Byte :=
  let v := s.vlt
  let sub := tbSub s 0 s.now
  let ns := sub / 65536
  let key4 := keyOf v 4
  leBytes 4 0x45545157 ++ leBytes 2 1 ++ leBytes 1 (mode s) ++ leBytes 1 (1 - regFld s pgMode Off.STRAPS 0 1) ++ leBytes 8 s.tick.count
    ++ leBytes 6 (ns / 10 ^ 9) ++ leBytes 4 (ns % 10 ^ 9) ++ leBytes 2 (sub % 65536)
    ++ leBytes 2 (b2n (synced s 0) + b2n (v.vbat.latch ≠ 0) * 2 + b2n v.vbat.retLost * 4 + b2n v.debug * 8 + v.otp.lifecycle * 16)
    ++ leBytes 1 c.tid ++ [0] ++ c.arg ++ v.otp.serial
    ++ leBytes 4 (partNumber s.variant + Config.stepping % 256 * 65536)
    ++ leBytes 4 v.otp.bootVer ++ leBytes 4 v.otp.stringVer ++ leBytes 4 v.otp.recEpoch
    ++ leBytes 4 v.vbat.boots ++ leBytes 4 v.vbat.tampers ++ List.replicate 8 0 ++ List.replicate 16 0
    ++ sha512 (publicKeys key4) ++ v.meas.flatMap (fun m => beBytes 64 m)
    ++ leBytes 4 (tenStates s 0).toNat ++ leBytes 4 (tenStates s 1).toNat ++ List.replicate 56 0

/-- QUOTE (R412): any TID. -/
def opQuote (c : VqCmd) (s : State) : VqResult := do
  let r ← vqRandom 32 s
  let b := quoteBody c s
  .ok (b ++ envelopeOf (keyOf s.vlt 4) (sha512 b) r.1, r.2)

/-- QUOTE. -/
def execQuote (tm : Nat) (s : State) : Host.Outcome State Fault Refusal := .next (vqRun 0x0B tm opQuote s)

/-- EXPORT_PUB (R409): any TID. -/
def opExportPub (c : VqCmd) (s : State) : VqResult :=
  let st := slotStatus s.vlt c.slot 0 (if c.slot = 4 then 0 else 2)
  if st ≠ 0 then .error st else .ok (publicKeys (keyOf s.vlt c.slot), spend c.slot s)

/-- EXPORT_PUB. -/
def execExportPub (tm : Nat) (s : State) : Host.Outcome State Fault Refusal := .next (vqRun 0x0C tm opExportPub s)

/-- RANDOM (R409, R414). -/
def opRandom (c : VqCmd) (s : State) : VqResult := if 4096 < c.outLen then .error 0xC else vqRandom c.outLen s

/-- RANDOM. -/
def execRandomBytes (tm : Nat) (s : State) : Host.Outcome State Fault Refusal := .next (vqRun 0x0D tm opRandom s)

/-- EXTEND (R398, R409). -/
def opExtend (c : VqCmd) (s : State) : VqResult :=
  if c.tid ≠ 0 then .error 6
  else match dmaRead s 0 c.inAddr 32 with
    | none => .error 0xD
    | some b => .ok ([], extendMeas 6 (c.arg ++ b) s)

/-- EXTEND. -/
def execExtendMeas (tm : Nat) (s : State) : Host.Outcome State Fault Refusal := .next (vqRun 0x0E tm opExtend s)

/-- OTP (R399, R409). -/
def opOtp (c : VqCmd) (s : State) : VqResult :=
  let o := s.vlt.otp
  let sub := leNat (c.arg.take 1)
  let k := leNat ((c.arg.drop 1).take 1)
  let v := leNat ((c.arg.drop 2).take 2)
  if c.tid ≠ 0 then .error 6
  else if sub = 0 then
    (if 1 < k then .error 0x11
     else if v ≤ (if k = 0 then o.bootVer else o.stringVer) then .ok ([], s)
     else if 1023 < v then .error 0x11
     else .ok ([], recordUpdate false [.counter k v] s))
  else if 2 < sub then .error 0x11
  else if mode s ≠ mProvision then .error 0xE
  else if sub = 1 then
    (let live := (List.range 4).filter (fun i => bkUsed o i && o.revoke / 2 ^ i % 2 = 0)
     if 4 ≤ k || live = [k] then .error 0x11
     else if o.revoke / 2 ^ k % 2 = 1 then .ok ([], s)
     else .ok ([], recordUpdate true [.revoke k] s))
  else
    match dmaRead s 0 c.inAddr 64 with
    | none => .error 0xD
    | some d => if (List.range 4).all (bkUsed o) then .error 0x14 else .ok ([], recordUpdate false [.digests [d]] s)

/-- OTP. -/
def execOtp (tm : Nat) (s : State) : Host.Outcome State Fault Refusal := .next (vqRun 0x0F tm opOtp s)

/-- PROV_IMPORT (R400). -/
def opProvImport (c : VqCmd) (s : State) : VqResult :=
  let o := s.vlt.otp
  let old := slotPresent s.vlt 1
  if c.tid ≠ 0 then .error 6
  else if mode s ≠ mProvision then .error 0xE
  else if old && o.lifecycle ≠ 0 then .error 7
  else if !((List.range 4).any (fun k => c.inLen = 28 + 64 + 64 * (k + 1))) then .error 0xC
  else
    match dmaRead s 0 c.inAddr c.inLen with
    | none => .error 0xD
    | some b =>
      match Config.gcmOpen (keyOf s.vlt 3) (b.take 12) [] (b.drop 12) with
      | none => .error 0xB
      | some p =>
        let n := (c.inLen - 92) / 64
        let ds := (List.range n).map (fun i => (p.drop (64 + 64 * i)).take 64)
        if 4 < o.ownerBk.length + n then .error 0x14
        else
          let put := fun k key => updSlot k (fun x => { KeySlot.init with kind := .root, use := 1, gen := x.gen + 1, persist := true, key := key })
          let s1 := put 2 (beNat ((p.drop 32).take 32)) (put 1 (beNat (p.take 32)) s)
          .ok ([], recordUpdate old [.digests ds, .owned] s1)

/-- PROV_IMPORT. -/
def execProvImport (tm : Nat) (s : State) : Host.Outcome State Fault Refusal := .next (vqRun 0x10 tm opProvImport s)

/-- CLR_TAMPER (R409, R417). -/
def opClrTamper (c : VqCmd) (s : State) : VqResult :=
  if c.tid ≠ 0 then .error 6
  else if mode s ≠ mProvision then .error 0xE
  else
    let m := leNat (c.arg.take 1)
    .ok ([], updVlt (fun v => { v with vbat := { v.vbat with
      latch := (List.range 4).foldl (fun a i => a + (if v.vbat.latch / 2 ^ i % 2 = 1 ∧ m / 2 ^ i % 2 = 0 then 2 ^ i else 0)) 0 } }) s)

/-- CLR_TAMPER. -/
def execClrTamper (tm : Nat) (s : State) : Host.Outcome State Fault Refusal := .next (vqRun 0x11 tm opClrTamper s)

/-- The KIND of a slot as a number; the spec numbers none (assumption 21). -/
def kindCode (k : KeyKind) : Nat :=
  (Config.kindNumber (match k with | .empty => 0 | .derived => 1 | .imported => 2 | .verify => 3 | .root => 4)).toNat

/-- SLOT_INFO (R409): any TID. The layout of its 64 bytes is not given. -/
def opSlotInfo (c : VqCmd) (s : State) : VqResult :=
  let x := slotInfoOf s.vlt c.slot
  if !slotPresent s.vlt c.slot then .error 2
  else .ok ((Config.slotInfo [kindCode x.kind, x.use, x.tid, x.depth, x.parent, x.pgen, x.gen, b2n x.persist, b2n x.counted, x.count, x.keyId] x.label
      ++ List.replicate 64 0).take 64, s)

/-- SLOT_INFO. -/
def execSlotInfo (tm : Nat) (s : State) : Host.Outcome State Fault Refusal := .next (vqRun 0x12 tm opSlotInfo s)

/-! ### Keys for other units, the random source and the real-time clock (R405, R406, R414, R418) -/

/-- A GOOSE key resolved for a tag (R217, R405, R406): none where the vault refuses it. The slot belongs to `tid` or to TID 0. -/
def gooseKey (k tid : Nat) (s : State) : Option (Nat × State) :=
  let x := slotInfoOf s.vlt k
  if 16 ≤ k && slotPresent s.vlt k && !slotStale s.vlt 10 k && !(x.counted && x.count = 0) && x.use / 32 % 2 = 1 && (x.tid = tid || x.tid = 0) then
    some (keyOf s.vlt k, spend k s)
  else none

/-- ENTROPY_FAIL (R414). -/
def entropyFail (tm : Nat) (s : State) : State :=
  showVault (setIrq pgVlt 4 (updVlt (fun v => { v with entropyOk := false }) (advance s tm)))

/-- ENTROPY_FAIL. -/
def execEntropyFail (tm : Nat) (s : State) : Host.Outcome State Fault Refusal := .next (entropyFail tm s)

/-- ENTROPY_OK (R414). -/
def entropyOk (tm : Nat) (s : State) : State := showVault (updVlt (fun v => { v with entropyOk := true }) (advance s tm))

/-- ENTROPY_OK. -/
def execEntropyOk (tm : Nat) (s : State) : Host.Outcome State Fault Refusal := .next (entropyOk tm s)

/-- RTC time in units of 1/32,768 s, kept on the device's own clock (assumption 23). -/
def rtcTicks (s : State) (tm : Nat) : Nat := s.vlt.vbat.rtcSec * 32768 + (tm - s.vlt.vbat.rtcAt) * 32768 / 1200000000

/-- RTC_LOAD (R418): RTC_SET is loaded, sub-seconds 0. -/
def rtcLoad (tm : Nat) (s : State) : State :=
  let s0 := advance s tm
  let r := s0.vlt.vbat.regs
  updVlt (fun v => { v with vbat := { v.vbat with
    rtcSec := (tget 0 r 0x10).toNat + fld (tget 0 r 0x14) 0 16 * 2 ^ 32, rtcAt := s0.now } }) s0

/-- RTC_LOAD. -/
def execRtcLoad (tm : Nat) (s : State) : Host.Outcome State Fault Refusal := .next (rtcLoad tm s)

/-- A TEN(t) reset: t's commands complete with ABORTED_BY_RESET (R411). -/
def vaultTenReset (t : Nat) (s : State) : State := vqAbort t 0x13 s

end Sys2Proof.Machine
end

