-- ==== Sys2Proof/Machine/Goose.lean ====
section
/-!
DEFINITION. The GOOSE publisher and subscriber (spec/08_carafe_publication.md R208, R210-R221, R224, R225, R462).
-/
namespace Sys2Proof.Machine

/-! ### Entries -/

/-- Publication `p` and subscription `k`. -/
def pubOf (s : State) (p : Nat) : GsePub := tget GsePub.init s.gse.pubs p
def gsubOf (s : State) (k : Nat) : GseSub := tget GseSub.init s.gse.subs k

/-- A publication or a subscription changed. -/
def updPub (p : Nat) (f : GsePub → GsePub) (s : State) : State := { s with gse := { s.gse with pubs := tset s.gse.pubs p (f (pubOf s p)) } }
def updGsub (k : Nat) (f : GseSub → GseSub) (s : State) : State := { s with gse := { s.gse with subs := tset s.gse.subs k (f (gsubOf s k)) } }

/-- A window word. -/
def pw (x : GsePub) (o : Nat) : Word := tget 0 x.words o
def sw (x : GseSub) (o : Nat) : Word := tget 0 x.words o

def pubEn (x : GsePub) : Bool := bit (pw x Off.P_POLICY) 0
def pubTid (x : GsePub) : Nat := fld (pw x Off.P_POLICY) 8 4
def pubNmem (x : GsePub) : Nat := fld (pw x Off.P_POLICY) 12 7
def pubAuth (x : GsePub) : Nat := fld (pw x Off.P_POLICY) 20 2
def pubMem (x : GsePub) (j : Nat) : Word := pw x (Off.P_MEM + 4 * j)
def gsubEn (x : GseSub) : Bool := bit (sw x Off.S_POLICY) 0
def gsubTid (x : GseSub) : Nat := fld (sw x Off.S_POLICY) 8 4
def gsubNmap (x : GseSub) : Nat := fld (sw x Off.S_POLICY) 22 7
def gsubNds (x : GseSub) : Nat := fld (sw x Off.S_POLICY) 14 7

/-- A string of an entry held from offset `o`. -/
def wordsString (t : Tab Word) (o n : Nat) : List Byte := stringOf ((List.range 17).map (fun i => tget 0 t (o + 4 * i))) n

def pubGocb (x : GsePub) : List Byte := wordsString x.words Off.P_GOCBREF (fld (pw x Off.P_STRLEN) 0 7)
def pubDatset (x : GsePub) : List Byte := wordsString x.words Off.P_DATSET (fld (pw x Off.P_STRLEN) 8 7)
def pubGoid (x : GsePub) : List Byte := wordsString x.words Off.P_GOID (fld (pw x Off.P_STRLEN) 16 7)
def gsubGocb (x : GseSub) : List Byte := wordsString x.words Off.S_GOCBREF (fld (sw x Off.S_REFLEN) 0 7)

/-- The offsets of the staging registers of the windows (R224, R225). -/
def pubOffs : List Nat :=
  (List.range 10).map (fun i => 0x06C + 4 * i) ++ (List.range 17).map (fun i => Off.P_GOCBREF + 4 * i)
    ++ (List.range 17).map (fun i => Off.P_DATSET + 4 * i) ++ (List.range 17).map (fun i => Off.P_GOID + 4 * i)
    ++ (List.range 127).map (fun i => Off.P_MEM + 4 * i)
def gsubOffs : List Nat :=
  (List.range 10).map (fun i => 0x06C + 4 * i) ++ (List.range 17).map (fun i => Off.S_GOCBREF + 4 * i)
    ++ (List.range 64).map (fun i => Off.S_MAP + 4 * i)

/-- What the staging registers of a page hold. -/
def staged (s : State) (pg : Nat) (os : List Nat) : Tab Word := os.foldl (fun t o => let w := reg s pg o; if w = 0 then t else tset t o w) []

/-! ### Encoding (R211) -/

/-- UTC time of a TB0 value in 2^−16 ns: seconds, 24 bits of fraction, time quality. -/
def utcTime (s : State) (v : Nat) : List Byte :=
  let cfg := reg s pgGse0 Off.UTC_CFG
  let sec := v / (65536 * 10 ^ 9)
  let frac := v % (65536 * 10 ^ 9)
  let q := (if bit cfg 31 then 0x80 else 0) + (if synced s 0 then 0 else 0x20) + 20
  beBytes 4 (sec + 2 ^ 32 - fld cfg 0 16) ++ beBytes 3 (frac * 2 ^ 24 / (65536 * 10 ^ 9)) ++ beBytes 1 q

/-- A bit-string of `n` bits given first bit first. -/
def bitString (bs : List Bool) : List Byte :=
  let n := (bs.length + 7) / 8
  let v := bs.foldl (fun a b => 2 * a + b2n b) 0 * 2 ^ (8 * n - bs.length)
  berEnc 0x84 (beBytes 1 (8 * n - bs.length) ++ beBytes n v)

/-- The 13 bits of a QUALITY, validity first (assumption 24). -/
def qualityBits (q : Word) : List Bool := bit q 1 :: bit q 0 :: (List.range 11).map (fun i => bit q (i + 2))

/-- The encoding of a member with value `v` and quality `q`; `t` is the latest state change. -/
def encodeMember (s : State) (type : Nat) (v q : Word) (t : Nat) : List Byte :=
  match type with
  | 0 => berEnc 0x83 [if v = 0 then 0 else 1]
  | 1 => berEnc 0x85 (berInt v)
  | 2 => berEnc 0x87 (8 :: beBytes 4 v.toNat)
  | 3 => bitString [bit v 1, bit v 0]
  | 4 => bitString (qualityBits q)
  | _ => berEnc 0x91 (utcTime s t)

/-- The encoding of member `j` from the latest publication, with the TEST marking where `test` holds. -/
def pubMember (s : State) (x : GsePub) (test : Bool) (t j : Nat) : List Byte :=
  let m := pubMem x j
  let e := published s (fld m 0 12) (fld m 12 3)
  encodeMember s (fld m 16 3) e.1 (if test then e.2 ||| 0x800 else e.2) t

/-- The encodings that a state change is judged by: TRIG members, without the TEST marking and without TIMESTAMP members (R212). -/
def trigEncodings (s : State) (x : GsePub) : List (List Byte) :=
  ((List.range (pubNmem x)).filter (fun j => bit (pubMem x j) 20 && fld (pubMem x j) 16 3 ≠ 5)).map (pubMember s x false 0)

/-- The APDU of a publication (R211) with its timeAllowedtoLive in ms. -/
def pubApdu (s : State) (x : GsePub) (tal : Nat) : List Byte :=
  let test := mode s = mTest
  let all := (List.range (pubNmem x)).flatMap (pubMember s x test x.changedAt)
  berEnc 0x61 (berEnc 0x80 (pubGocb x) ++ berEnc 0x81 (berNat tal) ++ berEnc 0x82 (pubDatset x) ++ berEnc 0x83 (pubGoid x)
    ++ berEnc 0x84 (utcTime s x.changedAt) ++ berEnc 0x85 (berNat x.stNum) ++ berEnc 0x86 (berNat x.sqNum) ++ berEnc 0x87 [if test then 1 else 0]
    ++ berEnc 0x88 (berNat (pw x Off.P_CONFREV).toNat) ++ berEnc 0x89 [0] ++ berEnc 0x8A (berNat (pubNmem x)) ++ berEnc 0xAB all)

/-- The octets from APPID to the end of the APDU. -/
def gooseLpdu (appid : Nat) (test : Bool) (apdu : List Byte) : List Byte :=
  beBytes 2 appid ++ beBytes 2 (8 + apdu.length) ++ beBytes 2 (if test then 0x8000 else 0) ++ beBytes 2 0 ++ apdu

/-- The tag of a GOOSE message under a key (R216; assumption 24). -/
def gooseTag (alg key keyId : Nat) (msg : List Byte) : List Byte :=
  if alg = 1 then (Config.hmacSha256 key msg).take 16 else (Config.aesGmac key (beBytes 4 keyId ++ (msg.take 8)) msg).take 16

/-- A frame of a publication on the ports of pair `g`, source address of its A port. -/
def pubHeader (s : State) (x : GsePub) (port : Nat) : List Byte :=
  let vlan := pw x Off.P_VLAN
  beBytes 6 ((pw x Off.P_DA_LO).toNat + fld (pw x Off.P_DA_HI) 0 16 * 2 ^ 32) ++ beBytes 6 (portAddr s port)
    ++ (if bit vlan 15 then beBytes 2 0x8100 ++ beBytes 2 (fld vlan 12 3 * 8192 + fld vlan 0 12) else []) ++ beBytes 2 0x88B8

/-! ### Publication (R208, R212-R217) -/

/-- Whether the publish gate is open (spec/13_redundant_pair.md R323). -/
def gateOpen (s : State) : Bool := regBit s pgPair0 Off.GATE_STAT 0

/-- An event of tenant `t` in GTEN_EVT (R225). -/
def gseEvt (t i : Nat) (s : State) : State := setTenEvt pgGse1 (Off.GTEN_EVT + 4 * t) t 3 (1 <<< i) s

/-- A counter that takes 1 after 0xFFFF_FFFF (R212, R213). -/
def nextNum (n : Nat) : Nat := if n = 0xFFFFFFFF then 1 else n + 1

/-- timeAllowedtoLive for the interval to the next transmission (R213). -/
def talMs (s : State) (x : GsePub) : Nat :=
  (fld (pw x Off.P_TIMING) 24 3 * 1000 * x.interval + rateHz s - 1) / rateHz s

/-- The frames of a transmission handed to the port queues (R214). -/
def sendGoose (p : Nat) (ports : Nat) (body : List Byte) (x : GsePub) (s : State) : State :=
  (List.range 2).foldl (fun s g =>
    let m := ports / 2 ^ (2 * g) % 4
    if redMode s g ≠ 0 && m = 3 then sendPair g 6 (pubHeader s x (2 * g) ++ body) (.goose p) (.goose p) s
    else
      let s1 := if m % 2 = 1 then enqueue (2 * g) ⟨6, pubHeader s x (2 * g) ++ body, .goose p⟩ s else s
      if 2 ≤ m then enqueue (2 * g + 1) ⟨6, pubHeader s1 x (2 * g + 1) ++ body, .goose p⟩ s1 else s1) s

/-- A transmission of publication `p` as it stands (R208, R214, R217). -/
def transmit (p : Nat) (s : State) : State :=
  let x := pubOf s p
  let test := mode s = mTest
  let lpdu := gooseLpdu (fld (pw x Off.P_DA_HI) 16 16) test (pubApdu s x (talMs s x))
  let s1 := updPub p (fun x => { x with trig := trigEncodings s x }) s
  let send := fun body s =>
    if gateOpen s then updPub p (fun x => { x with sent := x.sent + 1 }) (sendGoose p (fld (pw x Off.P_POLICY) 4 4) body x s)
    else updPub p (fun x => { x with gated := x.gated + 1 }) s
  if pubAuth x = 0 then send lpdu s1
  else
    let i := fld (pw x Off.P_POLICY) 22 1
    let kid := (pw x (Off.P_KID + 4 * i)).toNat
    match gooseKey (fld (pw x Off.P_KEYSLOT) (8 * i) 8) (pubTid x) s1 with
    | none => gseEvt (pubTid x) 2 (updPub p (fun x => { x with keyErrs := x.keyErrs + 1 }) s1)
    | some (key, s2) =>
      send (lpdu ++ Config.gooseExtension (pubAuth x) kid (gooseTag (pubAuth x) key kid (beBytes 2 0x88B8 ++ lpdu))) s2

/-- The schedule restarts at the transmission of this tick (R213). -/
def restartSchedule (p : Nat) (s : State) : State :=
  updPub p (fun x => { x with interval := fld (pw x Off.P_TIMING) 0 8, next := some (s.tick.count + fld (pw x Off.P_TIMING) 0 8), fresh := false, restart := false }) s

/-- Publication `p` at a flip (R212, R215, R462): a state change, the first transmission after it is enabled or after a soft reset;
a state change counts before the restart of R462 (assumption 25). -/
def pubFlip (p : Nat) (s : State) : State :=
  let x := pubOf s p
  if !pubEn x then s
  else if !tenRunning s (pubTid x) then updPub p (fun x => { x with next := x.next.map (· + 1) }) s
  else
    let at0 := tbSub s 0 (pInstant s)
    if x.fresh then transmit p (restartSchedule p (updPub p (fun x => { x with stNum := 1, sqNum := 0, changedAt := at0 }) s))
    else if trigEncodings s x ≠ x.trig then
      transmit p (restartSchedule p (updPub p (fun x => { x with stNum := nextNum x.stNum, sqNum := 0, changedAt := at0 }) s))
    else if x.restart then transmit p (restartSchedule p (updPub p (fun x => { x with sqNum := nextNum x.sqNum }) s))
    else s

/-- The publisher at a flip, in ascending publication order (R214). -/
def publisherFlip (s : State) : State :=
  s.gse.pubs.foldl (fun s p => pubFlip p.1 s) s

/-- GOOSE_RETRANSMIT (R213): the scheduled transmission of publication `p` at the publish point of this tick. -/
def gooseRetransmit (p tm : Nat) (s : State) : State :=
  let s0 := advance s tm
  let x := pubOf s0 p
  let due := match x.next with | some n => decide (n ≤ s0.tick.count) | none => false
  if s0.car.flipped && pubEn x && !x.fresh && !x.restart && tenRunning s0 (pubTid x) && due then
    let t := min (2 * x.interval) (fld (pw x Off.P_TIMING) 8 16)
    transmit p (updPub p (fun x => { x with sqNum := nextNum x.sqNum, interval := t, next := some (s0.tick.count + t) }) s0)
  else s0

/-- GOOSE_RETRANSMIT. -/
def execGooseRetransmit (pub tm : Nat) (s : State) : Host.Outcome State Fault Refusal := .next (gooseRetransmit pub tm s)

/-- The gate closes (spec/13_redundant_pair.md R325): frames not yet begun are discarded and counted as gated, once a transmission. -/
def gateDiscard (s : State) : State :=
  let r := (List.range 4).foldl (fun (a : List Nat × State) p =>
    if p < numPorts s.variant then (let c := gateCut p a.2; (a.1 ++ c.1, c.2)) else a) (([] : List Nat), s)
  r.1.eraseDups.foldl (fun s p => updPub p (fun x => { x with gated := x.gated + 1 }) s) r.2

/-! ### Windows (R221, R224, R225) -/

/-- The longest frame of a publication with its tag and FCS (R221). -/
def pubLongest (x : GsePub) : Nat :=
  let memLen := fun t => match t with | 0 => 3 | 1 => 6 | 2 => 7 | 3 => 4 | 4 => 5 | _ => 10
  let all := (List.range (pubNmem x)).foldl (fun a j => a + memLen (fld (pubMem x j) 16 3)) 0
  let el := fun n => (berEnc 0 (List.replicate n 0)).length
  let inner := el (pubGocb x).length + el 5 + el (pubDatset x).length + el (pubGoid x).length + el 8 + el 5 + el 5 + el 1 + el 5 + el 1 + el 1 + el all
  let ext := if pubAuth x = 0 then 0 else (Config.gooseExtension (pubAuth x) 0 (List.replicate 16 0)).length
  14 + (if bit (pw x Off.P_VLAN) 15 then 4 else 0) + 8 + el inner + ext + 4

/-- Whether a tenant holds a key slot named by an entry (R221, R403). -/
def holdsSlot (s : State) (k t : Nat) : Bool := slotPresent s.vlt k && ((slotInfoOf s.vlt k).tid = t || (slotInfoOf s.vlt k).tid = 0)

/-- The result of a commit of `x` as publication `p` (R221, R459). -/
def pubResult (s : State) (p : Nat) (x : GsePub) : Nat :=
  let old := pubOf s p
  let tim := pw x Off.P_TIMING
  let len := pw x Off.P_STRLEN
  let badLen := fun lo => fld len lo 7 < 1 || 65 < fld len lo 7
  let others := s.gse.pubs.filter (fun y => y.1 ≠ p && pubEn y.2)
  let moved := pw old Off.P_CONFREV ≠ pw x Off.P_CONFREV || pubTid old ≠ pubTid x || pubNmem old ≠ pubNmem x || pubGocb old ≠ pubGocb x
    || pubDatset old ≠ pubDatset x || pubGoid old ≠ pubGoid x || (List.range (pubNmem x)).any (fun j => pubMem old j ≠ pubMem x j)
  let ks := pw x Off.P_KEYSLOT
  if regBit s pgGse0 Off.LOCK 0 then 7
  else if !pubEn x then 0
  else if badLen 0 || badLen 8 || badLen 16 || fld tim 0 8 < 1 || fld tim 8 16 < fld tim 0 8 || fld tim 24 3 < 1 || 4 < fld tim 24 3
      || pubNmem x < 1 || pubAuth x = 3 || (List.range (pubNmem x)).any (fun j => 5 < fld (pubMem x j) 16 3) then 1
  else if !(pubTid x < numTids s.variant) then 2
  else if (List.range (pubNmem x)).any (fun j => match laneOf s (fld (pubMem x j) 0 12) with
      | some (_, l) => pubTid x ≠ 0 && laneTid l ≠ pubTid x
      | none => true) then 3
  else if 4096 < (others.map (fun y => pubNmem y.2)).foldl (· + ·) (pubNmem x) then 4
  else if 1518 < pubLongest x then 5
  else if pubEn old && moved then 6
  else if pubAuth x ≠ 0 && !(holdsSlot s (fld ks 0 8) (pubTid x) && holdsSlot s (fld ks 8 8) (pubTid x)) then 8
  else 0

/-- The number of image blocks of a subscription. -/
def gsubBlocks (x : GseSub) : Nat := (gsubNmap x + 7) / 8

/-- The result of a commit of `x` as subscription `k` (R221, R459). -/
def gsubResult (s : State) (k : Nat) (x : GseSub) : Nat :=
  let old := gsubOf s k
  let others := s.gse.subs.filter (fun y => y.1 ≠ k && gsubEn y.2)
  let out := fun (y : GseSub) => fld (sw y Off.S_OUT) 0 12
  let maps := fun (y : GseSub) => (List.range (gsubNmap y)).map (fun j => sw y (Off.S_MAP + 4 * j))
  let ref := fld (sw x Off.S_REFLEN) 0 7
  let ks := sw x Off.S_KEYSLOT
  if regBit s pgGse0 Off.LOCK 0 then 7
  else if !gsubEn x then 0
  else if ref < 1 || 65 < ref || gsubNds x < 1 || gsubNmap x < 1 || 64 < gsubNmap x || fld (sw x Off.S_VLAN) 12 2 = 3
      || (maps x).any (fun m => gsubNds x ≤ fld m 0 7 || 3 < fld m 8 3 || (fld m 16 7 ≠ 0x7F && gsubNds x ≤ fld m 16 7)) then 1
  else if !(gsubTid x < numTids s.variant) then 2
  else if !(s.car.lanes.any (fun l => laneEn l.2 && laneTid l.2 = gsubTid x && laneSrc l.2 = 1 && laneBase l.2 ≤ out x && out x + gsubBlocks x ≤ laneLimit l.2)) then 3
  else if 8192 < (others.map (fun y => gsubNmap y.2)).foldl (· + ·) (gsubNmap x)
      || others.any (fun y => spansMeet (out x) (gsubBlocks x) (out y.2) (gsubBlocks y.2)) then 4
  else if others.any (fun y => sw x Off.S_DA_LO = sw y.2 Off.S_DA_LO && sw x Off.S_DA_HI = sw y.2 Off.S_DA_HI && gsubGocb x = gsubGocb y.2) then 5
  else if gsubEn old && (out old ≠ out x || maps old ≠ maps x || gsubTid old ≠ gsubTid x) then 6
  else if bit (sw x Off.S_POLICY) 12 && !(holdsSlot s (fld ks 0 8) (gsubTid x) && holdsSlot s (fld ks 8 8) (gsubTid x)) then 8
  else 0

/-- WRITE of the publication window (R215, R221, R224): applied at once, and so from the next flip. -/
def gsePubWrite (tid : Nat) (s : State) : State :=
  access tid pgGse0 Off.PUB_CMD 2 (fun s => entryWrite (pubTid (pubOf s (regFld s pgGse0 Off.PUB_SEL 0 8))) tid pgGse0 Off.PUB_CMD (fun s =>
    let p := regFld s pgGse0 Off.PUB_SEL 0 8
    let x := { GsePub.init with words := staged s pgGse0 pubOffs }
    let r := pubResult s p x
    let s1 := setReg s pgGse0 Off.PUB_RESULT (word r)
    if r ≠ 0 then flagErr pgGse0 8 Off.PUB_CMD tid true s1
    else
      let old := pubOf s1 p
      updPub p (fun _ =>
        if pubEn x && pubEn old then { old with words := x.words }
        else if pubEn x then { x with fresh := true, sent := old.sent, gated := old.gated, keyErrs := old.keyErrs }
        else { old with words := x.words, next := none, fresh := false, restart := false }) s1) s) s

/-- WRITE. -/
def execGsePubWrite (tid : Nat) (s : State) : Host.Outcome State Fault Refusal := .next (gsePubWrite tid s)

/-- Words loaded into the staging registers of a page. -/
def stage (pg : Nat) (os : List Nat) (t : Tab Word) (s : State) : State := os.foldl (fun s o => setReg s pg o (tget 0 t o)) s

/-- READ of the publication window. -/
def gsePubRead (tid : Nat) (s : State) : State :=
  access tid pgGse0 Off.PUB_CMD 1 (fun s => stage pgGse0 pubOffs (pubOf s (regFld s pgGse0 Off.PUB_SEL 0 8)).words s) s

/-- READ. -/
def execGsePubRead (tid : Nat) (s : State) : Host.Outcome State Fault Refusal := .next (gsePubRead tid s)

/-- WRITE of the subscription window (R221, R225): a subscription that becomes enabled starts in NEVER (R219). -/
def gseSubWrite (tid : Nat) (s : State) : State :=
  access tid pgGse1 Off.GSUB_CMD 2 (fun s => entryWrite (gsubTid (gsubOf s (regFld s pgGse1 Off.GSUB_SEL 0 10))) tid pgGse1 Off.GSUB_CMD (fun s =>
    let k := regFld s pgGse1 Off.GSUB_SEL 0 10
    let x := { GseSub.init with words := staged s pgGse1 gsubOffs }
    let r := gsubResult s k x
    let s1 := setReg s pgGse1 Off.GSUB_RESULT (word r)
    if r ≠ 0 then flagErr pgGse1 8 Off.GSUB_CMD tid true s1
    else updGsub k (fun old =>
      if gsubEn x && gsubEn old then { old with words := x.words, simSeen := false }
      else { x with image := old.image }) s1) s) s

/-- WRITE. -/
def execGseSubWrite (tid : Nat) (s : State) : Host.Outcome State Fault Refusal := .next (gseSubWrite tid s)

/-- READ of the subscription window. -/
def gseSubRead (tid : Nat) (s : State) : State :=
  access tid pgGse1 Off.GSUB_CMD 1 (fun s => stage pgGse1 gsubOffs (gsubOf s (regFld s pgGse1 Off.GSUB_SEL 0 10)).words s) s

/-- READ. -/
def execGseSubRead (tid : Nat) (s : State) : Host.Outcome State Fault Refusal := .next (gseSubRead tid s)

/-! ### Subscription (R218, R219) -/

/-- A GOOSE APDU as the subscriber reads it. -/
structure GooseApdu where
  gocb : List Byte
  tal : Nat
  stNum : Nat
  sqNum : Nat
  sim : Bool
  confRev : Nat
  nds : Nat
  data : List (Nat × List Byte)
  deriving DecidableEq, Repr

/-- The elements of an IECGoosePdu in the order of IEC 61850-8-1, none where a type, a length or the order is wrong (R218 reason 1). -/
def parseGoosePdu (c : List Byte) : Option GooseApdu :=
  match berAll c.length c with
  | none => none
  | some l0 =>
    let (gocb, l1) := optElem 0x80 l0
    let (tal, l2) := optElem 0x81 l1
    let (ds, l3) := optElem 0x82 l2
    let (_, l4) := optElem 0x83 l3
    let (t, l5) := optElem 0x84 l4
    let (st, l6) := optElem 0x85 l5
    let (sq, l7) := optElem 0x86 l6
    let (sim, l8) := optElem 0x87 l7
    let (cr, l9) := optElem 0x88 l8
    let (_, l10) := optElem 0x89 l9
    let (nds, l11) := optElem 0x8A l10
    let (all, l12) := optElem 0xAB l11
    match gocb, tal, ds, t, st, sq, cr, nds, all with
    | some g, some tl, some _, some tt, some sn, some qn, some c1, some n, some a =>
      let num := fun (b : List Byte) => 1 ≤ b.length && b.length ≤ 5
      if !(num tl && num sn && num qn && num c1 && num n && tt.length = 8 && l12 = []) then none
      else (berAll a.length a).map (fun d =>
        { gocb := g, tal := beNat tl, stNum := beNat sn % 2 ^ 32, sqNum := beNat qn % 2 ^ 32, sim := (match sim with | some b => beNat b ≠ 0 | none => false)
          confRev := beNat c1 % 2 ^ 32, nds := beNat n, data := d })
    | _, _, _, _, _, _, _, _, _ => none

/-- The octets after the EtherType: APPID, the LPDU up to the end of its APDU, the APDU, and the extension (R216). -/
def parseGoose (p : List Byte) : Option (Nat × List Byte × GooseApdu × Option (Nat × Nat × List Byte)) :=
  let len := beNat ((p.drop 2).take 2)
  if len < 8 || p.length < len then none
  else
    match berTlv ((p.take len).drop 8) with
    | some (0x61, c, []) => (parseGoosePdu c).map (fun a => (beNat (p.take 2), p.take len, a, Config.readGooseExtension (p.drop len)))
    | _ => none

/-- The value of a data element of a mapped type, none for another type (R218 reason 7, R219). -/
def mappedValue (vtype : Nat) (d : Option (Nat × List Byte)) : Option Word :=
  match vtype, d with
  | 0, some (0x83, c) => some (if beNat c = 0 then 0 else 1)
  | 1, some (0x85, c) => some (BitVec.ofInt 32 (if 0x80 ≤ (c.head?.getD 0).toNat then (beNat c : Int) - 2 ^ (8 * c.length) else beNat c))
  | 1, some (0x86, c) => some (word (beNat c))
  | 2, some (0x87, c) => if c.length = 5 then some (word (beNat (c.drop 1))) else none
  | 3, some (0x84, c) => if c.length = 2 then some (word (beNat (c.drop 1) / 64)) else none
  | _, _ => none

/-- The quality of a QUALITY member as bits [12:0]. -/
def mappedQuality (d : Option (Nat × List Byte)) : Option Word :=
  match d with
  | some (0x84, c) =>
    if c.length = 3 then
      let v := beNat (c.drop 1)
      let b := fun i => v / 2 ^ (15 - i) % 2
      some (word (b 1 + 2 * b 0 + ((List.range 11).map (fun i => b (i + 2) * 2 ^ (i + 2))).foldl (· + ·) 0))
    else none
  | _ => none

/-- The mapped values of a frame, none where a mapped member has an unexpected type. -/
def mappedValues (x : GseSub) (a : GooseApdu) : Option (List (Word × Word)) :=
  allSome ((List.range (gsubNmap x)).map (fun j =>
    let m := sw x (Off.S_MAP + 4 * j)
    let q := if fld m 16 7 = 0x7F then some 0 else mappedQuality (a.data[fld m 16 7]?)
    match mappedValue (fld m 8 3) (a.data[fld m 0 7]?), q with
    | some v, some q => some (v, q)
    | _, _ => none))

/-- A failed check of a matched subscription (R218). -/
def gooseFail (k : Nat) (auth : Bool) (s : State) : State :=
  let s1 := updGsub k (fun x => { x with failed := x.failed + 1 }) s
  if auth then gseEvt (gsubTid (gsubOf s k)) 1 s1 else s1

/-- The check of the security extension (R217, R218 reason 4): none where it fails, else the state after a use of the key. -/
def gooseAuth (x : GseSub) (lpdu : List Byte) (ext : Option (Nat × Nat × List Byte)) (s : State) : Option State :=
  match ext with
  | none => none
  | some (alg, kid, tag) =>
    match (List.range 2).find? (fun i => (sw x (Off.S_KID + 4 * i)).toNat = kid) with
    | none => none
    | some i =>
      match gooseKey (fld (sw x Off.S_KEYSLOT) (8 * i) 8) (gsubTid x) s with
      | none => none
      | some (key, s1) =>
        if (alg = 1 || alg = 2) && tag = gooseTag alg key kid (beBytes 2 0x88B8 ++ lpdu) then some s1 else none

/-- An accepted frame (R218, R219). -/
def gooseAccept (k : Nat) (a : GooseApdu) (vs : List (Word × Word)) (stamp : Nat) (s : State) : State :=
  let x := gsubOf s k
  let back := x.state ≠ .never && (word a.stNum - word x.stNum).toInt < 0 && !(x.stNum = 0xFFFFFFFF && a.stNum = 1)
  let s1 := updGsub k (fun x => { x with
    state := if a.tal = 0 then .expired else .valid, stNum := a.stNum, sqNum := a.sqNum, seqBack := x.seqBack || back
    deadline := tbNs s 0 stamp + a.tal * 1000000, sim := a.sim, simSeen := x.simSeen || a.sim, values := vs, accepted := x.accepted + 1
    expiries := if a.tal = 0 then x.expiries + 1 else x.expiries }) s
  let s2 := if back then gseEvt (gsubTid x) 3 s1 else s1
  if a.tal = 0 then gseEvt (gsubTid x) 0 s2 else s2

/-- The checks of a matched frame in the order of R218; a tenant behind its fence accepts none (spec/12_tenants.md R296). -/
def gooseCheck (k port : Nat) (lpdu : List Byte) (a : GooseApdu) (ext : Option (Nat × Nat × List Byte)) (stamp : Nat) (s : State) : State :=
  let x := gsubOf s k
  let pol := sw x Off.S_POLICY
  if (tenOf s (gsubTid x)).state = .resetting then s
  else if !(bit pol (4 + port)) then gooseFail k false s
  else
    match (if bit pol 12 then gooseAuth x lpdu ext s else some s) with
    | none => gooseFail k true s
    | some s1 =>
      if (a.sim && !(bit pol 13)) || (!a.sim && bit pol 13 && x.simSeen) then gooseFail k false s1
      else if a.confRev ≠ (sw x Off.S_CONFREV).toNat then gooseFail k false s1
      else if a.nds ≠ gsubNds x then gooseFail k false s1
      else
        match mappedValues x a with
        | none => gooseFail k false s1
        | some vs =>
          if x.state ≠ .never && a.stNum = x.stNum && a.sqNum ≤ x.sqNum && !(x.sqNum = 0xFFFFFFFF && a.sqNum = 1) then gooseFail k false s1
          else gooseAccept k a vs stamp s1

/-- GOOSE_FRAME (R218): a GOOSE frame of a port, its checks complete at `tm`. -/
def gooseFrame (port : Nat) (frame : List Byte) (tm : Nat) (s : State) : State :=
  let s0 := advance s tm
  let h := takeHanded port frame tm s0
  let (da, tag, _, ty, p) := etherHeader frame
  if !(port < numPorts s.variant) || ty ≠ 0x88B8 then h.2
  else
    match parseGoose p with
    | none => h.2
    | some (appid, lpdu, a, ext) =>
      let hit := h.2.gse.subs.find? (fun y => gsubEn y.2 && (sw y.2 Off.S_DA_LO).toNat + fld (sw y.2 Off.S_DA_HI) 0 16 * 2 ^ 32 = da
        && fld (sw y.2 Off.S_DA_HI) 16 16 = appid && vlanMatch (fld (sw y.2 Off.S_VLAN) 12 2) (fld (sw y.2 Off.S_VLAN) 0 12) tag && gsubGocb y.2 = a.gocb)
      match hit with
      | none => h.2
      | some (k, x) => if (tenOf s0 (gsubTid x)).state = .resetting then h.2 else gooseCheck k port lpdu a ext h.1.1 h.2

/-- GOOSE_FRAME. -/
def execGooseFrame (port : Nat) (frame : List Byte) (tm : Nat) (s : State) : Host.Outcome State Fault Refusal :=
  .next (gooseFrame port frame tm s)

/-- TAL_EXPIRY (R219). -/
def talExpiry (k tm : Nat) (s : State) : State :=
  let s0 := advance s tm
  let x := gsubOf s0 k
  if gsubEn x && x.state = .valid && x.deadline ≤ tbNs s0 0 s0.now then
    gseEvt (gsubTid x) 0 (updGsub k (fun x => { x with state := .expired, expiries := x.expiries + 1 }) s0)
  else s0

/-- TAL_EXPIRY. -/
def execTalExpiry (sub tm : Nat) (s : State) : Host.Outcome State Fault Refusal := .next (talExpiry sub tm s)

/-- The image of a subscription at a flip (R219). -/
def gsubImage (x : GseSub) : List (Word × Word) :=
  match x.state with
  | .never => List.replicate (gsubNmap x) (0, 0x80020001)
  | .valid => x.values.map (fun v => (v.1, v.2 ||| (if x.sim then 0x80000 else 0)))
  | .expired => x.values.map (fun v => (v.1, (((v.2 ||| (if x.sim then 0x80000 else 0)) &&& ~~~3) ||| 1) ||| 0x80010000))

/-- The images written to their lanes at a flip, and the change map (R219, R220). -/
def gooseImages (s : State) : State :=
  let s0 := { s with gse := { s.gse with changed := [] } }
  s0.gse.subs.foldl (fun s y =>
    let x := y.2
    if !gsubEn x then s
    else
      let im := gsubImage x
      let out := 8 * fld (sw x Off.S_OUT) 0 12
      let u := (List.range im.length).foldl (fun t j => tset t (out + j) (im.getD j (0, 0))) s.car.unit
      let s1 := updGsub y.1 (fun x => { x with image := im }) { s with car := { s.car with unit := u } }
      if im = x.image then s1 else { s1 with gse := { s1.gse with changed := s1.gse.changed ++ [y.1] } }) s0

/-! ### Resets (R220, R462) and mailbox selectors (R224, R225) -/

/-- A subscription returns to NEVER. -/
def gsubNever (x : GseSub) : GseSub := { x with state := .never, sim := false, simSeen := false, values := [] }

/-- A soft reset of the GOOSE block (R462). -/
def gooseSoftReset (s : State) : State :=
  { s with gse := { s.gse with
    pubs := s.gse.pubs.map (fun p => (p.1, { p.2 with next := none, restart := pubEn p.2 && !p.2.fresh }))
    subs := s.gse.subs.map (fun x => (x.1, gsubNever x.2)) } }

/-- A TEN(t) reset: t's subscriptions return to NEVER (R220). -/
def gooseTenReset (t : Nat) (s : State) : State :=
  { s with gse := { s.gse with subs := s.gse.subs.map (fun x => (x.1, if gsubTid x.2 = t then gsubNever x.2 else x.2)) } }

/-- PUBLICATION_SNAPSHOT: selector 0x0010 of GSE page 0. -/
def execPublicationSnapshot (tid pub : Nat) (s : State) : Host.Outcome State Fault Refusal :=
  .next (selectMailbox tid pgGse0 (selWord 0x10 pub) (pub < 256) s)

/-- SUBSCRIPTION_STATE_SNAPSHOT: selector 0x0010 + (s >> 8) of GSE page 1. -/
def execSubscriptionStateSnapshot (tid sub : Nat) (s : State) : Host.Outcome State Fault Refusal :=
  .next (selectMailbox tid pgGse1 (selWord (0x10 + sub / 256) (sub % 256)) (sub < 1024) s)

end Sys2Proof.Machine
end

