-- ==== Sys2Proof/Machine/LogicScan.lean ====
section
/-!
DEFINITION. The Logic runner: elements, timers and scans (spec/11_logic_runner.md R264-R278, R283).
-/
namespace Sys2Proof.Machine

/-- Partition `t`. -/
def partOf (s : State) (t : Nat) : LogicPart := tget LogicPart.init s.lgr.parts t

/-- Partition `t` changed. -/
def updPart (t : Nat) (f : LogicPart → LogicPart) (s : State) : State :=
  { s with lgr := { s.lgr with parts := tset s.lgr.parts t (f (partOf s t)) } }

/-- A register of partition `t`. -/
def lp (s : State) (t off : Nat) : Word := reg s pgLgr0 (off + 0x40 * t)

def lpEn (s : State) (t : Nat) : Bool := bit (lp s t Off.LP_CTRL) 0
def lpTmode (s : State) (t : Nat) : Bool := bit (lp s t Off.LP_CTRL) 1
def lpN (s : State) (t : Nat) : Nat := fld (lp s t Off.LP_CTRL) 4 9
def lpPhase (s : State) (t : Nat) : Nat := fld (lp s t Off.LP_CTRL) 16 9
def lpElems (s : State) (t : Nat) : Nat := fld (lp s t Off.LP_ELEM) 16 16 + 1
def lpTimers (s : State) (t : Nat) : Nat := fld (lp s t Off.LP_TMR) 16 13
def lpEdges (s : State) (t : Nat) : Nat := fld (lp s t Off.LP_EDG) 16 14
def lpOutBase (s : State) (t : Nat) : Nat := fld (lp s t Off.LP_OUT) 0 12
def lpOutLimit (s : State) (t : Nat) : Nat := fld (lp s t Off.LP_OUT) 16 13

/-- S_t (R266). -/
def scanSize (s : State) (t : Nat) : Nat :=
  64 + lpElems s t + (if lpTmode s t then 2 * lpTimers s t else 0) + (lpOutLimit s t - lpOutBase s t)

/-- An event of tenant `t` in LTEN_EVT (R285). -/
def lgrEvt (t i : Nat) (s : State) : State := setTenEvt pgLgr1 (Off.LTEN_EVT + 4 * t) t 6 (1 <<< i) s

/-! ### Elements (R270-R272) -/

/-- A field of an element. -/
def eFld (e : BitVec 64) (lo n : Nat) : Nat := e.toNat / 2 ^ lo % 2 ^ n
def eOp (e : BitVec 64) : Nat := eFld e 0 6
def eFn (e : BitVec 64) : Nat := eFld e 6 5
def eNeg (e : BitVec 64) (i : Nat) : Bool := e.getLsbD (11 + i)
def eA (e : BitVec 64) : Nat := eFld e 16 16
def eB (e : BitVec 64) : Nat := eFld e 32 16
def eC (e : BitVec 64) : Nat := eFld e 48 16

/-- What a scan evaluates with: the points of this scan, latest first, those of the previous scan, timers, edge memories, and
whether this is the first scan. -/
structure ScanEnv where
  cur : List LPoint
  prev : List LPoint
  timers : Tab LTimer
  edges : List Nat
  first : Bool
  d : Nat
  tick : Nat
  hw : Bool
  deriving DecidableEq, Repr

/-- Operand `i` as read by the next element (R270). -/
def operand (v : ScanEnv) (i : Nat) : LPoint :=
  let n := v.cur.length
  if i < n then v.cur.getD (n - 1 - i) LPoint.init else v.prev.getD i LPoint.init

/-- The Boolean of an operand, inverted by its NEG bit. -/
def operandBool (p : LPoint) (neg : Bool) : Bool := (p.v ≠ 0) != neg

/-- sat() of R274. -/
def satTicks (n : Nat) : Nat := min n 16777215

/-- One timer in one scan: the timer and Q (R274). -/
def timerStep (op : Nat) (b : Bool) (d : Nat) (t : LTimer) : LTimer × Bool :=
  match op with
  | 0x10 =>
    if b then
      let e := if t.st = 1 then satTicks (t.e + d) else 0
      ({ t with e := e, st := 1 }, t.pt ≤ e)
    else ({ t with e := 0, st := 0 }, false)
  | 0x11 =>
    if b then ({ t with e := 0, st := 1 }, true)
    else if t.st = 1 then ({ t with e := 0, st := 2 }, 0 < t.pt)
    else if t.st = 2 then
      let e := satTicks (t.e + d)
      ({ t with e := e, st := if e < t.pt then 2 else 0 }, e < t.pt)
    else (t, false)
  | _ =>
    let t1 :=
      if t.st = 2 then
        let e := satTicks (t.e + d)
        { t with e := e, st := if t.pt ≤ e then 0 else 2 }
      else if b && !t.pv then { t with e := 0, st := if 0 < t.pt then 2 else 0 }
      else t
    ({ t1 with pv := b }, t1.st = 2)

/-- The recorded expiry of a hardware block: none from the start of a count, then the scan in which E first met PT (R276). -/
def timerExpiry (op tick : Nat) (b : Bool) (old new : LTimer) : Option Nat :=
  let started := match op with
    | 0x10 => b && old.st ≠ 1
    | 0x11 => !b && old.st = 1
    | _ => old.st ≠ 2 && b && !old.pv
  let counting := started || (match op with | 0x10 => b | 0x11 => old.st = 2 && !b | _ => old.st = 2)
  let kept := if started then none else old.expiry
  if counting && new.pt ≤ new.e && kept = none then some tick else kept

/-- The result U of an element with its INV and FRC, and what it leaves in timers and edge memories; `s` gives the table and the
GPIO levels (R271). -/
def elemEval (s : State) (v : ScanEnv) (e : BitVec 64) : (Word × Bool × Bool) × ScanEnv :=
  let a := operand v (eA e)
  let b := operand v (eB e)
  let c := operand v (eC e)
  let ba := operandBool a (eNeg e 0)
  let bb := operandBool b (eNeg e 1)
  let bc := operandBool c (eNeg e 2)
  let flag := fun (x : Bool) (ps : List LPoint) => ((word (b2n x), ps.any (·.invV), ps.any (·.frc)), v)
  let three := eFn e % 2 = 1
  let uPrev := (v.prev.getD v.cur.length LPoint.init).u ≠ 0
  match eOp e with
  | 0x01 =>
    let p := published s (eA e % 4096) (eB e % 8)
    ((p.1, fld p.2 0 2 = 1 || fld p.2 0 2 = 2 || bit p.2 31, false), v)
  | 0x02 => ((word (b2n (bit s.lgr.gpio (eA e % 32))), false, false), v)
  | 0x03 => ((word (eFld e 32 32), three, false), v)
  | 0x04 => if three then flag (ba && bb && bc) [a, b, c] else flag (ba && bb) [a, b]
  | 0x05 => if three then flag (ba || bb || bc) [a, b, c] else flag (ba || bb) [a, b]
  | 0x06 => flag (ba != bb) [a, b]
  | 0x07 => flag ((uPrev || ba) && !bb) [a, b]
  | 0x08 => flag (ba || (uPrev && !bb)) [a, b]
  | 0x09 =>
    let fp := eFn e / 8 % 2 = 1
    let x := f32 a.v
    let y := f32 b.v
    let nan := fp && (x = .nan || y = .nan)
    let lt := if fp then fvalLt x y else a.v.toInt < b.v.toInt
    let eq := if fp then fvalEq x y else a.v = b.v
    let r := match eFn e % 8 with
      | 0 => eq | 1 => !eq | 2 => lt | 3 => lt || eq | 4 => !lt && !eq | _ => !lt
    flag (!nan && r) [a, b]
  | 0x0A => let x := if bc then a else b; ((x.v, c.invV || x.invV, c.frc || x.frc), v)
  | 0x10 | 0x11 | 0x12 =>
    let i := if a.invV then false else ba
    let old := tget LTimer.init v.timers (eC e)
    let r := timerStep (eOp e) i v.d old
    let t := { r.1 with expiry := if v.hw then timerExpiry (eOp e) v.tick i old r.1 else none }
    ((word (b2n r.2), a.invV, a.frc), { v with timers := tset v.timers (eC e) t })
  | 0x14 | 0x15 =>
    let i := if a.invV then false else ba
    let m := if v.first then i else v.edges.contains (eC e)
    let q := if eOp e = 0x14 then i && !m else !i && m
    let rest := v.edges.filter (· ≠ eC e)
    ((word (b2n q), a.invV, a.frc), { v with edges := if i then eC e :: rest else rest })
  | 0x18 => ((word (b2n (!a.invV)), false, a.frc), v)
  | 0x20 => ((a.v, a.invV, a.frc), v)
  | _ => ((0, false, false), v)

/-- The forced value of element `e` of partition `t`. -/
def forcedValue (s : State) (t e : Nat) : Option Word :=
  (s.lgr.forces.find? (fun f => f.2.tid = t && f.2.elem = e && f.2.cur.isSome)).bind (fun f => f.2.cur)

/-- The elements evaluated in index order (R270, R272). -/
def evalAll (s : State) (t : Nat) : List (BitVec 64) → ScanEnv → ScanEnv
  | [], v => v
  | e :: rest, v =>
    let r := elemEval s v e
    let p : LPoint := match forcedValue s t v.cur.length with
      | some w => ⟨r.1.1, w, r.1.2.1, false, true⟩
      | none => ⟨r.1.1, r.1.1, r.1.2.1, r.1.2.1, r.1.2.2⟩
    evalAll s t rest { r.2 with cur := p :: r.2.cur }

/-- The quality of an output entry (R273). -/
def outQuality (inv frc : Bool) : Word := (if inv then 0x80002001 else 0x2000) ||| (if frc then 0x1000 else 0)

/-- The output image of a scan: its blocks' entries in order (R273). -/
def outImage (base limit : Nat) (elems : List (BitVec 64)) (v : ScanEnv) : List (Word × Word) :=
  let outs := (elems.zip (List.range elems.length)).filterMap (fun x =>
    let e := x.1
    if eOp e = 0x20 then
      let p := if eA e < x.2 then v.cur.getD (v.cur.length - 1 - eA e) LPoint.init else v.prev.getD (eA e) LPoint.init
      some (8 * (eB e % 4096) + eC e % 8, p)
    else none)
  (List.range (8 * (limit - base))).map (fun i =>
    match outs.find? (fun o => o.1 = 8 * base + i) with
    | some (_, p) => (p.v, outQuality p.invV p.frc)
    | none => unusedEntry)

/-! ### On-line changes and forces at a scan (R277, R278) -/

/-- Whether a target tick has been reached at tick count `c`. -/
def atReached (c : Nat) (target : Word) : Bool := 0 ≤ (word c - target).toInt

/-- ONL_STAT and FRC_STAT show what is pending and in force. -/
def showLogic (s : State) : State :=
  setRegFld (setRegFld s pgLgr1 Off.ONL_STAT 8 7 s.lgr.changes.length) pgLgr1 Off.FRC_STAT 8 7
    (s.lgr.forces.filter (fun f => f.2.cur.isSome)).length

/-- An element with the value of a CONST replaced. -/
def setConst (e : BitVec 64) (w : Word) : BitVec 64 := BitVec.ofNat 64 (e.toNat % 2 ^ 32 + w.toNat * 2 ^ 32)

/-- A change applied to its partition. -/
def applyLChange (c : LChange) (s : State) : State :=
  if c.timer then updPart c.tid (fun p => { p with
    timers := tset p.timers c.index { tget LTimer.init p.timers c.index with pt := fld c.value 0 24 } }) s
  else updPart c.tid (fun p => { p with elems := p.elems.modify c.index (fun e => setConst e c.value) }) s

/-- Changes and forces of partition `t` that fall due at a scan of tick count `c`. -/
def dueChanges (t c : Nat) (s : State) : State :=
  let due := s.lgr.changes.filter (fun x => x.tid = t && atReached c x.target)
  let s1 := due.foldl (fun s x => applyLChange x s)
    { s with lgr := { s.lgr with changes := s.lgr.changes.filter (fun x => !(x.tid = t && atReached c x.target)) } }
  let step := fun (f : LForce) =>
    let f1 := match f.next with
      | some (w, a) => if atReached c a then { f with cur := some w, next := none } else f
      | none => f
    match f1.release with
    | some a => if atReached c a then none else some f1
    | none => some f1
  let mine := s1.lgr.forces.filter (fun f => f.2.tid = t)
  let fs := s1.lgr.forces.filterMap (fun f => if f.2.tid = t then (step f.2).map (fun g => (f.1, g)) else some f)
  let changed := mine.any (fun f => match step f.2 with | some g => g.cur ≠ f.2.cur | none => f.2.cur.isSome)
  let s2 := { s1 with lgr := { s1.lgr with forces := fs } }
  showLogic (if changed then lgrEvt t 3 s2 else s2)

/-! ### Scans (R265-R269) -/

/-- A completed scan writes its image into its lane (R266). -/
def finishScan (t : Nat) (s : State) : State :=
  match (partOf s t).scan with
  | none => s
  | some x =>
    let base := 8 * lpOutBase s t
    let put := (List.range x.image.length).foldl (fun u i => tset u (base + i) (x.image.getD i unusedEntry)) s.car.unit
    updPart t (fun p => { p with scan := none, endAt := some x.doneAt }) { s with car := { s.car with unit := put } }

/-- SCAN_COMPLETE (R266). -/
def scanComplete (t tm : Nat) (s : State) : State :=
  let s0 := advance s tm
  match (partOf s0 t).scan with
  | some x => if x.doneAt ≤ tm / 2 + 1 then finishScan t s0 else s0
  | none => s0

/-- SCAN_COMPLETE. -/
def execScanComplete (tenant tm : Nat) (s : State) : Host.Outcome State Fault Refusal := .next (scanComplete tenant tm s)

/-- Scans whose write has completed before fabric cycle `f`. -/
def settleScans (f : Nat) (s : State) : State :=
  (List.range 16).foldl (fun s t =>
    match (partOf s t).scan with
    | some x => if x.doneAt ≤ f then finishScan t s else s
    | none => s) s

/-- A scan falls due: the idle time since the end of the previous one, taken once (R269). -/
def noteIdle (t : Nat) (s : State) : State :=
  match (partOf s t).endAt with
  | some e =>
    let idle := s.now / 2 - e
    let s1 := setReg (updPart t (fun p => { p with endAt := none }) s) pgLgr0 (Off.IDLE_LAST + 0x40 * t) (word idle)
    setReg s1 pgLgr0 (Off.IDLE_MIN + 0x40 * t) (word (min idle (lp s1 t Off.IDLE_MIN).toNat))
  | none => s

/-- A scan of partition `t` that falls due at the flip of tick count `c` is executed (R266-R269, R274). -/
def runScan (t c : Nat) (s : State) : State :=
  let f := s.now / 2
  let s0 := dueChanges t c s
  let p := partOf s0 t
  let d := match p.lastScan with | some l => c - l | none => 0
  let v := evalAll s0 t p.elems ⟨[], p.points, p.timers, p.edges, p.first, d, c % 2 ^ 32, !(lpTmode s0 t)⟩
  let start := max f s0.lgr.busyUntil
  let done := start + scanSize s0 t
  let s1 := noteIdle t s0
  let s3 := countReg s1 pgLgr0 (Off.SCANS + 0x40 * t) 1
  let s4 := updPart t (fun p => { p with
    points := v.cur.reverse, timers := v.timers, edges := v.edges, first := false, lastScan := some c
    scan := some ⟨done, outImage (lpOutBase s t) (lpOutLimit s t) p.elems v⟩ }) s3
  { s4 with lgr := { s4.lgr with busyUntil := done } }

/-- A scan that falls due while the previous one is queued or running, or in a write phase, is skipped (R268). -/
def skipScan (t : Nat) (s : State) : State := setIrq pgLgr0 1 (lgrEvt t 0 (countReg (noteIdle t s) pgLgr0 (Off.SKIPS + 0x40 * t) 1))

/-- The scans of a flip (R265-R268); the GPIO levels are sampled in its fabric cycle, and are free values. -/
def logicFlip (s : State) : State :=
  let g := fresh s
  let s0 := { g.2 with lgr := { g.2.lgr with gpio := g.1 } }
  if !realTimeMode s0 then s0
  else
    let c := s0.tick.count
    let due := fun t => lpEn s0 t && tenRunning s0 t && 0 < lpN s0 t && ((c : Int) - lpPhase s0 t) % lpN s0 t = 0
    let writing := fun (s : State) t => match s.lgr.load with | some l => l.tid = t | none => false
    let r := (List.range 16).foldl (fun (acc : State × Nat) t =>
      if !due t then acc
      else if (partOf acc.1 t).scan.isSome || writing acc.1 t then (skipScan t acc.1, acc.2)
      else (runScan t c acc.1, acc.2 + scanSize acc.1 t)) (s0, 0)
    setReg r.1 pgLgr0 Off.BUSY_LAST (word r.2)

/-! ### Resets (R283) -/

/-- The state of a partition reset under R270 and R272, its timers with it; program and presets stay. -/
def resetPart (p : LogicPart) : LogicPart :=
  { p with points := [], edges := [], first := true, lastScan := none, scan := none
           timers := p.timers.map (fun t => (t.1, { LTimer.init with pt := t.2.pt })) }

/-- A TEN(t) reset. -/
def lgrTenReset (t : Nat) (s : State) : State :=
  showLogic (updPart t resetPart { s with lgr := { s.lgr with
    changes := s.lgr.changes.filter (fun c => c.tid ≠ t), forces := s.lgr.forces.filter (fun f => f.2.tid ≠ t) } })

/-- A soft reset of the Logic runner. -/
def lgrSoftReset (s : State) : State :=
  showLogic { s with lgr := { s.lgr with
    changes := [], forces := [], parts := s.lgr.parts.map (fun p => (p.1, resetPart p.2)), load := none, busyUntil := 0 } }

end Sys2Proof.Machine
end

