-- ==== Sys2Proof/Machine/LogicConfig.lean ====
section
/-!
DEFINITION. The Logic runner: partition commits, loads, on-line changes, forces (spec/11_logic_runner.md R264, R267, R276-R285).
-/
namespace Sys2Proof.Machine

/-! ### Partition commits (R284) -/

/-- The other enabled partitions. -/
def otherParts (s : State) (t : Nat) : List Nat := (List.range 16).filter (fun u => u ≠ t && lpEn s u)

/-- Whether two ranges of a memory meet; an empty one meets none. -/
def rangesMeet (a n b m : Nat) : Bool := 0 < n && 0 < m && a < b + m && b < a + n

/-- Hardware timer blocks held by the partitions `ts`. -/
def hwHeld (s : State) (ts : List Nat) : Nat := (ts.map (fun u => if lpTmode s u then 0 else lpTimers s u)).foldl (· + ·) 0

/-- The sum of S_t over partitions. -/
def budgetOf (s : State) (ts : List Nat) : Nat := (ts.map (scanSize s)).foldl (· + ·) 0

/-- A partition with a program loaded since its ranges were last written. -/
def lpProg (s : State) (t : Nat) : Bool := bit (lp s t Off.LP_STAT) 20

/-- GPIN elements of a program that name a bit outside a mask. -/
def gpinBad (mask : Word) (e : BitVec 64) : Bool := eOp e = 0x02 && !(bit mask (eA e % 32))

/-- The result of an enable of partition `t` with the LP_CTRL word `data`. -/
def lpResult (s0 : State) (t : Nat) (data : Word) : Nat :=
  let s := setReg s0 pgLgr0 (Off.LP_CTRL + 0x40 * t) data
  let n := lpN s t
  let fast := rateHz s = 4000
  let os := (otherParts s t)
  let eb := fld (lp s t Off.LP_ELEM) 0 16
  let tb := fld (lp s t Off.LP_TMR) 0 12
  let gb := fld (lp s t Off.LP_EDG) 0 13
  let meet := fun u =>
    rangesMeet eb (lpElems s t) (fld (lp s u Off.LP_ELEM) 0 16) (lpElems s u)
    || rangesMeet tb (lpTimers s t) (fld (lp s u Off.LP_TMR) 0 12) (lpTimers s u)
    || rangesMeet gb (lpEdges s t) (fld (lp s u Off.LP_EDG) 0 13) (lpEdges s u)
  if (if fast then n < 1 || 400 < n else n < 2 || 480 < n) || n ≤ lpPhase s t then 1
  else if !(t < numTids s.variant) then 2
  else if 65536 < eb + lpElems s t || 4096 < tb + lpTimers s t || 8192 < gb + lpEdges s t || os.any meet then 3
  else if lpOutLimit s t < lpOutBase s t
      || (lpOutBase s t < lpOutLimit s t && !(blocksInLane s t 3 (lpOutBase s t) (lpOutLimit s t - lpOutBase s t))) then 4
  else if !(lpTmode s t) && 512 < hwHeld s os + lpTimers s t then 5
  else if (if fast then 145000 else 120000) < budgetOf s (t :: os) then 6
  else if !(lpProg s t) then 7
  else if (partOf s t).elems.any (gpinBad (lp s t Off.LP_GPIO)) then 8
  else 0

/-- HW_FREE, BUDGET_USED and the scan size of partition `t` shown. -/
def showParts (t : Nat) (s : State) : State :=
  let on := (List.range 16).filter (lpEn s)
  setRegFld (setReg (setReg s pgLgr0 Off.HW_FREE (word (512 - hwHeld s on))) pgLgr0 Off.BUDGET_USED (word (budgetOf s on)))
    pgLgr0 (Off.LP_STAT + 0x40 * t) 0 17 (scanSize s t)

/-- A write of LP_CTRL: a commit where it sets EN; while EN = 1 it is taken without a commit (assumption 31). A commit under LOCK.GRP0 is refused with LOCKED. -/
def lpCtrlWrite (tid t : Nat) (data : Word) (s : State) : State :=
  let off := Off.LP_CTRL + 0x40 * t
  let stat := Off.LP_STAT + 0x40 * t
  if 16 ≤ t then deny s
  else
    let locked := regBit s pgLgr0 Off.LOCK 0 && bit data 0 && !lpEn s t && judge s tid pgLgr0 off = .error (some 0)
    let s0 := if locked then setRegFld (flagErr pgLgr0 8 off tid true s) pgLgr0 stat 24 4 9 else s
    access tid pgLgr0 off data (fun s => entryWrite (t) tid pgLgr0 off (fun s =>
      let new := data &&& 0x01FF1FF3
      let old := lp s t Off.LP_CTRL
      if bit old 0 then
        showParts t (if bit new 0 then setReg s pgLgr0 off new else updPart t (fun p => { p with scan := none }) (setReg s pgLgr0 off new))
      else if bit new 0 then
        let r := lpResult s t new
        let s1 := setRegFld s pgLgr0 stat 24 4 r
        if r ≠ 0 then refuse pgLgr0 8 off tid s1 else showParts t (setReg s1 pgLgr0 off new)
      else showParts t (setReg s pgLgr0 off new)) s) s0

/-- LOGIC_PARTITION_ENABLE. -/
def execLogicPartitionEnable (tid tenant : Nat) (data : Word) (s : State) : Host.Outcome State Fault Refusal :=
  .next (lpCtrlWrite tid tenant data s)

/-- A write of LP_ELEM, LP_TMR, LP_EDG, LP_OUT or LP_GPIO: refused while EN = 1; a written range forgets the program (NOPROG). -/
def lpFieldWrite (tid off : Nat) (data : Word) (s : State) : State :=
  access tid pgLgr0 off data (fun s => entryWrite ((off - 0x100) / 0x40) tid pgLgr0 off (fun s =>
    let t := (off - 0x100) / 0x40
    if lpEn s t then refuse pgLgr0 9 off tid s
    else
      let s1 := plainWrite pgLgr0 off data s
      let s2 := if off % 0x40 = 0x14 then s1 else setRegFld s1 pgLgr0 (Off.LP_STAT + 0x40 * t) 20 1 0
      showParts t s2) s) s

/-- IDLE_CLR. -/
def idleClear (tid : Nat) (s : State) : State :=
  ctrlCommand tid pgLgr0 4 (fun s =>
    (List.range 16).foldl (fun s t => setReg s pgLgr0 (Off.IDLE_MIN + 0x40 * t) 0xFFFFFFFF) s) s

/-- IDLE_CLR. -/
def execIdleClr (tid : Nat) (s : State) : Host.Outcome State Fault Refusal := .next (idleClear tid s)

/-! ### Loads (R280-R282) -/

/-- A logic image as read: header fields, elements and presets. -/
structure LImage where
  magic : Bool
  tid : Nat
  elems : Nat
  timers : Nat
  edges : Nat
  rate : Nat
  keyId : Nat
  total : Nat
  deriving DecidableEq, Repr

/-- The header of an image (R280). -/
def logicHeader (b : List Byte) : LImage :=
  let n := fun o k => leNat ((b.drop o).take k)
  { magic := n 0 4 = 0x43474C57 && n 4 2 = 1, tid := n 6 1, elems := n 8 4, timers := n 12 4, edges := n 16 4, rate := n 20 4
    keyId := n 24 8, total := n 32 4 }

/-- The elements of a body. -/
def bodyElems (b : List Byte) (n : Nat) : List (BitVec 64) :=
  (List.range n).map (fun i => BitVec.ofNat 64 (leNat ((b.drop (0x40 + 8 * i)).take 8)))

/-- Operands that an operation reads. -/
def operandsOf (e : BitVec 64) : List Nat :=
  let three := eFn e % 2 = 1
  match eOp e with
  | 0x04 | 0x05 => [eA e, eB e] ++ (if three then [eC e] else [])
  | 0x06 | 0x07 | 0x08 | 0x09 => [eA e, eB e]
  | 0x0A => [eA e, eB e, eC e]
  | 0x10 | 0x11 | 0x12 | 0x14 | 0x15 | 0x18 | 0x20 => [eA e]
  | _ => []

def isTimerOp (e : BitVec 64) : Bool := eOp e = 0x10 || eOp e = 0x11 || eOp e = 0x12
def isEdgeOp (e : BitVec 64) : Bool := eOp e = 0x14 || eOp e = 0x15
def knownOp (e : BitVec 64) : Bool :=
  [0, 1, 2, 3, 4, 5, 6, 7, 8, 9, 0xA, 0x10, 0x11, 0x12, 0x14, 0x15, 0x18, 0x20].contains (eOp e) && !(eOp e = 9 && 6 ≤ eFn e % 8)

/-- The first element at which `bad` holds, given the elements before it. -/
def firstBadElem (bad : List (BitVec 64) → BitVec 64 → Bool) : List (BitVec 64) → List (BitVec 64) → Nat → Option Nat
  | _, [], _ => none
  | before, e :: rest, i => if bad before e then some i else firstBadElem bad (e :: before) rest (i + 1)

/-- The check of a program: the first failing code of R281 and its element. -/
def programBad (s : State) (t : Nat) (es : List (BitVec 64)) (timers edges : Nat) : Option (Nat × Nat) :=
  let place := fun e => 8 * (eB e % 4096) + eC e % 8
  let base := lpOutBase s t
  let limit := lpOutLimit s t
  let inLane := fun b => match laneOf s b with | some (_, l) => t = 0 || laneTid l = t | none => false
  let checks : List (Nat × (List (BitVec 64) → BitVec 64 → Bool)) :=
    [(0x09, fun _ e => !(knownOp e)),
     (0x0A, fun _ e => (operandsOf e).any (fun i => es.length ≤ i)),
     (0x0B, fun l e => isTimerOp e && (timers ≤ eC e || l.any (fun x => isTimerOp x && eC x = eC e))),
     (0x0C, fun l e => isEdgeOp e && (edges ≤ eC e || l.any (fun x => isEdgeOp x && eC x = eC e))),
     (0x0D, fun l e => eOp e = 0x20 && (eB e % 4096 < base || limit ≤ eB e % 4096 || l.any (fun x => eOp x = 0x20 && place x = place e))),
     (0x0E, fun _ e => eOp e = 0x01 && !(inLane (eA e % 4096))),
     (0x0F, fun _ e => gpinBad (lp s t Off.LP_GPIO) e)]
  (checks.filterMap (fun c => (firstBadElem c.2 [] es 0).map (fun i => (c.1, i)))).head?

/-- The address of the image. -/
def logicAddr (s : State) : Nat := (reg s pgLgr1 Off.LLD_ADDR_LO).toNat + regFld s pgLgr1 Off.LLD_ADDR_HI 0 16 * 2 ^ 32

/-- The checks of a LOAD for partition `t` in the order of R281: code and element, or the elements, the presets and the body's digest. -/
def logicCheck (s : State) (t : Nat) : Except (Nat × Nat) (List (BitVec 64) × List Nat × Nat) :=
  let a := logicAddr s
  let len := (reg s pgLgr1 Off.LLD_LEN).toNat
  match dmaRead s 0 a 64 with
  | none => .error (0x12, 0)
  | some h =>
    let x := logicHeader h
    let env := dmaRead s 0 (a + x.total) 3384
    if !x.magic || (match env with | some e => decide (leNat (e.take 4) ≠ 0x47495357) | none => false) then .error (0x01, 0)
    else if a % 64 ≠ 0 || len ≠ x.total + 3384 || x.total % 64 ≠ 0 || x.elems < 1 || 65536 < x.elems
        || x.total < 0x40 + 8 * x.elems + 4 * x.timers then .error (0x02, 0)
    else if x.rate ≠ rateHz s then .error (0x03, 0)
    else if !(t < numTids s.variant) || x.tid ≠ t then .error (0x04, 0)
    else
      match verifySlot s.vlt x.keyId 2 t, env, dmaRead s 0 a x.total with
      | none, _, _ => .error (0x05, 0)
      | some _, none, _ => .error (0x12, 0)
      | some _, _, none => .error (0x12, 0)
      | some k, some e, some b =>
        match checkEnvelope k.pub (sha512 b) e with
        | 1 => .error (0x06, 0)
        | 2 => .error (0x07, 0)
        | _ =>
          let es := bodyElems b x.elems
          if lpElems s t < x.elems || lpTimers s t < x.timers || lpEdges s t < x.edges then .error (0x08, 0)
          else
            match programBad s t es x.timers x.edges with
            | some (c, i) => .error (c, i)
            | none =>
              let md := mode s
              if !(if lpEn s t then md = mMaintain && !gateIsOpen s else md = mConfigure || md = mMaintain) then .error (0x10, 0)
              else if s.lgr.load.isSome then .error (0x11, 0)
              else if regBit s pgLgr0 Off.LOCK 0 then .error (0x13, 0)
              else .ok (es, (List.range x.timers).map (fun i => leNat ((b.drop (0x40 + 8 * x.elems + 4 * i)).take 3)), Config.sha3_512 b)

/-- LOAD (R281): the checks, and the write phase of one element in each fabric cycle. -/
def logicLoad (tid : Nat) (data : Word) (s : State) : State :=
  access tid pgLgr1 Off.LLD_CMD data (fun s => entryWrite (fld data 8 4) tid pgLgr1 Off.LLD_CMD (fun s =>
    let s0 := setReg s pgLgr1 Off.LLD_CMD (data &&& 0xF00)
    if !(bit data 0) then s0
    else
      let t := fld data 8 4
      match logicCheck s0 t with
      | .error (c, i) =>
        let s1 := setRegFld (setRegFld s0 pgLgr1 Off.LLD_STAT 0 8 c) pgLgr1 Off.LLD_STAT 16 16 i
        setIrq pgLgr0 2 (if t < numTids s.variant then lgrEvt t 2 s1 else s1)
      | .ok (es, ps, d) =>
        let s1 := setReg s0 pgLgr1 Off.LLD_STAT 0x100
        { s1 with lgr := { s1.lgr with load := some ⟨t, es ++ List.replicate (lpElems s1 t - es.length) 0, ps, s1.now / 2 + lpElems s1 t, d⟩ } }) s) s

/-- LOGIC_LOAD. -/
def execLogicLoad (tid : Nat) (data : Word) (s : State) : Host.Outcome State Fault Refusal := .next (logicLoad tid data s)

/-- LOGIC_LOAD_DONE: the write phase is over, and the image is measured (spec/16_vault_and_boot.md R398). -/
def logicLoadDone (tm : Nat) (s : State) : State :=
  let s0 := advance s tm
  match s0.lgr.load with
  | some l =>
    if l.doneAt ≤ tm / 2 then
      let tms := (List.range l.presets.length).foldl (fun t i => tset t i { LTimer.init with pt := l.presets.getD i 0 }) []
      let s1 := updPart l.tid (fun p => { resetPart p with elems := l.elems, timers := tms }) { s0 with lgr := { s0.lgr with load := none } }
      let s2 := setReg s1 pgLgr1 Off.LLD_STAT 0
      let s3 := setRegFld s2 pgLgr0 (Off.LP_STAT + 0x40 * l.tid) 20 1 1
      setIrq pgLgr0 2 (lgrEvt l.tid 1 (extendMeas 5 (beBytes 64 l.digest) s3))
    else s0
  | none => s0

/-- LOGIC_LOAD_DONE. -/
def execLogicLoadDone (tm : Nat) (s : State) : Host.Outcome State Fault Refusal := .next (logicLoadDone tm s)

/-! ### On-line changes and forces (R277-R279) -/

/-- The result of an APPLY. -/
def onlResult (s : State) (t : Nat) (timer : Bool) (i : Nat) (v : Word) : Nat :=
  if regBit s pgLgr0 Off.LOCK 0 then 5
  else if !(t < numTids s.variant) || (if timer then lpTimers s t ≤ i else (partOf s t).elems.length ≤ i) then 2
  else if !timer && eOp ((partOf s t).elems.getD i 0) ≠ 0x03 then 1
  else if timer && 2 ^ 24 ≤ v.toNat then 4
  else if 64 ≤ (s.lgr.changes.filter (fun c => !(c.tid = t && c.timer = timer && c.index = i))).length then 3
  else 0

/-- APPLY. -/
def applyOnline (tid : Nat) (s : State) : State :=
  access tid pgLgr1 Off.ONL_CMD 1 (fun s => entryWrite (regFld s pgLgr1 Off.ONL_SEL 0 4) tid pgLgr1 Off.ONL_CMD (fun s =>
    let sel := reg s pgLgr1 Off.ONL_SEL
    let t := fld sel 0 4
    let timer := bit sel 4
    let i := fld sel 16 16
    let v := reg s pgLgr1 Off.ONL_VALUE
    let r := onlResult s t timer i v
    let s1 := setRegFld s pgLgr1 Off.ONL_STAT 0 4 r
    if r ≠ 0 then s1
    else
      let rest := s1.lgr.changes.filter (fun c => !(c.tid = t && c.timer = timer && c.index = i))
      showLogic { s1 with lgr := { s1.lgr with changes := rest ++ [⟨t, timer, i, v, reg s pgLgr1 Off.ONL_AT⟩] } }) s) s

/-- APPLY. -/
def execApplyChange (tid : Nat) (s : State) : Host.Outcome State Fault Refusal := .next (applyOnline tid s)

/-- SET of the force entry in FRC_SEL. -/
def forceSet (tid : Nat) (s : State) : State :=
  access tid pgLgr1 Off.FRC_CMD 1 (fun s => entryWrite (regFld s pgLgr1 Off.FRC_TGT 0 4) tid pgLgr1 Off.FRC_CMD (fun s =>
    let k := regFld s pgLgr1 Off.FRC_SEL 0 6
    let t := regFld s pgLgr1 Off.FRC_TGT 0 4
    let e := regFld s pgLgr1 Off.FRC_TGT 16 16
    let r :=
      if regBit s pgLgr0 Off.LOCK 0 then 4
      else if !(t < numTids s.variant) || (partOf s t).elems.length ≤ e then 2
      else if s.lgr.forces.any (fun f => f.1 ≠ k && f.2.tid = t && f.2.elem = e) then 1
      else 0
    let s1 := setRegFld s pgLgr1 Off.FRC_STAT 0 4 r
    if r ≠ 0 then s1
    else
      let old := (s1.lgr.forces.find? (fun f => f.1 = k)).map (·.2)
      let cur := match old with | some f => if f.tid = t && f.elem = e then f.cur else none | none => none
      showLogic { s1 with lgr := { s1.lgr with
        forces := tset s1.lgr.forces k ⟨t, e, cur, some (reg s pgLgr1 Off.FRC_VAL, reg s pgLgr1 Off.FRC_AT), none⟩ } }) s) s

/-- FORCE_SET. -/
def execForceSet (tid : Nat) (s : State) : Host.Outcome State Fault Refusal := .next (forceSet tid s)

/-- RELEASE of the force entry in FRC_SEL. -/
def forceRelease (tid : Nat) (s : State) : State :=
  access tid pgLgr1 Off.FRC_CMD 2 (fun s => entryWrite (regFld s pgLgr1 Off.FRC_TGT 0 4) tid pgLgr1 Off.FRC_CMD (fun s =>
    let k := regFld s pgLgr1 Off.FRC_SEL 0 6
    let held := (s.lgr.forces.find? (fun f => f.1 = k)).map (·.2)
    match (if regBit s pgLgr0 Off.LOCK 0 then none else held) with
    | none => setRegFld s pgLgr1 Off.FRC_STAT 0 4 (if regBit s pgLgr0 Off.LOCK 0 then 4 else 3)
    | some f =>
      let s1 := setRegFld s pgLgr1 Off.FRC_STAT 0 4 0
      { s1 with lgr := { s1.lgr with forces := tset s1.lgr.forces k { f with release := some (reg s pgLgr1 Off.FRC_AT) } } }) s) s

/-- FORCE_RELEASE. -/
def execForceRelease (tid : Nat) (s : State) : Host.Outcome State Fault Refusal := .next (forceRelease tid s)

/-- ELEMENT_SNAPSHOT (R285). -/
def elementSnapshot (tid : Nat) (s : State) : State := selectMailbox tid pgLgr1 (selWord 1 0) true s

/-- ELEMENT_SNAPSHOT. -/
def execElementSnapshot (tid : Nat) (s : State) : Host.Outcome State Fault Refusal := .next (elementSnapshot tid s)

end Sys2Proof.Machine
end

