-- ==== Sys2Proof/Machine/ModeOps.lean ====
section
/-!
DEFINITION. The change of mode (spec/17_modes_clocks_power.md R422, R424, R436).
-/
namespace Sys2Proof.Machine

/-- The mode controller changed. -/
def updMod (f : Modes → Modes) (s : State) : State := { s with mod := f s.mod }

/-- MODE_RESULT and CMD_DONE: a mode command completed or was refused. -/
def modeDone (code : Nat) (s : State) : State := setIrq pgMode 2 (setReg s pgMode Off.MODE_RESULT (word code))

/-- A pending TEST or TEST_END withdrawn with ABORTED (R424, R460). -/
def dropModePend (s : State) : State :=
  if s.mod.pend.isSome then
    modeDone 5 (setRegFld (updMod (fun m => { m with pend := none }) s) pgMode Off.MODE_STAT 8 3 0)
  else s

/-- Tenant `t` moves to state `st`: STATE_CHG in its events and in those of the TEN shared page, and FAULTED there (spec/12_tenants.md
R289, R311, R312). FCAUSE stays with FAULTED and RESTORED with FROZEN. -/
def changeState (t : Nat) (st : TenState) (s : State) : State :=
  let s1 := updTen t (fun x => { x with
    state := st
    fcause := if st = .faulted then x.fcause else 0
    restored := if st = .frozen then x.restored else false }) s
  setIrq pgTens (if st = .faulted then 5 else 1) (setTenEvt (pgTen t) Off.TEVT t 7 1 s1)

/-- The device enters mode `m`: MODE_STAT, MODE_CHG, the end of a pending mode command, and RUNNING of TID 0 from CONFIGURE on
(spec/12_tenants.md R289). -/
def setMode (m : Nat) (s : State) : State :=
  if mode s = m then s
  else
    let s1 := dropModePend s
    let s2 := setReg s1 pgMode Off.MODE_STAT (word (m + mode s * 16))
    setIrq pgMode 1 (if m = mConfigure && (tenOf s2 0).state ≠ .running then changeState 0 .running s2 else s2)

end Sys2Proof.Machine
end

