-- ==== Sys2Proof/Machine/PtpMessages.lean ====
section
/-!
DEFINITION. The timed messages of PTP and the PTP rings (spec/15_time_unit.md R374-R377, R389).
-/
namespace Sys2Proof.Machine

/-! ### Sync and Follow_Up (R377) -/

/-- The portIdentity in PARENT of time base `d`. -/
def parentId (s : State) (d : Nat) : Nat :=
  ((tbReg s d Off.PARENT_MID).toNat * 2 ^ 32 + (tbReg s d Off.PARENT_LO).toNat) * 65536 + fld (tbReg s d Off.PARENT_HI) 0 16

/-- Whether a message of a Sync on port `p` is one of time base `d`'s reference. -/
def ofReference (s : State) (p d : Nat) (m : PtpMsg) : Bool :=
  (tbOf s d).state ≠ .stopped && fld (tbReg s d Off.TB_CFG) 0 3 = 1 && fld (tbReg s d Off.TB_CFG) 12 2 = p
    && tbDomain s d = m.domain && parentId s d = m.source

/-- The measurement of a Sync: t1 and the corrections in 2^−16 ns. -/
def syncMeasure (p d : Nat) (t2 t1 c : Int) (s : State) : State :=
  if (ptpOf s p).valid then measureOwn d (t2 - t1 - c - (ptpOf s p).meanDelay) (refNs s d) s else s

/-- A timed message of type `ty` that port `p` has handed over, for `use`: message, PCS instant, correction of the stamp. -/
def timedMessage (p ty : Nat) (frame : List Byte) (tm : Nat) (use : PtpMsg → Nat → Int → State → State) (s : State) : State :=
  let s0 := advance s tm
  let h := takeHandedRaw p frame tm s0
  let (da, _, _, et, body) := etherHeader frame
  match parsePtp body with
  | some m =>
    if p < numPorts s.variant && p < 4 && et = 0x88F7 && ppEn s0 p && ptpAddress s0 p da && m.type = ty then
      use m h.1.1 h.1.2.1 h.2
    else h.2
  | none => h.2

/-- SYNC_RECEIVED: a one-step Sync measures every time base that it refers to; a two-step Sync waits for its Follow_Up. -/
def syncReceived (p : Nat) (frame : List Byte) (tm : Nat) (s : State) : State :=
  timedMessage p 0 frame tm (fun m stamp corr s =>
    (List.range 5).foldl (fun s d =>
      if ofReference s p d m then
        let t2 : Int := stampIn s d (25 * stamp) (-corr)
        if m.twoStep then updTb d (fun b => { b with pendSync := some ⟨m.seq, t2, m.corr, tm⟩ }) s
        else syncMeasure p d t2 m.time m.corr (updTb d (fun b => { b with pendSync := none }) s)
      else s) s) s

/-- SYNC_RECEIVED. -/
def execSyncReceived (port : Nat) (frame : List Byte) (tm : Nat) (s : State) : Host.Outcome State Fault Refusal :=
  .next (syncReceived port frame tm s)

/-- FOLLOW_UP_RECEIVED: it completes the Sync of its sequenceId within 2^LOG_SYNC s. -/
def followUpReceived (p : Nat) (frame : List Byte) (tm : Nat) (s : State) : State :=
  timedMessage p 8 frame tm (fun m _ _ s =>
    (List.range 5).foldl (fun s d =>
      match (tbOf s d).pendSync with
      | some w =>
        if ofReference s p d m && w.seq = m.seq && tm ≤ w.tm + pow2Of 1200000000 (logSync s p) then
          syncMeasure p d w.t2 m.time (w.corr + m.corr) (updTb d (fun b => { b with pendSync := none }) s)
        else s
      | none => s) s) s

/-- FOLLOW_UP_RECEIVED. -/
def execFollowUpReceived (port : Nat) (frame : List Byte) (tm : Nat) (s : State) : Host.Outcome State Fault Refusal :=
  .next (followUpReceived port frame tm s)

/-! ### Peer delay (R375) -/

/-- PDELAY_REQ_RECEIVED: the answer enters queue 7 at once. -/
def pdelayReqReceived (p : Nat) (frame : List Byte) (tm : Nat) (s : State) : State :=
  timedMessage p 2 frame tm (fun m stamp corr s =>
    if m.domain = pdDomain s p || (List.range 5).any (fun d => (tbOf s d).state ≠ .stopped && tbDomain s d = m.domain) then
      enqueue p (responseFrame s p m.seq (beBytes 10 m.source) m.domain (localStamp (25 * stamp) (-corr)) m.corr (ppOneStep s p) 0) s
    else s) s

/-- PDELAY_REQ_RECEIVED. -/
def execPdelayReqReceived (port : Nat) (frame : List Byte) (tm : Nat) (s : State) : Host.Outcome State Fault Refusal :=
  .next (pdelayReqReceived port frame tm s)

/-- A complete exchange with t4, the neighbour's turnaround t3 − t2, and its t3 where the exchange gives it. -/
def exchange (p : Nat) (t4 turn : Int) (t3 : Option Int) (s : State) : State :=
  let x := ptpOf s p
  let nrr := match t3, x.last with
    | some a, some (a0, b0) => if t4 = b0 then x.nrr else ((a - a0) - (t4 - b0)) * 2 ^ 32 / (t4 - b0)
    | _, _ => x.nrr
  let d := ((t4 - x.t1) * (2 ^ 32 + nrr) / 2 ^ 32 - turn) / 2
  let mean := if x.exchanges = 0 then d else x.meanDelay + (d - x.meanDelay) / 8
  updPtp p (fun x => { x with
    waiting := false, resp := none, missed := 0, nrr := nrr, meanDelay := mean, exchanges := x.exchanges + 1, good := x.good + 1
    valid := x.valid || decide (2 ≤ x.good + 1), last := match t3 with | some a => some (a, t4) | none => x.last }) s

/-- Whether a response answers the latest Pdelay_Req of port `p`. -/
def answers (s : State) (p : Nat) (m : PtpMsg) : Bool :=
  (ptpOf s p).waiting && m.domain = pdDomain s p && m.seq = (ptpOf s p).seq && m.identity = beNat (portIdentity s p)

/-- PDELAY_RESP_RECEIVED: a one-step response is a complete exchange; a two-step one waits for its Follow_Up. -/
def pdelayRespReceived (p : Nat) (frame : List Byte) (tm : Nat) (s : State) : State :=
  timedMessage p 3 frame tm (fun m stamp corr s =>
    let t4 := localStamp (25 * stamp) (-corr)
    if !answers s p m then s
    else if m.twoStep then updPtp p (fun x => { x with resp := some (t4, m.time, m.corr) }) s
    else exchange p t4 m.corr none s) s

/-- PDELAY_RESP_RECEIVED. -/
def execPdelayRespReceived (port : Nat) (frame : List Byte) (tm : Nat) (s : State) : Host.Outcome State Fault Refusal :=
  .next (pdelayRespReceived port frame tm s)

/-- PDELAY_RESP_FOLLOW_UP_RECEIVED. -/
def pdelayRespFollowUpReceived (p : Nat) (frame : List Byte) (tm : Nat) (s : State) : State :=
  timedMessage p 10 frame tm (fun m _ _ s =>
    match (ptpOf s p).resp with
    | some (t4, t2, c) => if answers s p m then exchange p t4 (m.time - t2 + c + m.corr) (some m.time) s else s
    | none => s) s

/-- PDELAY_RESP_FOLLOW_UP_RECEIVED. -/
def execPdelayRespFollowUpReceived (port : Nat) (frame : List Byte) (tm : Nat) (s : State) : Host.Outcome State Fault Refusal :=
  .next (pdelayRespFollowUpReceived port frame tm s)

/-- PDELAY_REQ_SEND (R375): every 2^LOG_PDELAY s; the exchange before it is judged, and the third miss in a row clears PD_VALID. -/
def pdelayReqSend (p tm : Nat) (s : State) : State :=
  let s0 := advance s tm
  let x := ptpOf s0 p
  let due := match x.reqAt with | some a => decide (a + pow2Of 1200000000 (logPdelay s0 p) ≤ tm) | none => true
  if p < numPorts s.variant && p < 4 && ppEn s0 p && due then
    let missed := if x.waiting then x.missed + 1 else x.missed
    let s1 := if x.waiting && missed = 3 then countPtp p Off.PD_FAIL (updPtp p (fun x => { x with valid := false, good := 0 }) s0) else s0
    let seq := (x.seq + 1) % 65536
    enqueue p (requestFrame s1 p seq)
      (updPtp p (fun x => { x with seq := seq, reqAt := some tm, waiting := true, resp := none, missed := missed }) s1)
  else s0

/-- PDELAY_REQ_SEND. -/
def execPdelayReqSend (port tm : Nat) (s : State) : Host.Outcome State Fault Refusal := .next (pdelayReqSend port tm s)

/-! ### Sync (R376) -/

/-- Whether port `p` sends Sync for time base `d`. -/
def sendsSync (s : State) (p d : Nat) : Bool :=
  ppEn s p && regBit s pgTime2 (Off.PP_CFG + 0x40 * p) (4 + d) && (tbOf s d).state ≠ .stopped
    && (synced s d || bit (tbReg s d Off.TB_CFG) 3)
    && !(fld (tbReg s d Off.TB_CFG) 0 3 = 1 && fld (tbReg s d Off.TB_CFG) 12 2 = p)

/-- SYNC_SEND (R376): at the fabric cycle in which TBd reaches a whole multiple of 2^LOG_SYNC s. -/
def syncSend (p d tm : Nat) (s : State) : State :=
  let s0 := advance s tm
  let i := pow2Of (10 ^ 9) (logSync s0 p)
  if p < numPorts s.variant && p < 4 && d < 5 && sendsSync s0 p d && tbNs s0 d tm / i ≠ tbNs s0 d (tm - 2) / i then
    let seq := tget 0 (ptpOf s0 p).syncSeq d
    enqueue p (syncFrame s0 p d seq (ppOneStep s0 p) (tbSub s0 d tm))
      (updPtp p (fun x => { x with syncSeq := tset x.syncSeq d ((seq + 1) % 65536) }) s0)
  else s0

/-- SYNC_SEND. -/
def execSyncSend (port tb tm : Nat) (s : State) : Host.Outcome State Fault Refusal := .next (syncSend port tb tm s)

/-! ### The PTP rings (R374, R389) -/

/-- A descriptor of the PTP transmit ring: completed at its first failure, or its message queued in queue 7 of the port in byte 0x0B. -/
def takePtpDesc (d : Nat) (s : State) : State :=
  let fail := fun st s => completeTx ptpTxRing 0 16 d st 0 s
  match dmaRead s 0 (ringDesc s ptpTxRing d) 16 with
  | none => fail 6 s
  | some w =>
    let len := leNat ((w.drop 8).take 2)
    let op := leNat ((w.drop 10).take 1)
    let p := leNat ((w.drop 11).take 1)
    if !(p < numPorts s.variant && p < 4) then fail 7 s
    else if len < 1 || maxLen s p - 4 < len + (if op / 16 % 2 = 1 then 4 else 0) then fail 2 s
    else
      match dmaRead s 0 (leNat (w.take 6)) len with
      | none => fail 6 s
      | some f =>
        let (_, tag, _, ty, body) := etherHeader f
        if ty = 0x88F7 && beNat (body.take 1) % 16 < 4 then fail 4 s
        else if op / 16 % 2 = 1 && tag.isSome then fail 5 s
        else enqueue p ⟨7, taggedFrame f (op / 16 % 2 = 1) (leNat ((w.drop 12).take 2)) false 0, .ptpRing d (op / 32 % 2 = 1)⟩ s

/-- PTP_TAIL: the two tails of TAILS. A tail that the write does not change is not judged; a write refused for one tail changes neither
(assumption 27). -/
def ptpTail (tid : Nat) (data : Word) (s : State) : State :=
  access tid pgTime2 Off.PTP_TAILS data (fun s =>
    let rx := fld data 0 12
    let tx := fld data 16 12
    let jr := if rx = ringTail s ptpRxRing then 0 else tailResult s ptpRxRing rx
    let jt := if tx = ringTail s ptpTxRing then 0 else tailResult s ptpTxRing tx
    if jr = 1 || jt = 1 then refuse pgTime2 9 Off.PTP_TAILS tid s
    else if jr = 2 || jt = 2 then queueFull 0 (deny s)
    else
      let s1 := if rx = ringTail s ptpRxRing then s else tailWrite tid ptpRxRing 9 rx (fun _ s => s) s
      if tx = ringTail s1 ptpTxRing then s1 else tailWrite tid ptpTxRing 9 tx takePtpDesc s1) s

/-- PTP_TAIL. -/
def execPtpTail (tid : Nat) (data : Word) (s : State) : Host.Outcome State Fault Refusal := .next (ptpTail tid data s)

end Sys2Proof.Machine
end

