-- ==== Sys2Proof/Machine/Pair.lean ====
section
/-!
DEFINITION. The Pair block: its registers, the publish gate, digests and the messages that it sends (spec/13_redundant_pair.md
R313-R322, R325, R329-R331).
-/
namespace Sys2Proof.Machine

/-! ### Configuration and state (R313, R341) -/

def pairLease (s : State) : Nat := regFld s pgPair0 Off.PAIR_CFG 0 5
def skewMax (s : State) : Nat := regFld s pgPair0 Off.PAIR_CFG 8 7
def missLimit (s : State) : Nat := regFld s pgPair0 Off.PAIR_CFG 24 8

/-- UNIT: 0 for unit A, whose strap PAIR_PREF is high, 1 for unit B (R313). -/
def ownUnit (s : State) : Nat := if regBit s pgMode Off.STRAPS 0 then 0 else 1

/-- The modes in which the pair protocol runs (R340). -/
def pairMode (s : State) : Bool := mShadow ≤ mode s && mode s ≤ mMaintain

/-- CFG of R319: P, L, LEASE and the tick rate. -/
def ownCfg (s : State) : Nat :=
  s.car.pubPoint % 2 ^ 20 + lagOf s * 2 ^ 20 + pairLease s * 2 ^ 25 + (if rateHz s = 4800 then 2 ^ 30 else 0)

/-- CFG_DIFF: the peer's CFG word differs from the own one (R331). -/
def cfgDiff (s : State) : Bool := match s.pair.peerCfg with | some c => c ≠ ownCfg s | none => false

/-- FLAGS of R319. -/
def ownFlags (s : State) : Nat :=
  b2n (holdsTop s) + b2n (s.pair.role = .solo) * 2 + b2n s.pair.fit * 4 + b2n (!s.pair.stringDown) * 8 + b2n (mode s = mMaintain) * 16

def peerHasTop (s : State) : Bool := s.pair.peerFlags % 2 = 1
def peerLeased (s : State) : Bool := peerHasTop s && s.pair.peerFlags / 2 % 2 = 0
def peerFit (s : State) : Bool := s.pair.peerFlags / 4 % 2 = 1

/-- SKEW_OK (R321): θ has been measured and lies within SKEW_MAX, and the String link is up. -/
def skewOk (s : State) : Bool :=
  s.pair.skewKnown && !s.pair.stringDown && (reg s pgPair1 Off.SKEW).toInt.natAbs ≤ skewMax s * 1000

/-- A change, with SKEW raised where SKEW_OK falls to 0. -/
def watchSkew (f : State → State) (s : State) : State :=
  let s1 := f s
  if skewOk s && !skewOk s1 then setIrq pgPair0 0x100 s1 else s1

/-- A counter of PAIR page 1, by its place in R342. -/
def countPair (i : Nat) (s : State) : State := countReg s pgPair1 (Off.PAIR_CNT + 4 * i) 1

/-- FIT while CFG_DIFF = 1 or TB0 is not running (R331). -/
def judgeFit (s : State) : State := if cfgDiff s || (tbOf s 0).state = .stopped then clearFit s else s

/-! ### The publish gate (R322, R325) -/

/-- The gate closes in hardware: pulse outputs driven low, GOOSE frames discarded or cut, CAUSE and CLOSE_TICK recorded. -/
def closeGate (cause : Nat) (s : State) : State :=
  if gateIsOpen s then
    let s1 := gateDiscard (gatePulses s)
    let g := (reg s1 pgPair0 Off.GATE_STAT &&& ~~~0xF3) ||| word (cause * 16)
    setIrq pgPair0 2 (setReg (setReg s1 pgPair0 Off.GATE_STAT g) pgPair0 Off.CLOSE_TICK (word s1.tick.count))
  else s

/-- The gate opens: pulses due until now were gated; OPEN_TICK and GAP (R328) are recorded. -/
def openGate (s : State) : State :=
  if gateIsOpen s then s
  else
    let s1 := (List.range 8).foldl (fun s o => residueRun o (s.now / 2) s) s
    let gap := match s1.pair.peerTop with | some t => min (s1.tick.count - t - 1) 0xFFFF | none => 0
    let g := (reg s1 pgPair0 Off.GATE_STAT &&& ~~~0xFFFF03) ||| word (3 + gap * 256)
    setIrq pgPair0 1 (setReg (setReg s1 pgPair0 Off.GATE_STAT g) pgPair0 Off.OPEN_TICK (word s1.tick.count))

/-- The unit takes the Top (R326, R327, R335): in TEST it stays in TEST (R423). -/
def takeTop (role : PairRole) (expiry : Nat) (s : State) : State :=
  let s1 := updPair (fun p => { p with
    role := role, expiry := expiry, expiryPrev := expiry, copyAt := none, copyOut := false, copyEdges := 0, soloPend := false
    claimPend := false }) s
  openGate (if mode s1 = mTest then s1 else setMode mActive s1)

/-- The Top is lost: the gate closes with `cause` and the unit is FENCED (R324). -/
def loseTop (cause : Nat) (s : State) : State :=
  setMode mFenced (updPair (fun p => { p with role := .none }) (closeGate cause s))

/-! ### Digests (R329) -/

/-- CRC-64 of ECMA-182 over one further byte. -/
def crcByte (c : BitVec 64) (b : Byte) : BitVec 64 :=
  (List.range 8).foldl (fun c _ => if c.msb then (c <<< 1) ^^^ 0x42F0E1EBA9EA3693 else c <<< 1) (c ^^^ (b.setWidth 64 <<< 56))

/-- A lane put in its place by its first block. -/
def insertLane (l : Word × Word) : List (Word × Word) → List (Word × Word)
  | [] => [l]
  | m :: r => if laneBase l < laneBase m then l :: m :: r else m :: insertLane l r

/-- The bytes that DIG(t) covers: the blocks of t's lanes in the front buffer, then stNum and sqNum of its publications, each as a
little-endian word (assumption 32). -/
def digestInput (s : State) (t : Nat) : List Byte :=
  let lanes := ((s.car.lanes.map (·.2)).filter (fun l => laneTid l = t)).foldl (fun a l => insertLane l a) []
  (lanes.flatMap (fun l => (List.range (laneLimit l - laneBase l)).flatMap (fun k => blockBytes (published s (laneBase l + k)))))
  ++ ((s.gse.pubs.filter (fun p => pubEn p.2 && pubTid p.2 = t)).flatMap (fun p => leBytes 4 p.2.stNum ++ leBytes 4 p.2.sqNum))

/-- DIG(t). -/
def digestOf (s : State) (t : Nat) : Nat := ((digestInput s t).foldl crcByte 0).toNat

/-- The GOOSE change map of the flip (R319). -/
def changeMap (s : State) : List Byte :=
  (List.range 128).map (fun b => BitVec.ofNat 8
    ((List.range 8).foldl (fun a i => a + (if s.gse.changed.contains (8 * b + i) then 2 ^ i else 0)) 0))

/-- The substitution map of the frame sealed in this tick; a tick that sealed none has an empty one. -/
def sealedMap (s : State) : List Byte :=
  let f := latestFrame s.hop
  if f.tick.isSome && f.sealTick % 2 ^ 32 = s.tick.count % 2 ^ 32 then mapBlock f else List.replicate 64 0

/-- The digests of the flip of this tick. -/
def ownDigest (s : State) : DigRec :=
  { tick := s.tick.count
    run := (idxWhere 16 (fun t => t < numTids s.variant && tenRunning s t)).foldl (fun a t => a + 2 ^ t) 0
    gpio := s.lgr.gpio
    dig := (List.range 16).map (digestOf s)
    subst := sealedMap s
    change := changeMap s }

/-! ### Messages sent (R314, R317-R319) -/

def twoBytes (n : Nat) : List Byte := leBytes 2 n

/-- COORD of R319: the pending reshape and each tenant's pending START, FREEZE or THAW with its AT. -/
def ownCoord (s : State) : Coord :=
  { pend := s.str.reshape.isSome
    alt := (s.str.reshape.map (·.alt)).getD 0
    tick := (s.str.reshape.map (·.target)).getD 0
    cmds := (List.range 16).map (fun t => match (tenOf s t).pend with | some c => (c.kind, c.target) | none => (0, 0)) }

/-- The 96 bytes of COORD. -/
def coordBytes (c : Coord) : List Byte :=
  leBytes 1 (b2n c.pend) ++ leBytes 1 c.alt ++ leBytes 2 0 ++ leBytes 4 c.tick
  ++ c.cmds.flatMap (fun x => leBytes 1 x.1 ++ leBytes 4 x.2) ++ List.replicate 8 0

/-- The payload of a DIGEST. -/
def digestPayload (s : State) (d : DigRec) : List Byte :=
  leBytes 2 d.run ++ leBytes 2 (ownFlags s) ++ leBytes 4 d.gpio.toNat ++ leBytes 8 (tget 0 s.pair.txStamp (d.tick - 1))
  ++ leBytes 8 (tget 0 s.pair.rxStamp (d.tick - 1)) ++ leBytes 4 0 ++ leBytes 4 (ownCfg s) ++ d.dig.flatMap (leBytes 8)
  ++ d.subst ++ d.change ++ coordBytes (ownCoord s)

/-- The payload of a HEARTBEAT. -/
def heartbeatPayload (s : State) (d : DigRec) : List Byte :=
  leBytes 2 d.run ++ leBytes 2 (ownFlags s) ++ leBytes 4 (ownCfg s) ++ coordBytes (ownCoord s)

/-- The payload of a HELLO. -/
def helloPayload (s : State) : List Byte :=
  s.pair.nonce ++ leBytes 4 (ownCfg s) ++ leBytes 2 (ownFlags s) ++ leBytes 2 0 ++ (beBytes 64 s.str.digest).take 8

/-- The payload of a GRANT, RELEASE or ABORT: the tick concerned. -/
def tickPayload (n : Nat) : List Byte := leBytes 8 n ++ leBytes 8 0

/-- The tag of a message under a key (R317). -/
def pairTag (ks : Nat) (b : List Byte) : List Byte := beBytes 16 (Config.kmac256 ks b 128 "WLN-PAIR")

/-- A message of R317 after the EtherType. -/
def pairMessage (s : State) (type : Nat) (payload : List Byte) : List Byte :=
  let b := [1, BitVec.ofNat 8 type, BitVec.ofNat 8 (ownUnit s), BitVec.ofNat 8 (mode s)] ++ leBytes 2 payload.length
    ++ leBytes 2 (tget 0 s.pair.seq type) ++ leBytes 8 (nowTick s) ++ payload
  b ++ (if type < 3 then List.replicate 16 0 else pairTag (keyOf s.vlt 8) b)

/-- PEER_MAC. -/
def peerMac (s : State) : Nat := (reg s pgPair0 Off.PEER_MAC_LO).toNat + regFld s pgPair0 Off.PEER_MAC_HI 0 16 * 2 ^ 32

/-- The frame of a message on port `p`: a backup port sends it with an 802.1Q tag where BK_CFG says so (R314). -/
def pairFrame (s : State) (p : Nat) (m : List Byte) : TxFrame :=
  let bk := reg s pgPair0 Off.BK_CFG
  let tag := if p < 4 && bit bk 19 then beBytes 2 0x8100 ++ beBytes 2 (fld bk 16 3 * 2 ^ 13 + fld bk 4 12) else []
  { queue := 7, src := .pair, bytes := beBytes 6 (peerMac s) ++ beBytes 6 (portAddr s p) ++ tag ++ beBytes 2 0x88B5 ++ m }

/-- A message sent on port `p`, which is enabled. -/
def pairOn (p : Nat) (m : List Byte) (s : State) : State :=
  if regBit s (pgPort p) Off.CTRL 0 then enqueue p (pairFrame s p m) s else s

/-- A message of a type sent on the String link and on the backup ports of BK_CFG, or on one of the two paths. -/
def pairSend (type : Nat) (payload : List Byte) (string backup : Bool) (s : State) : State :=
  let m := pairMessage s type payload
  let s1 := updPair (fun p => { p with seq := tset p.seq type ((tget 0 p.seq type + 1) % 65536) }) s
  let s2 := if string then pairOn 4 m s1 else s1
  if backup then
    (List.range 4).foldl (fun s p => if p < numPorts s.variant && regBit s pgPair0 Off.BK_CFG p then pairOn p m s else s) s2
  else s2

/-- A new nonce for an admission: LINK shows HELLO, and what the peer sent is forgotten. Without entropy there is none (R413). -/
def newAdmission (s : State) : State :=
  let n := if s.vlt.entropyOk then (Config.random s.free 32 ++ List.replicate 32 0).take 32 else []
  updPair (fun p => { p with link := 1, nonce := n, hello := none, answered := none, firstHello := none })
    { s with free := s.free + b2n s.vlt.entropyOk }

/-- RESIGN (R327): sent on both paths while admitted; the unit grants and claims only after it has been admitted again. -/
def sendResign (cause : Nat) (s : State) : State :=
  let s1 := if s.pair.link = 2 then pairSend 0x30 (leBytes 1 cause ++ List.replicate 15 0) true true s else s
  if s1.pair.link = 0 then s1 else newAdmission (updPair (fun p => { p with resigned := true, claimPend := false }) s1)

/-- COPY_LEFT loaded as for a GRANT (R323). -/
def loadCopy (s : State) : State :=
  updPair (fun p => { p with
    copyAt := some (s.now + pairLease s * (if rateHz s = 4000 then 300480 else 250400)), copyOut := false, copyEdges := 0
    grantSent := true }) s

/-! ### HO_STAT (R334-R337) -/

/-- A handover that waits ends with a state and a result; an aborted drill reports it. -/
def endHo (state result : Nat) (s : State) : State :=
  setIrq pgPair0 0x40 (updPair (fun p => { p with
    ho := { p.ho with state := state, result := result, drill := if p.ho.kind = 2 && state = 5 then 5 else p.ho.drill } }) s)

/-- Whether a handover is pending: proposed or agreed. -/
def hoPending (s : State) : Bool := s.pair.ho.state = 1 || s.pair.ho.state = 2

/-- A handover agreed for KIND 2. -/
def drillAgreed (s : State) : Bool := s.pair.ho.state = 2 && s.pair.ho.kind = 2

/-- A handover completed; a drill reports `drill`. -/
def hoDone (drill : Nat) (s : State) : State :=
  let s1 := setIrq pgPair0 0x20 (updPair (fun p => { p with
    ho := { p.ho with state := 3, drill := if p.ho.kind = 2 then drill else p.ho.drill } }) s)
  if s1.pair.ho.kind = 2 then s1 else countPair 8 s1

/-- ABORT sent for the pending handover, which ends with 6 ABORTED. -/
def abortHo (s : State) : State := endHo 5 6 (pairSend 0x23 (tickPayload s.pair.ho.h) true true s)

/-- The result of R334 for a handover of KIND `kind` at `h`, 0 where it is agreed to. -/
def hoCheck (s : State) (kind h : Nat) : Nat :=
  let d : Int := (h : Int) - nowTick s
  if s.pair.link ≠ 2 || decide (s.pair.role = .leased) = peerLeased s then 1
  else if d < 4 || 1024 < d then 2
  else if hoPending s then 3
  else if kind ≠ 2 && !skewOk s then 4
  else if kind ≠ 2 && !(if holdsTop s then peerFit s else s.pair.fit) then 5
  else 0

/-- HO_STAT after a check: the new handover in `state`, or refused; BUSY leaves the pending one in place. -/
def setHo (kind h state result : Nat) (s : State) : State :=
  let s1 := updPair (fun p => { p with
    ho := if result = 3 then { p.ho with result := 3 }
          else { PairHo.init with state := if result = 0 then state else 4, kind := kind, result := result, h := h } }) s
  if result = 0 then s1 else setIrq pgPair0 0x40 s1

/-- A handover proposed by this unit (R334): checked, and HANDOVER sent. -/
def proposeHo (kind h : Nat) (s : State) : State :=
  let r := hoCheck s kind h
  let s1 := setHo kind h 1 r s
  if r = 0 then pairSend 0x20 (leBytes 1 kind ++ List.replicate 7 0 ++ leBytes 8 h) true true s1 else s1

/-- The report of a drill (R337) where the own timing was `ok`, else code `bad`. -/
def drillReport (s : State) (ok : Bool) (bad : Nat) : Nat :=
  if !ok then bad else if regBit s pgPair0 Off.GATE_STAT 0 != regBit s pgPair0 Off.GATE_STAT 1 then 3 else 1

/-- A claim (R326, R327): a solo Top, counted as a takeover. It ends a drill; any other pending handover is aborted
(assumption 33). -/
def claimTop (ok : Bool) (s : State) : State :=
  let s1 := countPair 7 (takeTop .solo 0 s)
  if drillAgreed s1 then hoDone (drillReport s1 ok 4) s1 else if hoPending s1 then endHo 5 6 s1 else s1

/-! ### The match of requests (R333) -/

/-- The Pair block reports a match for a reshape. -/
def rsMatch (s : State) (alt target : Nat) : Bool :=
  s.pair.role = .solo || s.pair.coordRs.contains (alt, target % 2 ^ 32)

/-- The Pair block reports a match for an AT command of tenant `t`. -/
def cmdMatch (s : State) (t kind target : Nat) : Bool :=
  s.pair.role = .solo || s.pair.coordCmd.contains (t, kind, target % 2 ^ 32)

end Sys2Proof.Machine
end

