-- ==== Sys2Proof/Machine/PairMessages.lean ====
section
/-!
DEFINITION. Messages of the peer: admission, DIGEST and HEARTBEAT with comparison and grants, GRANT, handovers and RESIGN
(spec/13_redundant_pair.md R315-R337). A message is the octets of its frame after the EtherType, without the FCS; `path` is the port
on which it arrives, 4 for the String link (assumption 32).
-/
namespace Sys2Proof.Machine

/-! ### Reception (R317, R320) -/

/-- A message read. -/
structure PairMsg where
  ver : Nat
  type : Nat
  unit : Nat
  mode : Nat
  tick : Nat
  payload : List Byte
  /-- header and payload, and the tag -/
  body : List Byte
  tag : List Byte
  /-- LEN agrees with the frame -/
  lenOk : Bool
  deriving DecidableEq, Repr

/-- Octets of a payload by TYPE (R319). -/
def payloadLen (type : Nat) : Nat :=
  match type with
  | 0x01 => 48
  | 0x02 => 96
  | 0x10 => 448
  | 0x11 => 104
  | _ => 16

/-- The fields of a message. -/
def parsePair (m : List Byte) : PairMsg :=
  let n := fun o k => leNat ((m.drop o).take k)
  let len := n 4 2
  { ver := n 0 1, type := n 1 1, unit := n 2 1, mode := n 3 1, tick := n 8 8, payload := (m.drop 16).take len, body := m.take (16 + len)
    tag := m.drop (16 + len), lenOk := m.length = 32 + len && len = payloadLen (n 1 1) }

/-- A field of a payload. -/
def payNat (x : PairMsg) (o k : Nat) : Nat := leNat ((x.payload.drop o).take k)

/-- What names a message for the drop of copies: TYPE with TICK, or with H for a handover message (R320). -/
def msgKey (x : PairMsg) : Nat × Nat :=
  (x.type, match x.type with | 0x20 => payNat x 8 8 | 0x21 => payNat x 8 8 | 0x22 => payNat x 0 8 | 0x23 => payNat x 0 8 | _ => x.tick)

/-- A dropped frame counted and recorded (R320). -/
def tagFail (s : State) : State := countPair 4 (hwErr pgPair0 11 s)

/-- A valid message on a path, which is up again (R314). -/
def pathValid (path : Nat) (s : State) : State :=
  let n := s.tick.count
  if path = 4 then
    let s1 := updPair (fun p => { p with lastString := n, stringDown := false }) s
    if s.pair.stringDown then setIrq pgPair0 0x10 s1 else s1
  else
    let s1 := updPair (fun p => { p with lastBackup := n, backupDown := false }) s
    if s.pair.backupDown then setIrq pgPair0 0x10 s1 else s1

/-- A copy of a message not accepted before: remembered, with the peer's mode. -/
def takeCopy (x : PairMsg) (body : State → State) (s : State) : State :=
  if s.pair.seen.contains (msgKey x) then s
  else body (updPair (fun p => { p with seen := p.seen ++ [msgKey x], peerMode := x.mode }) s)

/-- A message of an admitted peer, judged by R320. Without an admission there is no session to judge it by, and it has no effect. -/
def receivePair (type path : Nat) (msg : List Byte) (tm : Nat) (body : PairMsg → State → State) (s : State) : State :=
  let s0 := advance s tm
  let x := parsePair msg
  if s0.pair.link ≠ 2 || !pairMode s0 || x.type ≠ type then s0
  else if x.ver ≠ 1 || !x.lenOk || x.unit = ownUnit s0 || x.tag ≠ pairTag (keyOf s0.vlt 8) x.body then tagFail s0
  else
    let s1 := pathValid path s0
    if type = 0x12 && s1.tick.count < payNat x 0 8 then s1 else takeCopy x (body x) s1

/-! ### Admission (R313, R315) -/

/-- A failed check recorded in ADMIT_STAT: 2 CFG, 3 ROLE, 4 AUTH, 5 KEY, 6 TIMEOUT. -/
def admitFail (code : Nat) (s : State) : State := setIrq pgPair0 8 (setReg s pgPair0 Off.ADMIT_STAT (word code))

/-- R of R315: the response of the unit that sends it, from the nonce of its peer, its own and its letter. -/
def responseOf (kp : Nat) (peer own : List Byte) (unit : Nat) : List Byte :=
  beBytes 32 (Config.kmac256 kp (peer ++ own ++ leBytes 1 unit) 256 "WLN-PAIR-RESP")

/-- The unit is admitted: Ks in slot 8 (R413), a new session, and SHADOW where it was FENCED. FIT is set (assumption 33). -/
def admitPeer (peerNonce : List Byte) (cfg flags : Nat) (s : State) : State :=
  let own := s.pair.nonce
  let ab := if ownUnit s = 0 then own ++ peerNonce else peerNonce ++ own
  let ks := Config.kmac256 (keyOf s.vlt 7) ab 256 "WLN-PAIR-SES"
  let s1 := showVault (updSlot 8 (fun x => { KeySlot.init with kind := .derived, depth := 2, parent := 2, pgen := (slotOf s.vlt 2).gen, gen := x.gen + 1, key := ks }) s)
  let s2 := updPair (fun p => { p with
    link := 2, seen := [], hello := none, answered := none, firstHello := none, resigned := false, peerResigned := false, grantSent := false
    fit := true, peerFlags := flags, peerCfg := some cfg, coordRs := [], coordCmd := []
    role := if p.role = .leased || p.role = .solo then p.role else .standby }) s1
  let s3 := setIrq pgPair0 4 (setReg s2 pgPair0 Off.ADMIT_STAT 1)
  judgeFit (if mode s3 = mFenced then setMode mShadow s3 else s3)

/-- Admission once the peer's HELLO and a verified RESPONSE to it are there: the CFG words must be equal and the letters differ. -/
def tryAdmit (s : State) : State :=
  match s.pair.hello, s.pair.answered with
  | some (n, cfg, flags, unit), some a =>
    if a ≠ n then s
    else
      let s1 := updPair (fun p => { p with answered := none }) s
      if cfg ≠ ownCfg s then admitFail 2 s1
      else if unit = ownUnit s then admitFail 3 s1
      else admitPeer n cfg flags s1
  | _, _ => s

/-- A message of a unit that is not admitted, taken while this unit is not admitted either. -/
def receiveAdmission (type path : Nat) (msg : List Byte) (tm : Nat) (body : PairMsg → State → State) (s : State) : State :=
  let s0 := advance s tm
  let x := parsePair msg
  if s0.pair.link ≠ 1 || !pairMode s0 || x.type ≠ type then s0
  else if x.ver ≠ 1 || !x.lenOk then tagFail s0
  else takeCopy x (body x) (pathValid path s0)

/-- A peer's HELLO (R315): a RESPONSE answers a new nonce. -/
def helloTaken (x : PairMsg) (s : State) : State :=
  let n := x.payload.take 32
  let s1 := updPair (fun p => { p with
    hello := some (n, payNat x 32 4, payNat x 36 2, x.unit), firstHello := some (p.firstHello.getD s.tick.count) }) s
  let known := match s.pair.hello with | some h => decide (h.1 = n) | none => false
  let s2 :=
    if known then s1
    else if !slotPresent s1.vlt 7 then admitFail 5 s1
    else if s1.pair.nonce = [] then s1
    else pairSend 0x02 (s1.pair.nonce ++ n ++ responseOf (keyOf s1.vlt 7) n s1.pair.nonce (ownUnit s1)) true true s1
  tryAdmit s2

/-- HELLO. -/
def execHello (path : Nat) (msg : List Byte) (tm : Nat) (s : State) : Host.Outcome State Fault Refusal :=
  .next (receiveAdmission 0x01 path msg tm helloTaken s)

/-- A peer's RESPONSE (R315): verified against the own nonce, with Kp. -/
def responseTaken (x : PairMsg) (s : State) : State :=
  let own := x.payload.take 32
  let peer := (x.payload.drop 32).take 32
  if !slotPresent s.vlt 7 then admitFail 5 s
  else if peer ≠ s.pair.nonce || (x.payload.drop 64).take 32 ≠ responseOf (keyOf s.vlt 7) peer own x.unit then admitFail 4 s
  else tryAdmit (updPair (fun p => { p with answered := some own }) s)

/-- RESPONSE. -/
def execResponse (path : Nat) (msg : List Byte) (tm : Nat) (s : State) : Host.Outcome State Fault Refusal :=
  .next (receiveAdmission 0x02 path msg tm responseTaken s)

/-! ### Comparison (R330, R331) -/

/-- Whether bit `i` of a map of bytes is set. -/
def mapBit (m : List Byte) (i : Nat) : Bool := (m.getD (i / 8) 0).getLsbD (i % 8)

/-- Whether the two units' DIGESTs differ in an input of tenant `t`. -/
def inputsDiffer (s : State) (a b : DigRec) (t : Nat) : Bool :=
  s.hop.subs.any (fun e => subEn e.2 && (subTid e.2 = t || subTid e.2 = 0) &&
    (List.range (subSlots e.2)).any (fun i => mapBit a.subst (subSlot e.2 + i) != mapBit b.subst (subSlot e.2 + i)))
  || s.gse.subs.any (fun e => gsubEn e.2 && (gsubTid e.2 = t || gsubTid e.2 = 0) && mapBit a.change e.1 != mapBit b.change e.1)
  || (a.gpio ≠ b.gpio && lp s t Off.LP_GPIO ≠ 0)

/-- A mask of tenants. -/
def tenMask (f : Nat → Bool) : Nat := (idxWhere 16 f).foldl (fun a t => a + 2 ^ t) 0

/-- The tick of the two DIGESTs compared: own `a`, the peer's `b`. -/
def compareTick (a b : DigRec) (s : State) : State :=
  let both := fun t => decide (t < numTids s.variant) && a.run.testBit t && b.run.testBit t
  let s1 := updPair (fun p => { p with
    diffAt := (List.range 16).foldl (fun m t => if inputsDiffer s a b t then tset m t (a.tick + 1) else m) p.diffAt }) s
  let held := fun t =>
    let d := tget 0 s1.pair.diffAt t
    d ≠ 0 && a.tick < d + regFld s pgPair1 (Off.INCOMP_HOLD + 4 * t) 0 16
  let inc := tenMask (fun t => both t && held t)
  let cmp := tenMask (fun t => both t && !held t)
  let mis := tenMask (fun t => both t && !held t && a.dig.getD t 0 ≠ b.dig.getD t 0)
  let run := regFld s pgPair1 Off.MISS_RUN 0 8
  let run' := if cmp = 0 then run else if mis = 0 then 0 else min (run + 1) 255
  let s2 := setReg (setReg (setReg s1 pgPair1 Off.LAST_CMP (word a.tick)) pgPair1 Off.CMP_MASK (word (mis + inc * 65536)))
    pgPair1 Off.MISS_RUN (word run')
  let s3 := updPair (fun p => { p with cmp := ⟨a.tick, cmp, mis, inc, a.dig, b.dig, p.stringDown⟩, mismatched := p.mismatched || mis ≠ 0 }) s2
  let s4 := if inc ≠ 0 then setIrq pgPair1 4 (countPair 6 s3) else s3
  let s5 := if mis ≠ 0 then setIrq pgPair1 1 (countPair 5 s4) else s4
  if mis ≠ 0 && missLimit s5 ≠ 0 && missLimit s5 ≤ run' && mode s5 ≠ mMaintain then clearFit s5 else s5

/-- The last four entries of a list with one more. -/
def keepFour {α : Type} (x : α) (l : List α) : List α := l.drop (l.length - 3) ++ [x]

/-- The own DIGEST of a tick stands: it is compared with the peer's where that has arrived already. -/
def ownStands (d : DigRec) (s : State) : State :=
  match s.pair.peer.find? (fun x => x.tick = d.tick) with
  | some b => compareTick d b (updPair (fun p => { p with own := keepFour d p.own, peer := p.peer.erase b }) s)
  | none => updPair (fun p => { p with own := keepFour d p.own }) s

/-- A DIGEST of the peer stands. -/
def peerStands (d : DigRec) (s : State) : State :=
  match s.pair.own.find? (fun x => x.tick = d.tick) with
  | some a => compareTick a d s
  | none => updPair (fun p => { p with peer := keepFour d p.peer }) s

/-! ### DIGEST and HEARTBEAT (R319, R321, R323, R327, R333) -/

/-- GRANT(j) for a message of tick `j` with FLAGS `flags` (R323, R327, R337). -/
def grantFor (j flags : Nat) (s : State) : State :=
  let top := flags % 2 = 1
  let late := match s.pair.granted with | some g => decide (j ≤ g) | none => false
  if s.pair.role = .standby && s.pair.link = 2 && !s.pair.resigned && (mode s = mShadow || mode s = mMaintain || mode s = mTest)
      && s.pair.peerMode ≠ mFenced && (top || ownUnit s = 1) && !late && !(drillAgreed s && s.pair.ho.h ≤ j + 1) then
    countPair 2 (loadCopy (updPair (fun p => { p with granted := some j }) (pairSend 0x12 (tickPayload j) true true s)))
  else s

/-- COORD of a message joined to what the peer has reported; requests whose tick has passed are forgotten. -/
def takeCoord (x : PairMsg) (o : Nat) (s : State) : State :=
  let live := fun (t : Nat) => decide (-1 ≤ s32diff (word t) s.tick.count)
  let rs := s.pair.coordRs.filter (fun r => live r.2)
  let cs := s.pair.coordCmd.filter (fun c => live c.2.2)
  let rs' := if payNat x o 1 ≠ 0 then (payNat x (o + 1) 1, payNat x (o + 4) 4) :: rs else rs
  let cs' := ((List.range 16).filter (fun t => payNat x (o + 8 + 5 * t) 1 ≠ 0)).map (fun t => (t, payNat x (o + 8 + 5 * t) 1, payNat x (o + 9 + 5 * t) 4)) ++ cs
  updPair (fun p => { p with coordRs := rs'.eraseDups, coordCmd := cs'.eraseDups }) s

/-- RUN, FLAGS, CFG and COORD of a message (R319), FIT by CFG_DIFF, and the return to SHADOW on a TOP message (R337, R340). -/
def takeStatus (x : PairMsg) (cfgAt coordAt : Nat) (s : State) : State :=
  let flags := payNat x 2 2
  let s1 := takeCoord x coordAt (updPair (fun p => { p with
    peerFlags := flags, peerRun := payNat x 0 2, peerCfg := some (payNat x cfgAt 4)
    peerTop := if flags % 2 = 1 then some x.tick else p.peerTop }) s)
  let s2 := judgeFit s1
  if mode s2 = mFenced && flags % 2 = 1 && !holdsTop s2 then
    let s3 := setMode mShadow (updPair (fun p => { p with role := .standby }) s2)
    if drillAgreed s3 then
      hoDone (drillReport s3 (decide (reg s3 pgPair0 Off.CLOSE_TICK = word s3.pair.expiryPrev)) 2) s3
    else s3
  else s2

/-- θ and δ from the stamps of the two DIGESTs of the tick before (R321). -/
def takeSkew (x : PairMsg) (s : State) : State :=
  let j := x.tick - 1
  let txOwn := tget 0 s.pair.txStamp j
  let rxOwn := tget 0 s.pair.rxStamp j
  let txPeer := payNat x 8 8
  let rxPeer := payNat x 16 8
  if txOwn = 0 || rxOwn = 0 || txPeer = 0 || rxPeer = 0 then s
  else
    let d1 := (BitVec.ofNat 64 rxOwn - BitVec.ofNat 64 txPeer).toInt
    let d2 := (BitVec.ofNat 64 rxPeer - BitVec.ofNat 64 txOwn).toInt
    updPair (fun p => { p with skewKnown := true })
      (setReg (setReg s pgPair1 Off.SKEW (BitVec.ofInt 32 ((d2 - d1).tdiv 2))) pgPair1 Off.LINK_DELAY (BitVec.ofInt 32 ((d1 + d2).tdiv 2)))

/-- What a DIGEST holds that is compared. -/
def digestRec (x : PairMsg) : DigRec :=
  { tick := x.tick, run := payNat x 0 2, gpio := word (payNat x 4 4), dig := (List.range 16).map (fun t => payNat x (0x20 + 8 * t) 8)
    subst := (x.payload.drop 0xA0).take 64, change := (x.payload.drop 0xE0).take 128 }

/-- A DIGEST of the peer: on the String link it is stamped and compared. -/
def digestTaken (path : Nat) (x : PairMsg) (s : State) : State :=
  let s1 :=
    if path = 4 then
      let c := stampCorr 4 false s
      let st := stampIn c.2 0 (25 * s.now) c.1 / 65536
      let old := c.2.pair.rxStamp.drop (c.2.pair.rxStamp.length - 3)
      let s2 := countPair 1 (updPair (fun p => { p with rxStamp := tset old x.tick st, peerTick := x.tick }) c.2)
      watchSkew (takeSkew x) s2
    else s
  let s3 := takeStatus x 0x1C 0x160 s1
  let s4 := if path = 4 then peerStands (digestRec x) s3 else s3
  grantFor x.tick (payNat x 2 2) s4

/-- DIGEST. -/
def execDigest (path : Nat) (msg : List Byte) (tm : Nat) (s : State) : Host.Outcome State Fault Refusal :=
  .next (receivePair 0x10 path msg tm (digestTaken path) s)

/-- A HEARTBEAT of the peer. -/
def heartbeatTaken (x : PairMsg) (s : State) : State := grantFor x.tick (payNat x 2 2) (takeStatus x 4 8 s)

/-- HEARTBEAT. -/
def execHeartbeat (path : Nat) (msg : List Byte) (tm : Nat) (s : State) : Host.Outcome State Fault Refusal :=
  .next (receivePair 0x11 path msg tm heartbeatTaken s)

/-! ### GRANT (R324, R326, R327) -/

/-- GRANT(j): extends a lease, makes a solo Top leased, or gives unit A its start Top. -/
def grantTaken (x : PairMsg) (s : State) : State :=
  let e := payNat x 0 8 + pairLease s + 1
  if mode s = mFenced then s
  else
    let s1 := countPair 3 s
    match s1.pair.role with
    | .leased => updPair (fun p => { p with expiry := max p.expiry e }) s1
    | .solo => if s1.pair.peerResigned then s1 else updPair (fun p => { p with role := .leased, expiry := e, expiryPrev := e }) s1
    | _ => if ownUnit s1 = 0 && mode s1 = mShadow && !peerHasTop s1 then takeTop .leased e s1 else s1

/-- GRANT. -/
def execGrant (path : Nat) (msg : List Byte) (tm : Nat) (s : State) : Host.Outcome State Fault Refusal :=
  .next (receivePair 0x12 path msg tm grantTaken s)

/-! ### Handover messages (R334, R335) -/

/-- HANDOVER: checked and answered. -/
def handoverTaken (x : PairMsg) (s : State) : State :=
  let kind := payNat x 0 1
  let h := payNat x 8 8
  let r := hoCheck s kind h
  setHo kind h 2 r (pairSend 0x21 (leBytes 1 kind ++ leBytes 1 r ++ List.replicate 6 0 ++ leBytes 8 h) true true s)

/-- HANDOVER_MESSAGE. -/
def execHandoverMessage (path : Nat) (msg : List Byte) (tm : Nat) (s : State) : Host.Outcome State Fault Refusal :=
  .next (receivePair 0x20 path msg tm handoverTaken s)

/-- HANDOVER_ACK: the proposed handover is agreed or refused. -/
def ackTaken (x : PairMsg) (s : State) : State :=
  if s.pair.ho.state = 1 && payNat x 8 8 = s.pair.ho.h then
    if payNat x 1 1 = 0 then updPair (fun p => { p with ho := { p.ho with state := 2 } }) s else endHo 4 (payNat x 1 1 % 16) s
  else s

/-- HANDOVER_ACK. -/
def execHandoverAck (path : Nat) (msg : List Byte) (tm : Nat) (s : State) : Host.Outcome State Fault Refusal :=
  .next (receivePair 0x21 path msg tm ackTaken s)

/-- The standby takes the released Top (R335). -/
def takeReleased (s : State) : State := hoDone 0 (takeTop .leased (s.pair.ho.h + 2) s)

/-- RELEASE(H): the Top is taken at the later of the tick edge of H and this arrival. -/
def releaseTaken (x : PairMsg) (s : State) : State :=
  let ho := s.pair.ho
  if ho.state = 2 && ho.kind ≠ 2 && payNat x 0 8 = ho.h && s.pair.role = .standby then
    if ho.h ≤ s.tick.count then takeReleased s else updPair (fun p => { p with ho := { p.ho with released := true } }) s
  else s

/-- RELEASE_MESSAGE. -/
def execReleaseMessage (path : Nat) (msg : List Byte) (tm : Nat) (s : State) : Host.Outcome State Fault Refusal :=
  .next (receivePair 0x22 path msg tm releaseTaken s)

/-- ABORT: the pending handover is cancelled. -/
def abortTaken (x : PairMsg) (s : State) : State := if hoPending s && payNat x 0 8 = s.pair.ho.h then endHo 5 6 s else s

/-- ABORT_MESSAGE. -/
def execAbortMessage (path : Nat) (msg : List Byte) (tm : Nat) (s : State) : Host.Outcome State Fault Refusal :=
  .next (receivePair 0x23 path msg tm abortTaken s)

/-! ### RESIGN (R327) -/

/-- RESIGN: a Top holder holds the Top solo; a standby that receives it from the Top holder claims at its next tick edge. -/
def resignTaken (s : State) : State :=
  let s1 := setIrq pgPair0 0x80 s
  if holdsTop s1 then updPair (fun p => { p with role := .solo, peerResigned := true }) s1
  else if peerHasTop s1 && (mode s1 = mShadow || mode s1 = mTest) then
    updPair (fun p => { p with claimPend := true, peerResigned := true }) s1
  else s1

/-- RESIGN. -/
def execResign (path : Nat) (msg : List Byte) (tm : Nat) (s : State) : Host.Outcome State Fault Refusal :=
  .next (receivePair 0x30 path msg tm (fun _ => resignTaken) s)

end Sys2Proof.Machine
end

