-- ==== Sys2Proof/Machine/PairTicks.lean ====
section
/-!
DEFINITION. Commands of the Pair block and what it does at tick edges, flips and expiries (spec/13_redundant_pair.md R314-R316,
R323-R327, R331, R334-R337, R340).
-/
namespace Sys2Proof.Machine

/-! ### Commands (R315, R327, R331, R334, R340, R341) -/

/-- A command bit of PAIR_CMD: CMD_BAD where its rule does not permit it. -/
def pairCommand (tid i : Nat) (ok : State → Bool) (body : State → State) (s : State) : State :=
  access tid pgPair0 Off.PAIR_CMD (1 <<< i) (fun s => if ok s then body s else refuse pgPair0 9 Off.PAIR_CMD tid s) s

/-- JOIN (R315). -/
def joinPair (tid : Nat) (s : State) : State :=
  pairCommand tid 0 (fun s => mode s = mConfigure && s.pair.link = 0) (fun s =>
    setMode mFenced (newAdmission (updPair (fun p => { p with
      role := .none, lastString := s.tick.count, lastBackup := s.tick.count }) s))) s

/-- JOIN. -/
def execJoin (tid : Nat) (s : State) : Host.Outcome State Fault Refusal := .next (joinPair tid s)

/-- LEAVE (R340, R423): RESIGN is sent and the unit returns to CONFIGURE. A Top holder may not leave. -/
def leavePair (tid : Nat) (s : State) : State :=
  pairCommand tid 1 (fun s => mode s = mShadow || mode s = mFenced || mode s = mMaintain || (mode s = mTest && !holdsTop s)) (fun s =>
    let s1 := sendResign 2 (closeGate 5 s)
    let s2 := if hoPending s1 then endHo 5 6 s1 else s1
    setMode mConfigure (updPair (fun p => { p with
      link := 0, role := .none, copyAt := none, copyOut := false, copyEdges := 0, soloPend := false, claimPend := false }) s2)) s

/-- LEAVE. -/
def execLeave (tid : Nat) (s : State) : Host.Outcome State Fault Refusal := .next (leavePair tid s)

/-- SOLO (R327): the unit is to take a solo Top at the next tick edge. -/
def soloPair (tid : Nat) (s : State) : State :=
  pairCommand tid 2 (fun s => mode s = mShadow || mode s = mFenced) (updPair (fun p => { p with soloPend := true })) s

/-- SOLO. -/
def execSolo (tid : Nat) (s : State) : Host.Outcome State Fault Refusal := .next (soloPair tid s)

/-- The modes in which a handover or a drill may be requested (R334). -/
def hoMode (s : State) : Bool := mode s = mShadow || mode s = mActive || mode s = mMaintain || mode s = mTest

/-- The tick count that HO_TICK names (R460). -/
def hoTick (s : State) : Nat := ((nowTick s : Int) + s32diff (reg s pgPair0 Off.HO_TICK) (nowTick s)).toNat

/-- HANDOVER (R334). -/
def handoverPair (tid : Nat) (s : State) : State := pairCommand tid 3 hoMode (fun s => proposeHo 0 (hoTick s) s) s

/-- HANDOVER. -/
def execHandover (tid : Nat) (s : State) : Host.Outcome State Fault Refusal := .next (handoverPair tid s)

/-- DRILL (R337). -/
def drillPair (tid : Nat) (s : State) : State := pairCommand tid 4 hoMode (fun s => proposeHo 2 (hoTick s) s) s

/-- DRILL. -/
def execDrill (tid : Nat) (s : State) : Host.Outcome State Fault Refusal := .next (drillPair tid s)

/-- HO_ABORT (R334): before the edge of H − 1. -/
def hoAbortPair (tid : Nat) (s : State) : State :=
  pairCommand tid 5 (fun s => hoPending s && nowTick s + 1 < s.pair.ho.h) abortHo s

/-- HO_ABORT. -/
def execHoAbort (tid : Nat) (s : State) : Host.Outcome State Fault Refusal := .next (hoAbortPair tid s)

/-- FIT_SET (R331). -/
def fitSetPair (tid : Nat) (s : State) : State :=
  pairCommand tid 6 (fun s => !cfgDiff s) (updPair (fun p => { p with fit := true })) s

/-- FIT_SET. -/
def execFitSet (tid : Nat) (s : State) : Host.Outcome State Fault Refusal := .next (fitSetPair tid s)

/-- A write of PAIR_CFG, REVERT_HOLD, PEER_MAC or BK_CFG: CFG_BUSY while LINK ≠ 0 or outside CONFIGURE; a LEASE or another field out of
its range is dropped with an access error (R341). -/
def pairCfgWrite (tid off : Nat) (data : Word) (s : State) : State :=
  access tid pgPair0 off data (fun s =>
    if s.pair.link ≠ 0 || mode s ≠ mConfigure then refuse pgPair0 8 off tid s
    else if off = Off.PAIR_CFG && (fld data 0 5 < 2 || 16 < fld data 0 5 || fld data 8 7 < 1 || 100 < fld data 8 7) then deny s
    else if off = Off.REVERT_HOLD && (fld data 0 12 < 1 || 3600 < fld data 0 12) then deny s
    else plainWrite pgPair0 off data s) s

/-! ### Paths and admission (R314-R316) -/

/-- Whether the PCS of a path reports no link. -/
def pathLost (s : State) (backup : Bool) : Bool :=
  if backup then (List.range 4).all (fun p => !(regBit s pgPair0 Off.BK_CFG p && p < numPorts s.variant && linkUp s p)) else !linkUp s 4

/-- PATH_DOWN (R314). -/
def pathDown (backup : Bool) (tm : Nat) (s : State) : State :=
  let s0 := advance s tm
  let last := if backup then s0.pair.lastBackup else s0.pair.lastString
  let down := if backup then s0.pair.backupDown else s0.pair.stringDown
  if s0.pair.link ≠ 0 && !down && ((atEdge s0 tm && last + 2 < s0.tick.count) || pathLost s0 backup) then
    watchSkew (fun s => setIrq pgPair0 0x10
      (updPair (fun p => if backup then { p with backupDown := true } else { p with stringDown := true }) s)) s0
  else s0

/-- PATH_DOWN. -/
def execPathDown (backup : Bool) (tm : Nat) (s : State) : Host.Outcome State Fault Refusal := .next (pathDown backup tm s)

/-- ADMISSION_TIMEOUT (R315): 16 ticks after the first HELLO received. -/
def admissionTimeout (tm : Nat) (s : State) : State :=
  let s0 := advance s tm
  match s0.pair.firstHello with
  | some f => if s0.pair.link = 1 && atEdge s0 tm && f + 16 ≤ s0.tick.count then newAdmission (admitFail 6 s0) else s0
  | none => s0

/-- ADMISSION_TIMEOUT. -/
def execAdmissionTimeout (tm : Nat) (s : State) : Host.Outcome State Fault Refusal := .next (admissionTimeout tm s)

/-- ADMISSION_END (R316): LEASE + 2 ticks without a valid message. A Top that the unit holds runs down under its lease. -/
def admissionEnd (tm : Nat) (s : State) : State :=
  let s0 := advance s tm
  if s0.pair.link = 2 && atEdge s0 tm && max s0.pair.lastString s0.pair.lastBackup + pairLease s0 + 2 < s0.tick.count then
    newAdmission s0
  else s0

/-- ADMISSION_END. -/
def execAdmissionEnd (tm : Nat) (s : State) : Host.Outcome State Fault Refusal := .next (admissionEnd tm s)

/-! ### The Top at tick edges (R323, R324, R326, R327) -/

/-- SOLO_TAKE (R327). -/
def soloTake (tm : Nat) (s : State) : State :=
  let s0 := advance s tm
  if s0.pair.soloPend && atEdge s0 tm then
    if (mode s0 = mShadow || mode s0 = mFenced) && !holdsTop s0 then takeTop .solo 0 s0
    else updPair (fun p => { p with soloPend := false }) s0
  else s0

/-- SOLO_TAKE. -/
def execSoloTake (tm : Nat) (s : State) : Host.Outcome State Fault Refusal := .next (soloTake tm s)

/-- Whether FIT keeps the unit from a claim (R326). -/
def unfitToClaim (s : State) : Bool := regBit s pgPair0 Off.PAIR_CFG 17 && !s.pair.fit

/-- RESIGN_CLAIM (R327): at the tick edge after a RESIGN of the Top holder. -/
def resignClaim (tm : Nat) (s : State) : State :=
  let s0 := advance s tm
  if s0.pair.claimPend && atEdge s0 tm then
    if (mode s0 = mShadow || mode s0 = mTest) && !holdsTop s0 && !unfitToClaim s0 then claimTop true s0
    else updPair (fun p => { p with claimPend := false }) s0
  else s0

/-- RESIGN_CLAIM. -/
def execResignClaim (tm : Nat) (s : State) : Host.Outcome State Fault Refusal := .next (resignClaim tm s)

/-- LEASE_EXPIRY (R324). -/
def leaseExpiry (tm : Nat) (s : State) : State :=
  let s0 := advance s tm
  if s0.pair.role = .leased && atEdge s0 tm && s0.pair.expiry ≤ s0.tick.count then loseTop 1 s0 else s0

/-- LEASE_EXPIRY. -/
def execLeaseExpiry (tm : Nat) (s : State) : Host.Outcome State Fault Refusal := .next (leaseExpiry tm s)

/-- TICK_LOSS (R324). -/
def tickLoss (tm : Nat) (s : State) : State :=
  let s0 := advance s tm
  let due := match s0.tick.edgeAt with | some e => decide (e + (if rateHz s0 = 4000 then 300500 else 250500) ≤ tm) | none => false
  if holdsTop s0 && due then loseTop 3 s0 else s0

/-- TICK_LOSS. -/
def execTickLoss (tm : Nat) (s : State) : Host.Outcome State Fault Refusal := .next (tickLoss tm s)

/-- GATE_SENSE (R325): what the ports' second gate stage reads back. -/
def gateSense (sense : Bool) (tm : Nat) (s : State) : State :=
  let s0 := setRegFld (advance s tm) pgPair0 Off.GATE_STAT 1 1 (b2n sense)
  if sense = gateIsOpen s0 then s0 else hwErr pgPair0 10 s0

/-- GATE_SENSE. -/
def execGateSense (sense : Bool) (tm : Nat) (s : State) : Host.Outcome State Fault Refusal := .next (gateSense sense tm s)

/-- COPY_EXPIRY (R323): COPY_LEFT has reached 0, and the guard runs. -/
def copyExpiry (tm : Nat) (s : State) : State :=
  let s0 := advance s tm
  match s0.pair.copyAt with
  | some c => if c ≤ tm && !holdsTop s0 then updPair (fun p => { p with copyOut := true }) s0 else s0
  | none => s0

/-- COPY_EXPIRY. -/
def execCopyExpiry (tm : Nat) (s : State) : Host.Outcome State Fault Refusal := .next (copyExpiry tm s)

/-- CLAIM (R326): at the second tick edge after COPY_LEFT reached 0 with no GRANT sent in between. -/
def claimCopy (tm : Nat) (s : State) : State :=
  let s0 := advance s tm
  if atEdge s0 tm && !holdsTop s0 && s0.pair.copyAt.isSome && 2 ≤ s0.pair.copyEdges && (mode s0 = mShadow || mode s0 = mTest)
      && s0.pair.grantSent && !s0.pair.resigned && !unfitToClaim s0 then
    claimTop (decide (s0.pair.copyEdges = 2)) s0
  else s0

/-- CLAIM. -/
def execClaim (tm : Nat) (s : State) : Host.Outcome State Fault Refusal := .next (claimCopy tm s)

/-! ### Handovers at tick edges (R335, R336, R460) -/

/-- HANDOVER_PRECHECK (R335): at its edge of H − 1 the Top holder checks SKEW_OK. -/
def handoverPrecheck (tm : Nat) (s : State) : State :=
  let s0 := advance s tm
  let ho := s0.pair.ho
  if ho.state = 2 && ho.kind ≠ 2 && s0.pair.role = .leased && atEdge s0 tm && s0.tick.count + 1 = ho.h then
    if skewOk s0 then updPair (fun p => { p with ho := { p.ho with checked := true } }) s0 else abortHo s0
  else s0

/-- HANDOVER_PRECHECK. -/
def execHandoverPrecheck (tm : Nat) (s : State) : Host.Outcome State Fault Refusal := .next (handoverPrecheck tm s)

/-- HANDOVER_RELEASE (R335): at its edge of H the holder closes its gate, sends RELEASE(H), loads its copy and enters SHADOW. -/
def handoverRelease (tm : Nat) (s : State) : State :=
  let s0 := advance s tm
  let ho := s0.pair.ho
  if ho.state = 2 && ho.kind ≠ 2 && ho.checked && s0.pair.role = .leased && atEdge s0 tm && s0.tick.count = ho.h then
    let s1 := updPair (fun p => { p with role := .standby }) (closeGate 2 s0)
    let s2 := hoDone 0 (loadCopy (pairSend 0x22 (tickPayload ho.h) true true s1))
    if mode s2 = mTest then s2 else setMode mShadow s2
  else s0

/-- HANDOVER_RELEASE. -/
def execHandoverRelease (tm : Nat) (s : State) : Host.Outcome State Fault Refusal := .next (handoverRelease tm s)

/-- REVERT (R336): unit A proposes KIND 1 at now + 8 when its count has reached REVERT_HOLD. -/
def revertPair (tm : Nat) (s : State) : State :=
  let s0 := advance s tm
  if atEdge s0 tm && ownUnit s0 = 0 && regBit s0 pgPair0 Off.PAIR_CFG 16 && !hoPending s0
      && regFld s0 pgPair0 Off.REVERT_HOLD 0 12 * rateHz s0 ≤ s0.pair.revert then
    proposeHo 1 (s0.tick.count + 8) (updPair (fun p => { p with revert := 0 }) s0)
  else s0

/-- REVERT. -/
def execRevert (tm : Nat) (s : State) : Host.Outcome State Fault Refusal := .next (revertPair tm s)

/-- A pending handover at a tick edge: withdrawn where the count has skipped H − 1 or H (R460) or H comes without an answer
(assumption 33); a Top released before the edge of H is taken (R335). -/
def hoEdge (s : State) : State :=
  if hoPending s then
    let n := s.tick.count
    let s1 := updPair (fun p => { p with
      ho := { p.ho with sawPrev := p.ho.sawPrev || n + 1 = p.ho.h, sawH := p.ho.sawH || n = p.ho.h } }) s
    let ho := s1.pair.ho
    if (ho.h ≤ n && !ho.sawPrev) || (ho.h < n && !ho.sawH) || (ho.state = 1 && ho.h ≤ n) then abortHo s1
    else if ho.released && ho.h ≤ n && s1.pair.role = .standby then takeReleased s1
    else s1
  else s

/-- The conditions that the count of a revert needs at every edge (R336). -/
def revertHolds (s : State) : Bool :=
  ownUnit s = 0 && s.pair.link = 2 && mode s = mShadow && s.pair.fit && !s.pair.stringDown && peerLeased s && !s.pair.mismatched

/-- The Pair block at a tick edge. -/
def pairEdge (tm : Nat) (s : State) : State :=
  let out := match s.pair.copyAt with | some c => decide (c < tm) && !holdsTop s | none => false
  let s1 := updPair (fun p => { p with
    copyEdges := if out then p.copyEdges + 1 else p.copyEdges
    expiryPrev := if s.tick.count < p.expiry then p.expiry else p.expiryPrev
    revert := if revertHolds s then p.revert + 1 else 0, mismatched := false }) s
  judgeFit (hoEdge s1)

/-- The Pair block at a flip: HELLO until the unit is admitted, then DIGEST and HEARTBEAT (R315, R318). -/
def pairFlip (s : State) : State :=
  if !pairMode s || s.pair.link = 0 then s
  else if s.pair.link = 1 then
    let s1 := if s.pair.nonce = [] then newAdmission s else s
    if s1.pair.nonce = [] then s1 else pairSend 0x01 (helloPayload s1) true true s1
  else
    let d := ownDigest s
    let s1 := countPair 0 (pairSend 0x10 (digestPayload s d) true false s)
    ownStands d (pairSend 0x11 (heartbeatPayload s1 d) false true s1)

end Sys2Proof.Machine
end

