-- ==== Sys2Proof/Machine/StringImage.lean ====
section
/-!
DEFINITION. String images: their layout and the loader's checks (spec/05_string_images.md R137-R150).
-/
namespace Sys2Proof.Machine

/-! ### Layout (R137-R140, R145) -/

/-- A little-endian field of `k` bytes at offset `o`. -/
def leAt (b : List Byte) (o k : Nat) : Nat := leNat ((b.drop o).take k)

/-- Entry `i` of the section table (R139). -/
def sectionAt (b : List Byte) (i : Nat) : ImgSection :=
  let o := 0x40 + 16 * i
  { type := leAt b o 2, flags := leAt b (o + 2) 2, unit := leAt b (o + 4) 1, alt := leAt b (o + 5) 1, tid := leAt b (o + 6) 1
    offset := leAt b (o + 8) 4, length := leAt b (o + 12) 4 }

/-- The content of a section. -/
def contentOf (b : List Byte) (x : ImgSection) : List Byte := (b.drop x.offset).take x.length

/-- A base and a limit of 16 bits each. -/
def rangeAt (b : List Byte) (o : Nat) : Nat × Nat := (leAt b o 2, leAt b (o + 2) 2)

/-- The partition descriptor at offset `o` of a section's content (R145). -/
def descAt (b : List Byte) (o : Nat) : PartDesc :=
  { pidx := leAt b o 1, tid := leAt b (o + 1) 1, start := leAt b (o + 4) 4, stop := leAt b (o + 8) 4, entry := leAt b (o + 12) 2
    tail := leAt b (o + 14) 2, imem := rangeAt b (o + 0x10), dmem0 := rangeAt b (o + 0x14), dmem1 := rangeAt b (o + 0x18)
    clm := rangeAt b (o + 0x1C), hop := rangeAt b (o + 0x20), outInfl := leAt b (o + 0x24) 1, headInfl := leAt b (o + 0x25) 1
    need := (List.range 4).map (fun k => leAt b (o + 0x28 + 2 * k) 2), lastDep := leAt b (o + 0x30) 4, lanes := rangeAt b (o + 0x34) }

/-- The alternate that an ENGINE_ALT section holds. -/
def altOf (x : ImgSection) (c : List Byte) : EngineAlt :=
  { engine := x.unit, alt := x.alt, minP := leAt c 4 4, parts := (List.range (leAt c 0 1)).map (fun i => descAt c (16 + 64 * i)) }

/-- The slot set that a SLOT_SET section holds. -/
def setOf (x : ImgSection) (c : List Byte) : SlotSet :=
  { cluster := x.unit, alt := x.alt, words := (List.range 8).map (fun i => word (leAt c (4 * i) 4)) }

/-- The partition-table entry of a descriptor (R101). -/
def descEntry (d : PartDesc) : PartEntry :=
  { start := d.start, stop := d.stop, entry := d.entry, tid := d.tid, valid := true, imemBase := d.imem.1, imemLimit := d.imem.2
    dmem0Base := d.dmem0.1, dmem0Limit := d.dmem0.2, dmem1Base := d.dmem1.1, dmem1Limit := d.dmem1.2, clmBase := d.clm.1
    clmLimit := d.clm.2, hopBase := d.hop.1, hopLimit := d.hop.2 }

/-- Where a check has failed (R157): code of R156, section, engine or cluster, alternate, descriptor and tenant. -/
structure LdErr where
  code : Nat
  sect : Nat
  unit : Nat
  alt : Nat
  pidx : Nat
  tid : Nat
  deriving DecidableEq, Repr

/-- A failure that no section shows. -/
def errOf (code : Nat) : LdErr := ⟨code, 0, 0, 0, 0, 0⟩

/-- A failure in section `i`. -/
def errIn (code i : Nat) (x : ImgSection) : LdErr := ⟨code, i, x.unit % 16, x.alt % 4, 0, x.tid % 16⟩

/-- A failure in a descriptor of the ENGINE_ALT of section `i`. -/
def errDesc (code i : Nat) (a : EngineAlt) (d : PartDesc) : LdErr := ⟨code, i, a.engine % 16, a.alt % 4, d.pidx % 16, d.tid % 16⟩

/-- The first failure. -/
def firstErr (l : List (Option LdErr)) : Option LdErr := (l.filterMap id).head?

/-- A list with the index of each entry. -/
def indexed {α : Type} (l : List α) : List (Nat × α) := (List.range l.length).zip l

/-- The first entry that conflicts with one before it. -/
def firstConflict {α : Type} (f : α → α → Bool) : List α → List α → Option α
  | _, [] => none
  | seen, x :: r => if seen.any (fun y => f y x) then some x else firstConflict f (seen ++ [x]) r

/-- Whether two ranges with bases and limits meet. -/
def meets (a b : Nat × Nat) : Bool := a.1 < b.2 && b.1 < a.2 && a.1 < a.2 && b.1 < b.2

/-! ### Sections (R139, R141) -/

/-- Whether the content of a section of a listed type is well formed: unit, alternate and length. Another one is refused with
E_SECTION (assumption 34). -/
def sectionFormed (x : ImgSection) (c : List Byte) : Bool :=
  match x.type with
  | 1 => x.unit < 16 && x.alt < 4 && 16 ≤ x.length && 1 ≤ leAt c 0 1 && leAt c 0 1 ≤ 16 && 16 + 64 * leAt c 0 1 ≤ x.length
  | 2 => x.unit < 16 && x.alt < 4 && 8 ≤ x.length && 8 + 24 * leAt c 2 2 ≤ x.length
  | 3 => x.unit < 16 && 8 ≤ x.length
  | 4 => x.unit < 4 && 8 ≤ x.length
  | 5 => x.unit < 4 && x.alt < 4 && 32 ≤ x.length
  | 6 => x.unit < 16 && x.alt < 4 && x.length % 16 = 0
  | _ => 3384 ≤ x.length

/-- The sections of listed types, with their indexes. -/
def known (ss : List ImgSection) : List (Nat × ImgSection) := (indexed ss).filter (fun x => 1 ≤ x.2.type && x.2.type ≤ 7)

/-- The alternates of an image with their section indexes. -/
def altsOf (b : List Byte) (ss : List ImgSection) : List (Nat × EngineAlt) :=
  ((known ss).filter (fun x => x.2.type = 1)).map (fun x => (x.1, altOf x.2 (contentOf b x.2)))

/-- The slot sets of an image. -/
def setsOf (b : List Byte) (ss : List ImgSection) : List SlotSet :=
  ((known ss).filter (fun x => x.2.type = 5)).map (fun x => setOf x.2 (contentOf b x.2))

/-- A code, data or overlay section whose tenant has no partition on its engine, or on an engine of its cluster (R141). -/
def orphan (as : List (Nat × EngineAlt)) (x : ImgSection) : Bool :=
  let has := fun (f : Nat → Bool) => as.any (fun a => f a.2.engine && a.2.parts.any (fun d => d.tid = x.tid))
  match x.type with
  | 2 => !has (fun e => e = x.unit)
  | 3 => !has (fun e => e = x.unit)
  | 6 => !has (fun e => e = x.unit)
  | 4 => !has (fun e => e / 4 = x.unit)
  | _ => false

/-- Placement, types and orphans (R139, R141). -/
def sectionsBad (b : List Byte) (n : Nat) (ss : List ImgSection) : Option LdErr :=
  let as := altsOf b ss
  let place := fun (x : ImgSection) => x.offset % 64 = 0 && x.length ≠ 0 && 0x40 + 16 * n ≤ x.offset && x.offset + x.length ≤ b.length
  firstErr [
    ((indexed ss).find? (fun x => !(place x.2))).map (fun x => errIn 0x02 x.1 x.2),
    (firstConflict (fun y x => meets (y.2.offset, y.2.offset + y.2.length) (x.2.offset, x.2.offset + x.2.length)) [] (indexed ss)).map
      (fun x => errIn 0x02 x.1 x.2),
    ((indexed ss).find? (fun x => !(1 ≤ x.2.type && x.2.type ≤ 7) && x.2.flags % 2 = 0)).map (fun x => errIn 0x09 x.1 x.2),
    ((known ss).find? (fun x => !(sectionFormed x.2 (contentOf b x.2)))).map (fun x => errIn 0x09 x.1 x.2),
    ((known ss).find? (fun x => orphan as x.2)).map (fun x => errIn 0x09 x.1 x.2)]

/-! ### Tenant signatures (R143) -/

/-- The message that tenant `t`'s TENANT_SIG signs: the table entries and contents of its other sections (assumption 34). -/
def tenantMessage (b : List Byte) (ss : List ImgSection) (t : Nat) : List Byte :=
  ((indexed ss).filter (fun x => x.2.tid = t && x.2.type ≠ 7)).flatMap (fun x => (b.drop (0x40 + 16 * x.1)).take 16 ++ contentOf b x.2)

/-- The check of the signature of tenant `t`: 0, E_KEY or E_TENANT_SIG. -/
def tenantSigBad (v : Vault) (b : List Byte) (ss : List ImgSection) (t : Nat) : Nat :=
  match ss.filter (fun x => x.type = 7 && x.tid = t) with
  | [x] =>
    let c := contentOf b x
    match verifySlot v (leAt c 0 8) 1 t with
    | none => 0x05
    | some k =>
      let m := sha512 (tenantMessage b ss t)
      if Config.ed25519Verify (k.pub.take 32) m ((c.drop 8).take 64) && Config.mldsa65Verify (k.pub.drop 32) m ((c.drop 72).take 3309) then 0
      else 0x0A
  | _ => 0x0A

/-- The tenants other than 0 that own a section. -/
def ownersOf (ss : List ImgSection) : List Nat := ((ss.map (·.tid)).filter (fun t => t ≠ 0)).eraseDups

/-- The first tenant signature that fails, in the order of the tenants' first sections. -/
def signaturesBad (v : Vault) (b : List Byte) (ss : List ImgSection) : Option LdErr :=
  ((ownersOf ss).filterMap (fun t => match tenantSigBad v b ss t with | 0 => none | c => some ⟨c, 0, 0, 0, 0, t % 16⟩)).head?

/-! ### Composition (R146-R149) -/

/-- A descriptor put in its place by PT_START. -/
def insertDesc (d : PartDesc) : List PartDesc → List PartDesc
  | [] => [d]
  | e :: r => if d.start < e.start then d :: e :: r else e :: insertDesc d r

/-- The first descriptor for which `f` of the one before it and itself holds. -/
def firstNext (f : PartDesc → PartDesc → Bool) : List PartDesc → Option PartDesc
  | d :: e :: r => if f d e then some e else firstNext f (e :: r)
  | _ => none

/-- Whether a descriptor's window meets R94. -/
def windowOk (s : State) (d : PartDesc) : Bool := d.pidx < 16 && 64 ≤ d.start && d.start ≤ d.stop && d.stop ≤ windowEnd s

/-- Whether a descriptor's regions meet R94. -/
def regionsOk (d : PartDesc) : Bool :=
  d.imem.1 ≤ d.entry && d.entry < d.imem.2 && d.imem.1 ≤ d.imem.2 && d.dmem0.1 ≤ d.dmem0.2 && d.dmem1.1 ≤ d.dmem1.2 && d.clm.1 ≤ d.clm.2
  && d.hop.1 ≤ d.hop.2 && d.imem.2 ≤ 8192 && d.dmem0.2 ≤ 384 && d.dmem1.2 ≤ 384 && d.clm.2 ≤ 512 && d.hop.2 ≤ 4096

/-- Whether DMEM regions of two descriptors meet. -/
def dmemMeet (d e : PartDesc) : Bool :=
  [d.dmem0, d.dmem1].any (fun a => [e.dmem0, e.dmem1].any (fun b => meets a b))

/-- The bundles that a PART_CODE section covers. -/
def codeRange (b : List Byte) (x : ImgSection) : Nat × Nat :=
  let c := contentOf b x
  (leAt c 0 2, leAt c 0 2 + leAt c 2 2)

/-- R146 for the ENGINE_ALT of section `i`. -/
def altBad (s : State) (b : List Byte) (ss : List ImgSection) (i : Nat) (a : EngineAlt) : Option LdErr :=
  let at' := fun code => fun (d : PartDesc) => errDesc code i a d
  let sorted := a.parts.foldl (fun l d => insertDesc d l) []
  let code := (known ss).filter (fun x => x.2.type = 2 && x.2.unit = a.engine && x.2.alt = a.alt)
  let inside := fun (x : ImgSection) (k : Nat) => a.parts.any (fun d => d.tid = x.tid && d.imem.1 ≤ k && k < d.imem.2)
  firstErr [
    (a.parts.find? (fun d => !(windowOk s d))).map (at' 0x0B),
    (a.parts.find? (fun d => !(regionsOk d))).map (at' 0x0E),
    (firstConflict (fun d e => d.start ≤ e.stop && e.start ≤ d.stop) [] a.parts).map (at' 0x0B),
    (firstConflict (fun d e => d.pidx = e.pidx) [] a.parts).map (at' 0x0B),
    (firstNext (fun d e => e.start ≤ d.stop + d.tail) sorted).map (at' 0x0C),
    (sorted.getLast?.bind (fun d => if windowEnd s < d.stop + d.tail then some d else none)).map (at' 0x0C),
    (firstNext (fun d e => 64 < d.outInfl + e.headInfl) sorted).map (at' 0x0D),
    (firstConflict (fun d e => meets d.imem e.imem) [] a.parts).map (at' 0x0E),
    (firstConflict (fun d e => d.tid ≠ e.tid && dmemMeet d e) [] a.parts).map (at' 0x0E),
    (a.parts.find? (fun d => d.lastDep ≠ 0 && !(d.lastDep + 2048 ≤ a.minP && a.minP ≤ latestP s))).map (at' 0x11),
    (code.find? (fun x => (List.range (leAt (contentOf b x.2) 2 2)).any (fun k => !(inside x.2 ((codeRange b x.2).1 + k))))).map
      (fun x => errIn 0x0E x.1 x.2)]

/-- Bundle `k` as a PART_CODE section holds it. -/
def bundleOf (b : List Byte) (x : ImgSection) (k : Nat) : List Byte := ((contentOf b x).drop (8 + 24 * (k - (codeRange b x).1))).take 24

/-- Whether PART_CODE sections of two alternates of one engine disagree on a bundle that both cover. -/
def codeDiffers (b : List Byte) (x y : ImgSection) : Bool :=
  let r := codeRange b x
  let q := codeRange b y
  x.unit = y.unit && x.alt ≠ y.alt && (List.range (min r.2 q.2 - max r.1 q.1)).any (fun i =>
    bundleOf b x (max r.1 q.1 + i) ≠ bundleOf b y (max r.1 q.1 + i))

/-- The cluster-memory bytes of a descriptor's region. -/
def clmBytes (d : PartDesc) : Nat × Nat := (4096 * d.clm.1, 4096 * d.clm.2)

/-- The bytes that a PART_DATA or CLM_DATA section writes. -/
def dataRange (b : List Byte) (x : ImgSection) : Nat × Nat :=
  let a := leAt (contentOf b x) 0 4
  (a, a + (x.length - 8))

/-- The entry `e` of bank `k` of a slot set (R102). -/
def setEntry (w : SlotSet) (k e : Nat) : Nat := fld (w.words.getD (2 * k + e / 8) 0) (4 * (e % 8)) 4

/-- R147. -/
def crossBad (b : List Byte) (ss : List ImgSection) (as : List (Nat × EngineAlt)) (sets : List SlotSet) : Option LdErr :=
  let all := as.flatMap (fun a => a.2.parts.map (fun d => (a, d)))
  let err := fun code => fun (x : (Nat × EngineAlt) × PartDesc) => errDesc code x.1.1 x.1.2 x.2
  let code := (known ss).filter (fun x => x.2.type = 2)
  let engines := (known ss).filter (fun x => x.2.type = 1 || x.2.type = 2 || x.2.type = 3 || x.2.type = 6)
  let need := fun (x : (Nat × EngineAlt) × PartDesc) =>
    match sets.find? (fun w => w.cluster = x.1.2.engine / 4 && w.alt = x.1.2.alt) with
    | some w => (List.range 4).all (fun k => (List.range 16).all (fun e =>
        !((x.2.need.getD k 0).testBit e) || setEntry w k e = x.1.2.engine % 4))
    | none => true
  firstErr [
    (firstConflict (fun x y => x.1.2.engine = y.1.2.engine && x.2.tid = y.2.tid
      && (x.2.dmem0, x.2.dmem1, x.2.clm, x.2.hop, x.2.lanes) ≠ (y.2.dmem0, y.2.dmem1, y.2.clm, y.2.hop, y.2.lanes)) [] all).map (err 0x0E),
    (firstConflict (fun x y => x.1.2.engine = y.1.2.engine && x.2.tid ≠ y.2.tid && meets x.2.imem y.2.imem) [] all).map (err 0x0E),
    (firstConflict (fun x y => codeDiffers b x.2 y.2) [] code).map (fun x => errIn 0x0F x.1 x.2),
    (firstConflict (fun x y => x.1.2.engine / 4 = y.1.2.engine / 4 && x.2.tid ≠ y.2.tid && meets x.2.clm y.2.clm) [] all).map (err 0x0E),
    ((known ss).find? (fun x => x.2.type = 4 && (0x200000 < (dataRange b x.2).2
      || all.any (fun d => d.1.2.engine / 4 = x.2.unit && d.2.tid ≠ x.2.tid && meets (clmBytes d.2) (dataRange b x.2))))).map
      (fun x => errIn 0x0E x.1 x.2),
    ((known ss).find? (fun x => (x.2.type = 3 && 0x60000 < (dataRange b x.2).2) || (x.2.type = 2 && 8192 < (codeRange b x.2).2))).map
      (fun x => errIn 0x0E x.1 x.2),
    (engines.find? (fun x => !(as.any (fun a => a.2.engine = x.2.unit && a.2.alt = 0)))).map (fun x => errIn 0x0E x.1 x.2),
    (as.find? (fun a => !(sets.any (fun w => w.cluster = a.2.engine / 4 && w.alt = a.2.alt)))).map
      (fun a => ⟨0x10, a.1, a.2.engine % 16, a.2.alt % 4, 0, 0⟩),
    (all.find? (fun x => !(need x))).map (err 0x10)]

/-- R148: tenants of the variant that own their lanes' blocks and their frame blocks. -/
def ownersBad (s : State) (as : List (Nat × EngineAlt)) : Option LdErr :=
  let laneOk := fun (d : PartDesc) => (List.range (d.lanes.2 - d.lanes.1)).all (fun i =>
    match laneOf s (d.lanes.1 + i) with | some (_, l) => laneTid l = d.tid | none => false)
  let hopOk := fun (d : PartDesc) => d.tid = 0 || d.hop.1 = d.hop.2
    || ((frameRange s d.tid).1 ≤ d.hop.1 && d.hop.2 ≤ (frameRange s d.tid).2)
  let bad := as.filterMap (fun a => (a.2.parts.find? (fun d => !(d.tid < numTids s.variant && laneOk d && hopOk d))).map (errDesc 0x12 a.1 a.2))
  bad.head?

/-- R149 for a record at offset `o` of an OVERLAY section. -/
def overlayOk (as : List (Nat × EngineAlt)) (x : ImgSection) (c : List Byte) (o : Nat) : Bool :=
  let cyc := leAt c o 4
  let line := leAt c (o + 4) 2
  let addr := leAt c (o + 8) 4
  let e := (cyc / 2 + 4) % 16
  as.any (fun a => a.2.engine = x.unit && a.2.alt = x.alt && a.2.parts.any (fun d =>
    d.tid = x.tid && 24 * d.imem.1 ≤ 64 * line && 64 * line + 64 ≤ 24 * d.imem.2
    && (clmBytes d).1 ≤ addr && addr + 64 ≤ (clmBytes d).2 && d.start ≤ cyc && cyc ≤ d.stop
    && (d.need.getD (addr / 0x80000 % 4) 0).testBit e))

/-- R149. -/
def overlaysBad (b : List Byte) (ss : List ImgSection) (as : List (Nat × EngineAlt)) : Option LdErr :=
  ((known ss).find? (fun x => x.2.type = 6 && (List.range (x.2.length / 16)).any (fun r =>
    !(overlayOk as x.2 (contentOf b x.2) (16 * r))))).map (fun x => errIn 0x13 x.1 x.2)

/-! ### The check of an image (R142, R144, R150) -/

/-- IMG_ADDR. -/
def imgAddr (s : State) : Nat := (reg s pgStr0 Off.IMG_ADDR_LO).toNat + regFld s pgStr0 Off.IMG_ADDR_HI 0 16 * 2 ^ 32

/-- The bit of VARIANTS that names the part. -/
def variantBit (v : Config.Variant) : Nat := match v with | .wln4840 => 0 | .wln4830 => 1 | .wln4820 => 2

/-- The whole check of the image at IMG_ADDR: the first failure in the order of R150, or the image; its rate is that of the tick generator
(spec/02_tick_contract.md R51). -/
def checkImage (s : State) : Except LdErr StrLoad :=
  let a := imgAddr s
  let len := (reg s pgStr0 Off.IMG_LEN).toNat
  if a % 64 ≠ 0 || a < 0x800000000 || 0xC00000000 < a + len || len < 3384 + 64 then .error (errOf 0x02)
  else if !(readableMem s a 64) then .error (errOf 0x17)
  else
    let h := readMem s a 64
    let n := leAt h 6 2
    let total := leAt h 0x14 4
    if leAt h 0 4 ≠ 0x52545357 || leAt h 4 2 ≠ 1 then .error (errOf 0x01)
    else if n < 1 || 1024 < n || total % 64 ≠ 0 || 64 * 2 ^ 20 < total || len ≠ total + 3384 then .error (errOf 0x02)
    else if !(readableMem s a len) then .error (errOf 0x17)
    else
      let b := readMem s a total
      let env := readMem s (a + total) 3384
      if leAt env 0 4 ≠ 0x47495357 then .error (errOf 0x01)
      else if !((leAt h 0x10 4).testBit (variantBit s.variant)) then .error (errOf 0x03)
      else if leAt h 8 4 ≠ rateHz s then .error (errOf 0x04)
      else
        match verifySlot s.vlt (leAt h 0x18 8) 0 0 with
        | none => .error (errOf 0x05)
        | some k =>
          match checkEnvelope k.pub (sha512 b) env with
          | 1 => .error (errOf 0x06)
          | 2 => .error (errOf 0x07)
          | _ =>
            if leAt h 0x0C 4 < s.vlt.otp.stringVer then .error (errOf 0x08)
            else
              let ss := (List.range n).map (sectionAt b)
              let as := altsOf b ss
              let sets := setsOf b ss
              match firstErr [sectionsBad b n ss, signaturesBad s.vlt b ss, firstErr (as.map (fun x => altBad s b ss x.1 x.2)),
                  crossBad b ss as sets, ownersBad s as, overlaysBad b ss as] with
              | some e => .error e
              | none => .ok { body := b, sections := ss, alts := as.map (·.2), sets := sets }

end Sys2Proof.Machine
end

