-- ==== Sys2Proof/Machine/Strings.lean ====
section
/-!
DEFINITION. The string loader: loads and reshapes (spec/05_string_images.md R150-R160).
-/
namespace Sys2Proof.Machine

/-- The string loader changed. -/
def updStr (f : Strings → Strings) (s : State) : State := { s with str := f s.str }

/-- Engines that an image names. -/
def namedEngines (ss : List ImgSection) : List Nat :=
  ((ss.filter (fun x => x.type = 1 || x.type = 2 || x.type = 3 || x.type = 6)).map (·.unit)).eraseDups

/-- Clusters that an image names, by an engine or by a section of their own. -/
def namedClusters (ss : List ImgSection) : List Nat :=
  ((namedEngines ss).map (· / 4) ++ (ss.filter (fun (x : ImgSection) => x.type = 4 || x.type = 5)).map (fun (x : ImgSection) => x.unit)).eraseDups

/-- Whether a named engine is not held (R151). -/
def enginesBusy (s : State) (ss : List ImgSection) : Bool :=
  (namedEngines ss).any (fun n => !(stringIdle s n) || !(regBit s (pgMe n) Off.CTRL 2))

/-- Whether LOCK.GRP0 is set in a page of these engines and clusters. -/
def unitsLocked (s : State) (es cs : List Nat) : Bool :=
  es.any (fun n => regBit s (pgMe n) Off.LOCK 0) || cs.any (fun c => regBit s (pgClu c) Off.LOCK 0)

/-- A load or a verify that has failed: LD_STAT, LD_DETAIL and LOAD_FAIL (R156, R157). -/
def ldFail (e : LdErr) (s : State) : State :=
  let s1 := setReg s pgStr0 Off.LD_STAT (word (e.code * 256 + e.sect * 65536))
  setIrq pgStr0 2 (setReg s1 pgStr0 Off.LD_DETAIL (word (e.unit + e.alt * 16 + e.pidx * 256 + e.tid * 65536)))

/-- A load or a verify refused while a reshape is pending or a load runs, whose PHASE stays. -/
def ldBusy (s : State) : State := setIrq pgStr0 2 (setRegFld s pgStr0 Off.LD_STAT 8 8 0x15)

/-! ### The write phase (R151) -/

/-- One piece of a write phase: bytes put at an address, or `n` bytes from one that no section covers set to zero. -/
inductive LoadOp where
  | put (a : Nat) (bs : List Byte)
  | zero (a n : Nat)
  deriving DecidableEq, Repr

/-- The pieces that the code and data sections of an image put in place. -/
def loadPuts (b : List Byte) (ss : List ImgSection) : List LoadOp :=
  ss.filterMap (fun x =>
    let c := contentOf b x
    match x.type with
    | 2 => some (.put (imemPhys x.unit (24 * leAt c 0 2)) ((c.drop 8).take (24 * leAt c 2 2)))
    | 3 => some (.put (dmemPhys x.unit (leAt c 0 4)) (c.drop 8))
    | 4 => some (.put (clmPhys x.unit (leAt c 0 4)) (c.drop 8))
    | _ => none)

/-- The write phase of a load. -/
def loadOps (x : StrLoad) : List LoadOp :=
  loadPuts x.body x.sections
  ++ (namedEngines x.sections).flatMap (fun n => [.zero (imemPhys n 0) 196608, .zero (dmemPhys n 0) 393216])
  ++ x.alts.flatMap (fun a => a.parts.map (fun d =>
      .zero (clmPhys (a.engine / 4) (clmBytes d).1) ((clmBytes d).2 - (clmBytes d).1)))

/-- Whether a piece puts a byte at an address. -/
def opCovers (o : LoadOp) (k : Nat) : Bool := match o with | .put a bs => a ≤ k && k < a + bs.length | .zero _ _ => false

/-- The first `n` bytes of a piece. -/
def opTake (n : Nat) : LoadOp → LoadOp
  | .put a bs => .put a (bs.take n)
  | .zero a m => .zero a (min n m)

/-- Pieces performed; zeros leave the bytes that the pieces `all` put. -/
def runOps (all : List LoadOp) (ops : List LoadOp) (s : State) : State :=
  ops.foldl (fun s o => match o with
    | .put a bs => freshEcc a bs.length (writeMem s a bs)
    | .zero a n => freshEcc a n { s with mem := s.mem.filter (fun c => !(a ≤ c.1 && c.1 < a + n) || all.any (fun o => opCovers o c.1)) }) s

/-- A write phase cut short: how far it came is not stated, so the pieces and bytes written are free (assumption 34). -/
def runSome (ops : List LoadOp) (s : State) : State :=
  let k := Config.freeNat s.free % (ops.length + 1)
  let j := Config.freeNat (s.free + 1)
  runOps ops (ops.take k ++ ((ops.drop k).take 1).map (opTake j)) { s with free := s.free + 2 }

/-- A load stopped in its write phase with E_ENGINE_BUSY or E_ABORTED: the named engines keep VALID = 0. -/
def loadStop (code : Nat) (s : State) : State :=
  match s.str.load with
  | some x => ldFail (errOf code) (runSome (loadOps x) (updStr (fun r => { r with load := none }) s))
  | none => s

/-- VALID cleared in every entry of an idle engine, at once (R94). -/
def clearTable (n : Nat) (s : State) : State :=
  applyTable n [] ((List.range 16).foldl (fun s p => setRegFld s (pgMe n) (Off.PT_CTRL + 0x20 * p) 31 1 0) s)

/-- LOAD (R150, R151): every check, then the write phase. -/
def stringLoad (tid : Nat) (s : State) : State :=
  access tid pgStr0 Off.LD_CMD 1 (fun s =>
    if mode s ≠ mConfigure && mode s ≠ mMaintain then ldFail (errOf 0x18) s
    else if s.str.reshape.isSome || s.str.load.isSome then ldBusy s
    else
      match checkImage s with
      | .error e => ldFail e s
      | .ok x =>
        if enginesBusy s x.sections then ldFail (errOf 0x14) s
        else if unitsLocked s (namedEngines x.sections) (namedClusters x.sections) then ldFail (errOf 0x19) s
        else
          let s1 := (namedEngines x.sections).foldl (fun s n => clearTable n s) s
          updStr (fun r => { r with load := some x }) (setReg s1 pgStr0 Off.LD_STAT 5)) s

/-- STRING_LOAD. -/
def execStringLoad (tid : Nat) (s : State) : Host.Outcome State Fault Refusal := .next (stringLoad tid s)

/-- VERIFY (R150): the checks alone. -/
def ldVerify (tid : Nat) (s : State) : State :=
  access tid pgStr0 Off.LD_CMD 2 (fun s =>
    if s.str.load.isSome then ldBusy s
    else
      match checkImage s with
      | .error e => ldFail e s
      | .ok _ => setIrq pgStr0 1 (setReg (setReg s pgStr0 Off.LD_STAT 0) pgStr0 Off.LD_DETAIL 0)) s

/-- LD_VERIFY. -/
def execLdVerify (tid : Nat) (s : State) : Host.Outcome State Fault Refusal := .next (ldVerify tid s)

/-- ABORT (R151). -/
def ldAbort (tid : Nat) (s : State) : State := access tid pgStr0 Off.LD_CMD 4 (loadStop 0x16) s

/-- LD_ABORT. -/
def execLdAbort (tid : Nat) (s : State) : Host.Outcome State Fault Refusal := .next (ldAbort tid s)

/-- A range as a register of a partition entry. -/
def rangeWord (r : Nat × Nat) : Word := word (r.1 % 65536 + r.2 * 65536)

/-- A descriptor written into its partition-table entry of engine `n` (R101). -/
def writeEntry (n : Nat) (d : PartDesc) (s : State) : State :=
  [(Off.PT_START, word d.start), (Off.PT_END, word d.stop), (Off.PT_CTRL, word (d.entry + d.tid * 65536 + 2 ^ 31)),
    (Off.PT_IMEM, rangeWord d.imem), (Off.PT_DMEM0, rangeWord d.dmem0), (Off.PT_DMEM1, rangeWord d.dmem1), (Off.PT_CLM, rangeWord d.clm),
    (Off.PT_HOP, rangeWord d.hop)].foldl (fun s x => setReg s (pgMe n) (x.1 + 0x20 * d.pidx) x.2) s

/-- The whole table of an alternate written to its engine: its descriptors, VALID = 0 in every other entry. -/
def writeTable (a : EngineAlt) (s : State) : State :=
  a.parts.foldl (fun s d => writeEntry a.engine d s)
    ((List.range 16).foldl (fun s p => setRegFld s (pgMe a.engine) (Off.PT_CTRL + 0x20 * p) 31 1 0) s)

/-- A slot set written to its cluster. -/
def writeSet (w : SlotSet) (s : State) : State :=
  (List.range 4).foldl (fun s k =>
    setReg (setReg s (pgClu w.cluster) (Off.SLOT_LO + 8 * k) (w.words.getD (2 * k) 0)) (pgClu w.cluster) (Off.SLOT_HI + 8 * k)
      (w.words.getD (2 * k + 1) 0)) s

/-- The inventory and identity registers of an image that has been loaded (R159, R160). -/
def showImage (x : StrLoad) (s : State) : State :=
  let pres := x.sets.foldl (fun m w => m ||| (1 <<< (4 * w.cluster + w.alt))) (0 : Nat)
  let s1 := setReg s pgStr2 Off.SLOT_PRES (word pres)
  let s2 := (List.range 64).foldl (fun s i =>
    setReg s pgStr2 (Off.ALT_INFO + 4 * i) (match x.alts.find? (fun a => 4 * a.engine + a.alt = i) with
      | some a => word (a.parts.length + 0x80 + a.minP % 2 ^ 19 * 256)
      | none => 0)) s1
  [(Off.IMG_VERSION, 0x0C), (Off.IMG_LAYOUT, 0x20), (Off.IMG_RATE, 8), (Off.IMG_KEY_LO, 0x18), (Off.IMG_KEY_HI, 0x1C)].foldl
    (fun s r => setReg s pgStr3 r.1 (word (leAt x.body r.2 4))) s2

/-- LOAD_DONE (R151): the write phase completes: memories, alternate 0's tables, the image held and ALT_ACT = 0; the image is measured
(spec/16_vault_and_boot.md R398). -/
def loadDone (tm : Nat) (s : State) : State :=
  let s0 := advance s tm
  match s0.str.load with
  | none => s0
  | some x =>
    if enginesBusy s0 x.sections then loadStop 0x14 s0
    else
      let s1 := runOps (loadOps x) (loadOps x) s0
      let alts0 := x.alts.filter (fun a => a.alt = 0)
      let sets0 := x.sets.filter (fun w => w.alt = 0)
      let s2 := sets0.foldl (fun s w => writeSet w s) (alts0.foldl (fun s a => writeTable a s) s1)
      let s3 := updStr (fun r => { r with
        load := none, alts := x.alts, sets := x.sets, digest := Config.sha3_512 x.body
        tenantMsg := (ownersOf x.sections).foldl (fun t u => tset t u (Config.sha3_512 (tenantMessage x.body x.sections u))) [] }) s2
      let s4 := alts0.foldl (fun s a => partitionTableApply a.engine s.now (updEng a.engine (fun e => { e with tablePend := true }) s)) s3
      let s5 := sets0.foldl (fun s w => slotTableApply w.cluster s.now
        { s with clu := tmod Cluster.init s.clu w.cluster (fun c => { c with tabPend := true }) }) s4
      let wait := sets0.any (fun w => (tget Cluster.init s5.clu w.cluster).tabPend)
      let s6 := showImage x (setReg (updStr (fun r => { r with awaiting := wait }) s5) pgStr1 Off.ALT_ACT 0)
      let s7 := setReg (setReg (extendMeas 4 (sha512 x.body) s6) pgStr0 Off.LD_STAT (if wait then 6 else 0)) pgStr0 Off.LD_DETAIL 0
      setIrq pgStr0 1 (if wait then s7 else setReg s7 pgStr0 Off.ACT_TICK (word s7.tick.count))

/-- LOAD_DONE. -/
def execLoadDone (tm : Nat) (s : State) : Host.Outcome State Fault Refusal := .next (loadDone tm s)

/-! ### Reshape (R152-R156) -/

/-- The alternate of cluster `c` in RS_ALT or ALT_ACT. -/
def altField (w : Nat) (c : Nat) : Nat := w / 4 ^ c % 4

/-- The present clusters whose alternate a reshape to `alt` changes. -/
def changedClusters (s : State) (alt : Nat) : List Nat :=
  (List.range (numClusters s.variant)).filter (fun c => altField alt c ≠ altField (reg s pgStr1 Off.ALT_ACT).toNat c)

/-- The engines of a list of clusters. -/
def enginesOf (cs : List Nat) : List Nat := cs.flatMap (fun c => (List.range 4).map (fun i => 4 * c + i))

/-- The alternate `a` of engine `n` in the image held. -/
def heldAlt (s : State) (n a : Nat) : Option EngineAlt := s.str.alts.find? (fun x => x.engine = n && x.alt = a)

/-- The result of a request (R152), 0 where it is accepted. -/
def rsCheck (s : State) (alt : Nat) : Nat :=
  let cs := List.range (numClusters s.variant)
  let md := mode s
  if !(md = mConfigure || md = mShadow || md = mActive || md = mTest || md = mMaintain) then 0x28
  else if s.str.load.isSome || s.str.reshape.isSome then 0x23
  else if s32diff (reg s pgStr1 Off.RS_TICK) (nowTick s) < 2 then 0x21
  else if !(cs.all (fun c => (enginesOf [c]).all (fun n => (heldAlt s n (altField alt c)).isSome)
      && s.str.sets.any (fun w => w.cluster = c && w.alt = altField alt c))) then 0x22
  else if cs.any (fun c => (enginesOf [c]).any (fun n => match heldAlt s n (altField alt c) with
      | some a => decide (regFld s pgCar0 Off.PUB_POINT 0 20 < a.minP) | none => false)) then 0x24
  else if unitsLocked s (enginesOf (changedClusters s alt)) (changedClusters s alt) then 0x29
  else 0

/-- A reshape that ends without being applied, with its result and RESHAPE_FAIL. -/
def rsEnd (code : Nat) (s : State) : State :=
  setIrq pgStr0 8 (setReg (updStr (fun r => { r with reshape := none }) s) pgStr1 Off.RS_STAT (word (code * 256)))

/-- REQ (R152). -/
def reshapeRequest (tid : Nat) (s : State) : State :=
  access tid pgStr1 Off.RS_CMD 1 (fun s =>
    let alt := regFld s pgStr1 Off.RS_ALT 0 8
    let r := rsCheck s alt
    if r = 0 then
      let t := ((nowTick s : Int) + s32diff (reg s pgStr1 Off.RS_TICK) (nowTick s)).toNat
      updStr (fun x => { x with reshape := some ⟨alt, t, false, false⟩ }) (setReg s pgStr1 Off.RS_STAT 1)
    else setIrq pgStr0 8 (setRegFld s pgStr1 Off.RS_STAT 8 8 r)) s

/-- RESHAPE_REQUEST. -/
def execReshapeRequest (tid : Nat) (s : State) : Host.Outcome State Fault Refusal := .next (reshapeRequest tid s)

/-- CANCEL (R155): before the edge of T − 1. -/
def rsCancel (tid : Nat) (s : State) : State :=
  access tid pgStr1 Off.RS_CMD 2 (fun s =>
    match s.str.reshape with
    | some r => if !r.staged && nowTick s + 1 < r.target then rsEnd 0x26 s else s
    | none => s) s

/-- RS_CANCEL. -/
def execRsCancel (tid : Nat) (s : State) : Host.Outcome State Fault Refusal := .next (rsCancel tid s)

/-- RESHAPE_STAGE (R153, R154): from the edge of T − 1 the loader writes the tables, if the pair match holds; in CONFIGURE the unit
stages it on its own. -/
def reshapeStage (tm : Nat) (s : State) : State :=
  let s0 := advance s tm
  match s0.str.reshape with
  | none => s0
  | some r =>
    if !(atEdge s0 tm && s0.tick.count + 1 = r.target && !r.staged) then s0
    else if mode s0 ≠ mConfigure && !(rsMatch s0 r.alt r.target) then rsEnd 0x27 s0
    else
      let cs := changedClusters s0 r.alt
      let s1 := (enginesOf cs).foldl (fun s n => match heldAlt s n (altField r.alt (n / 4)) with
        | some a => writeTable a s | none => s) s0
      let s2 := (s0.str.sets.filter (fun w => cs.contains w.cluster && w.alt = altField r.alt w.cluster)).foldl (fun s w => writeSet w s) s1
      setRegFld (updStr (fun x => { x with reshape := some { r with staged := true } }) s2) pgStr1 Off.RS_STAT 0 2 2

/-- RESHAPE_STAGE. -/
def execReshapeStage (tm : Nat) (s : State) : Host.Outcome State Fault Refusal := .next (reshapeStage tm s)

/-- The slot tables of cluster `c` as written come in force. -/
def applySlots (c : Nat) (s : State) : State :=
  (List.range 4).foldl (fun s k =>
    setReg (setReg s (pgClu c) (Off.SLOT_ACT_LO + 8 * k) (reg s (pgClu c) (Off.SLOT_LO + 8 * k)))
      (pgClu c) (Off.SLOT_ACT_HI + 8 * k) (reg s (pgClu c) (Off.SLOT_HI + 8 * k))) s

/-- RESHAPE_APPLY (R153): at the edge of T the staged tables take effect together. A cluster with an engine that refused its table
goes on showing its old alternate (assumption 34). -/
def reshapeApply (tm : Nat) (s : State) : State :=
  let s0 := advance s tm
  match s0.str.reshape with
  | none => s0
  | some r =>
    if !(atEdge s0 tm && s0.tick.count = r.target && r.staged) then s0
    else
      let cs := changedClusters s0 r.alt
      let bad := (enginesOf cs).filter (fun n => (firstBad s0 (writtenTable s0 n) []).isSome)
      let s1 := (enginesOf cs).foldl (fun s n => startDecision n (applyTable n (writtenTable s n) s)) s0
      let s2 := cs.foldl (fun s c => applySlots c s) s1
      let act := (List.range 4).foldl (fun a c =>
        let old := altField (reg s0 pgStr1 Off.ALT_ACT).toNat c
        a + (if cs.contains c && !(bad.any (fun n => n / 4 = c)) then altField r.alt c else old) * 4 ^ c) 0
      let s3 := countReg (setReg (setReg s2 pgStr1 Off.ALT_ACT (word act)) pgStr1 Off.RS_LAST (word s2.tick.count)) pgStr1 Off.RS_COUNT 1
      setIrq pgStr0 4 (updStr (fun x => { x with reshape := none })
        (setReg s3 pgStr1 Off.RS_STAT (if bad = [] then 0x2000 else 0x2500)))

/-- RESHAPE_APPLY. -/
def execReshapeApply (tm : Nat) (s : State) : Host.Outcome State Fault Refusal := .next (reshapeApply tm s)

/-- The loader at a tick edge: tables of a load that waited for it take effect (R151), and a reshape whose edges the count has skipped
is withdrawn (R153, R460). -/
def stringsEdge (s : State) : State :=
  let n := s.tick.count
  let s1 :=
    if s.str.awaiting then
      setReg (setRegFld (updStr (fun x => { x with awaiting := false }) s) pgStr0 Off.LD_STAT 0 4 0) pgStr0 Off.ACT_TICK (word n)
    else s
  match s1.str.reshape with
  | none => s1
  | some r =>
    let saw := r.sawPrev || n + 1 = r.target
    if (r.target ≤ n && !saw) || r.target < n then rsEnd 0x2A s1
    else updStr (fun x => { x with reshape := some { r with sawPrev := saw } }) s1

end Sys2Proof.Machine
end

