-- ==== Sys2Proof/Machine/Modes.lean ====
section
/-!
DEFINITION. Modes, SAFE, resets, supplies, clocks and power (spec/17_modes_clocks_power.md R421-R437), and the tamper inputs of the vault
(spec/16_vault_and_boot.md R417).
-/
namespace Sys2Proof.Machine

/-! ### SAFE (R425) -/

/-- Every transmit descriptor of the tenants completes with ABORTED. -/
def abortTransmit (s : State) : State :=
  (List.range 4).foldl (fun s p => (List.range 16).foldl (fun s t => stopTxRing p t 8 s) s) s

/-- Pulse and PPS outputs driven low. -/
def outputsLow (s : State) : State :=
  let s1 := gatePulses s
  { s1 with tim := { s1.tim with ppsOut := s1.tim.ppsOut.map (fun o => (o.1, { o.2 with high := false })) } }

/-- Entry into SAFE on a cause: from VERIFY onward, and only the first one is recorded. -/
def enterSafe (cause : Nat) (s : State) : State :=
  if mode s < mVerify ∨ mode s = mSafe then s
  else
    let s1 := abortTransmit (outputsLow (sendResign 1 (closeGate 4 s)))
    setMode mSafe (setReg s1 pgMode Off.SAFE_CAUSE (word cause))

/-! ### Resets (R33, R426, R434) -/

/-- The vault after a reset: OTP, the record areas in flash and the VBAT domain stay; the key store, the measurements and the entropy
tests start again. -/
def resetVault (v : Vault) : Vault :=
  { Vault.init with otp := v.otp, areas := v.areas, vbat := v.vbat }

/-- The registers that outlast a SYS reset: MODE_STAT with the mode left, RST_CAUSE with its new bit, SAFE_CAUSE and STRAPS, and the lock
of the root PLL except after its loss. -/
def keptRegs (bit : Nat) (s : State) : Tab Word :=
  let s0 : State := { s with regs := [] }
  let s1 := setReg s0 pgMode Off.MODE_STAT (word (mReset + (if mode s = mReset then regFld s pgMode Off.MODE_STAT 4 4 else mode s) * 16))
  let s2 := setReg s1 pgMode Off.RST_CAUSE (reg s pgMode Off.RST_CAUSE ||| (1 <<< bit))
  let s3 := setReg (setReg s2 pgMode Off.SAFE_CAUSE (reg s pgMode Off.SAFE_CAUSE)) pgMode Off.STRAPS (reg s pgMode Off.STRAPS)
  (setReg s3 pgClk Off.PLL_STAT (if bit = 5 then 0 else reg s pgClk Off.PLL_STAT &&& 1)).regs

/-- The device after a reset with these registers: on-chip memories zero, LPDDR4X not kept, flash kept, every unit at its reset. -/
def resetWith (regs : Tab Word) (s : State) : State :=
  { State.reset with
    variant := s.variant, pending := s.pending, now := s.now, free := s.free, regs := regs, epoch := s.epoch + 1
    mem := s.mem.filter (fun c => 0x60000000 ≤ c.1 && c.1 < 0x70000000)
    vlt := resetVault s.vlt
    mod := { Modes.init with power := s.mod.power, vbat := s.mod.vbat, porst := s.mod.porst, failLow := s.mod.failLow } }

/-- A SYS reset by the source of RST_CAUSE bit `bit`; without main power there is nothing to reset. -/
def sysReset (bit : Nat) (s : State) : State := if s.mod.power then resetWith (keptRegs bit s) s else s

/-- A POR: every register outside the VBAT domain at its reset value, RST_CAUSE with bit 0 alone. -/
def porReset (s : State) : State := if s.mod.power then resetWith [] s else s

/-- SYSRST_LOW (R426). -/
def execSysrstLow (tm : Nat) (s : State) : Host.Outcome State Fault Refusal := .next (sysReset 1 (advance s tm))

/-- ROOT_PLL_LOSS (R426). -/
def execRootPllLoss (tm : Nat) (s : State) : Host.Outcome State Fault Refusal := .next (sysReset 5 (advance s tm))

/-- The straps latched as `w`; MFG_TEST high sets RST_CAUSE bit 7 (R426, R443). -/
def latchStraps (w : Word) (s : State) : State :=
  let s1 := setReg s pgMode Off.STRAPS w
  if bit w 1 then orReg s1 pgMode Off.RST_CAUSE 0x80 else s1

/-- SUPPLY_MONITOR_TRIP (R431): a POR, which latches the straps anew; their balls are as they were (assumption 6). -/
def supplyTrip (tm : Nat) (s : State) : State :=
  let s0 := advance s tm
  if s0.mod.power then latchStraps (reg s0 pgMode Off.STRAPS) (porReset s0) else s0

/-- SUPPLY_MONITOR_TRIP. -/
def execSupplyMonitorTrip (tm : Nat) (s : State) : Host.Outcome State Fault Refusal := .next (supplyTrip tm s)

/-- PORST_LOW (R426). -/
def porstLow (tm : Nat) (s : State) : State := porReset (updMod (fun m => { m with porst := true }) (advance s tm))

/-- PORST_LOW. -/
def execPorstLow (tm : Nat) (s : State) : Host.Outcome State Fault Refusal := .next (porstLow tm s)

/-- PORST_RELEASE (R443, R426): the rising edge latches the straps, and MFG_TEST high sets RST_CAUSE bit 7. -/
def porstRelease (pref mfg : Bool) (tm : Nat) (s : State) : State :=
  let s0 := advance s tm
  if !s0.mod.porst || !s0.mod.power then updMod (fun m => { m with porst := false }) s0
  else latchStraps (word (b2n pref + b2n mfg * 2)) (updMod (fun m => { m with porst := false }) s0)

/-- PORST_RELEASE. -/
def execPorstRelease (pairPref mfgTest : Bool) (tm : Nat) (s : State) : Host.Outcome State Fault Refusal :=
  .next (porstRelease pairPref mfgTest tm s)

/-- TAP_RESET (R426): the TAP alone. -/
def execTapReset (tm : Nat) (s : State) : Host.Outcome State Fault Refusal := .next (advance s tm)

/-! ### Main power and VBAT (R422, R434) -/

/-- MAIN_POWER_ON: the device enters RESET; PORST_N is low while the rails rise (R432). -/
def mainPowerOn (tm : Nat) (s : State) : State :=
  let s0 := advance s tm
  if s0.mod.power then s0 else porReset (updMod (fun m => { m with power := true, porst := true, failLow := false }) s0)

/-- MAIN_POWER_ON. -/
def execMainPowerOn (tm : Nat) (s : State) : Host.Outcome State Fault Refusal := .next (mainPowerOn tm s)

/-- MODE_STAT of a device without main power. -/
def unpoweredMode (s : State) : State :=
  setReg s pgMode Off.MODE_STAT (word ((if s.mod.vbat then mRetain else mOff) + regFld s pgMode Off.MODE_STAT 0 4 * 16))

/-- MAIN_POWER_OFF: everything but the VBAT domain, the OTP and the flash is lost. -/
def mainPowerOff (tm : Nat) (s : State) : State :=
  let s0 := advance s tm
  if !s0.mod.power then s0
  else
    let s1 := unpoweredMode (updMod (fun m => { m with power := false, failLow := false }) (porReset s0))
    updVlt (fun v => { v with vbat := { v.vbat with retainSeen := v.vbat.retainSeen || s1.mod.vbat } }) s1

/-- MAIN_POWER_OFF. -/
def execMainPowerOff (tm : Nat) (s : State) : Host.Outcome State Fault Refusal := .next (mainPowerOff tm s)

/-- VBAT_RISE. -/
def vbatRise (tm : Nat) (s : State) : State :=
  let s0 := updMod (fun m => { m with vbat := true }) (advance s tm)
  if s0.mod.power then s0
  else updVlt (fun v => { v with vbat := { v.vbat with retainSeen := true } }) (unpoweredMode s0)

/-- VBAT_RISE. -/
def execVbatRise (tm : Nat) (s : State) : Host.Outcome State Fault Refusal := .next (vbatRise tm s)

/-- VBAT_FALL: the VBAT domain is reset, RET_LOST with it (spec/16_vault_and_boot.md R418). -/
def vbatFall (tm : Nat) (s : State) : State :=
  let s0 := updMod (fun m => { m with vbat := false }) (advance s tm)
  let s1 := updVlt (fun v => { v with vbat := { Vbat.init with rtcAt := s0.now } }) s0
  if s0.mod.power then showVault s1 else unpoweredMode s1

/-- VBAT_FALL. -/
def execVbatFall (tm : Nat) (s : State) : Host.Outcome State Fault Refusal := .next (vbatFall tm s)

/-! ### Power warning (R427) -/

/-- POWER_FAIL_WARNING: the gate closes, CAUSE 6 whether or not it was open, and RESIGN with CAUSE 3. -/
def powerWarning (tm : Nat) (s : State) : State :=
  let s0 := advance s tm
  if !s0.mod.power || s0.mod.failLow then s0
  else
    let s1 := setRegFld (closeGate 6 s0) pgPair0 Off.GATE_STAT 4 4 6
    setIrq pgMode 4 (updMod (fun m => { m with warnAt := some s0.now, failLow := true }) (sendResign 3 s1))

/-- POWER_FAIL_WARNING. -/
def execPowerFailWarning (tm : Nat) (s : State) : Host.Outcome State Fault Refusal := .next (powerWarning tm s)

/-- POWER_FAIL_RESET: 20 µs after the warning. -/
def powerFailReset (tm : Nat) (s : State) : State :=
  let s0 := advance s tm
  match s0.mod.warnAt with
  | some w => if w + 24000 ≤ tm then sysReset 4 s0 else s0
  | none => s0

/-- POWER_FAIL_RESET. -/
def execPowerFailReset (tm : Nat) (s : State) : Host.Outcome State Fault Refusal := .next (powerFailReset tm s)

/-- POWER_FAIL_RETURN: PWR_FAIL_N is high again. -/
def execPowerFailReturn (tm : Nat) (s : State) : Host.Outcome State Fault Refusal :=
  .next (updMod (fun m => { m with failLow := false }) (advance s tm))

/-! ### Mode commands (R422-R424, R436) -/

/-- TEST or TEST_END (R424): accepted in its modes, alone and in time. -/
def tickMode (kind : Nat) (ok : Bool) (s : State) : State :=
  if !ok then modeDone 1 s
  else if s.mod.pend.isSome then modeDone 2 s
  else if s32diff (reg s pgMode Off.MODE_AT) (nowTick s) < 2 then modeDone 3 s
  else
    setRegFld (updMod (fun m => { m with pend := some ⟨kind, absTick s (reg s pgMode Off.MODE_AT), false⟩ }) s) pgMode Off.MODE_STAT 8 3 kind

/-- MAINTAIN or MAINT_END: at once, with no other command pending. -/
def modeNow (src dst : Nat) (s : State) : State :=
  if mode s ≠ src then modeDone 1 s
  else if s.mod.pend.isSome then modeDone 2 s
  else modeDone 0 (setMode dst s)

/-- The effect of command bit `i` of MODE_CMD. -/
def modeCommand (i : Nat) (key : Nat) (s : State) : State :=
  match i with
  | 0 =>
    if mode s ≠ mProvision then modeDone 1 s
    else if s.vlt.otp.lifecycle = 1 && slotPresent s.vlt 1 && slotPresent s.vlt 2 then modeDone 0 (setMode mConfigure s)
    else modeDone 4 s
  | 1 => tickMode 1 (mode s = mShadow || mode s = mActive) s
  | 2 => tickMode 2 (mode s = mTest) s
  | 3 => modeNow mShadow mMaintain s
  | 4 => modeNow mMaintain mShadow s
  | 5 => if mode s < mVerify ∨ mode s = mSafe then modeDone 1 s else modeDone 0 (enterSafe 6 s)
  | _ => if key = 0xA5 then sysReset 2 s else modeDone 6 s

/-- A write of MODE_CMD: KEY is stored, and one command bit at most may be set. -/
def modeCmdWrite (tid : Nat) (data : Word) (s : State) : State :=
  access tid pgMode Off.MODE_CMD data (fun s =>
    let bits := (List.range 7).filter (fun i => bit data i)
    let s1 := setReg s pgMode Off.MODE_CMD (data &&& 0xFF000000)
    match bits with
    | [] => s1
    | [i] => modeCommand i (fld data 24 8) s1
    | _ => refuse pgMode 8 Off.MODE_CMD tid s) s

/-- CONFIGURE. -/
def execConfigure (tid : Nat) (data : Word) (s : State) : Host.Outcome State Fault Refusal := .next (modeCmdWrite tid (data ||| 0x01) s)

/-- TEST. -/
def execTestMode (tid : Nat) (data : Word) (s : State) : Host.Outcome State Fault Refusal := .next (modeCmdWrite tid (data ||| 0x02) s)

/-- TEST_END. -/
def execTestEnd (tid : Nat) (data : Word) (s : State) : Host.Outcome State Fault Refusal := .next (modeCmdWrite tid (data ||| 0x04) s)

/-- MAINTAIN. -/
def execMaintain (tid : Nat) (data : Word) (s : State) : Host.Outcome State Fault Refusal := .next (modeCmdWrite tid (data ||| 0x08) s)

/-- MAINT_END. -/
def execMaintEnd (tid : Nat) (data : Word) (s : State) : Host.Outcome State Fault Refusal := .next (modeCmdWrite tid (data ||| 0x10) s)

/-- SAFE. -/
def execSafeMode (tid : Nat) (data : Word) (s : State) : Host.Outcome State Fault Refusal := .next (modeCmdWrite tid (data ||| 0x20) s)

/-- SYS_RST. -/
def execSysRst (tid : Nat) (data : Word) (s : State) : Host.Outcome State Fault Refusal := .next (modeCmdWrite tid (data ||| 0x40) s)

/-- A pending TEST or TEST_END carried out at the edge of its tick. -/
def modeApply (kind : Nat) (dst : State → Nat) (tm : Nat) (s : State) : State :=
  let s0 := advance s tm
  match s0.mod.pend with
  | none => s0
  | some c =>
    if atEdge s0 tm && c.kind = kind && c.target = s0.tick.count then
      modeDone 0 (setMode (dst s0) (updMod (fun m => { m with pend := none }) s0))
    else s0

/-- TEST_ENTRY. -/
def execTestEntry (tm : Nat) (s : State) : Host.Outcome State Fault Refusal := .next (modeApply 1 (fun _ => mTest) tm s)

/-- TEST_EXIT: ACTIVE where the unit holds the Top, else SHADOW. -/
def execTestExit (tm : Nat) (s : State) : Host.Outcome State Fault Refusal :=
  .next (modeApply 2 (fun s => if holdsTop s then mActive else mShadow) tm s)

/-- The mode controller at a tick edge: a pending command whose edge the count has skipped is withdrawn (R424, R460). -/
def modeEdge (s : State) : State :=
  let n := s.tick.count
  match s.mod.pend with
  | none => s
  | some c =>
    if (c.target ≤ n && !c.sawPrev) || c.target < n then dropModePend s
    else if n + 1 = c.target then updMod (fun m => { m with pend := some { c with sawPrev := true } }) s
    else s

/-! ### Harts and the watchdog (R428, R436) -/

/-- HART_REL: each bit set releases a hart that is still held at its entry, from PROVISION onward. -/
def hartRelease (tid : Nat) (data : Word) (s : State) : State :=
  access tid pgMode Off.HART_REL data (fun s =>
    if mode s < mProvision then s
    else
      [1, 2, 3].foldl (fun s h =>
        if bit data h && !(s.mod.harts.any (fun x => x.1 = h)) then
          let e := (reg s pgMode (Off.HART_ENTRY_LO + 8 * (h - 1))).toNat + regFld s pgMode (Off.HART_ENTRY_HI + 8 * (h - 1)) 0 16 * 2 ^ 32
          updMod (fun m => { m with harts := tset m.harts h e }) s
        else s) s) s

/-- HART_RELEASE. -/
def execHartRelease (tid : Nat) (data : Word) (s : State) : Host.Outcome State Fault Refusal := .next (hartRelease tid data s)

/-- ME cycles in a millisecond. -/
abbrev msCycles : Nat := 1200000

/-- WDOG_CFG_WRITE: once; EN with PERIOD 0 is dropped with CMD_BAD. -/
def wdogCfgWrite (tid : Nat) (data : Word) (s : State) : State :=
  access tid pgMode Off.WDOG_CFG data (fun s =>
    if bit data 0 ∧ fld data 16 16 = 0 then refuse pgMode 8 Off.WDOG_CFG tid s
    else
      let s1 := setReg s pgMode Off.WDOG_CFG (data &&& 0xFFFF0003)
      if bit data 0 then updMod (fun m => { m with wdogAt := some (s1.now + fld data 16 16 * msCycles) }) s1 else s1) s

/-- WDOG_CFG_WRITE. -/
def execWdogCfgWrite (tid : Nat) (data : Word) (s : State) : Host.Outcome State Fault Refusal := .next (wdogCfgWrite tid data s)

/-- KICK reloads a running watchdog. -/
def wdogKick (tid : Nat) (s : State) : State :=
  access tid pgMode Off.WDOG_KICK 1 (fun s =>
    if s.mod.wdogAt.isSome then
      updMod (fun m => { m with wdogAt := some (s.now + regFld s pgMode Off.WDOG_CFG 16 16 * msCycles) }) s
    else s) s

/-- KICK. -/
def execKick (tid : Nat) (s : State) : Host.Outcome State Fault Refusal := .next (wdogKick tid s)

/-- WATCHDOG_EXPIRY. -/
def wdogExpiry (tm : Nat) (s : State) : State :=
  let s0 := advance s tm
  match s0.mod.wdogAt with
  | none => s0
  | some w =>
    if tm < w then s0
    else
      let s1 := updMod (fun m => { m with wdogAt := none }) s0
      if regBit s1 pgMode Off.WDOG_CFG 1 then sysReset 3 s1 else enterSafe 5 s1

/-- WATCHDOG_EXPIRY. -/
def execWatchdogExpiry (tm : Nat) (s : State) : Host.Outcome State Fault Refusal := .next (wdogExpiry tm s)

/-- VAULT_FAULT (R425). -/
def execVaultFault (tm : Nat) (s : State) : Host.Outcome State Fault Refusal := .next (enterSafe 7 (advance s tm))

/-! ### Clocks (R425, R430, R433) -/

/-- DDR_PLL_LOSS. -/
def execDdrPllLoss (tm : Nat) (s : State) : Host.Outcome State Fault Refusal :=
  .next (enterSafe 4 (clearReg (advance s tm) pgClk Off.PLL_STAT 8))

/-- SERDES_PLL_LOSS: a PLL that is locked takes the links it serves down. -/
def serdesPllLoss (pll tm : Nat) (s : State) : State :=
  let s0 := advance s tm
  if pll < 2 && regBit s0 pgClk Off.PLL_STAT (1 + pll) then
    let s1 := setReg s0 pgClk Off.PLL_STAT ((reg s0 pgClk Off.PLL_STAT &&& ~~~((2 : Word) <<< pll)) ||| ((0x100 : Word) <<< pll))
    (List.range 5).foldl (fun s p => if pllOf s p = pll && hasPort s p then dropLink p s else s) (setIrq pgClk 2 s1)
  else s0

/-- SERDES_PLL_LOSS. -/
def execSerdesPllLoss (pll tm : Nat) (s : State) : Host.Outcome State Fault Refusal := .next (serdesPllLoss pll tm s)

/-- CLOCK_MONITOR_WINDOW: `cycles` of the reference in one second. The rounding of MON_PPM is not stated: where it is not exact, the
lower or the higher value is free (assumption 40). -/
def monitorWindow (cycles tm : Nat) (s : State) : State :=
  let s0 := advance s tm
  let d : Int := (cycles : Int) - 25000000
  let q := d.fdiv 25
  let ppm := if d % 25 = 0 then q else q + (Config.freeNat s0.free % 2 : Nat)
  let s1 := setReg { s0 with free := s0.free + 1 } pgClk Off.MON_PPM (BitVec.ofInt 32 ppm)
  let s2 := clearReg s1 pgClk Off.MON_CFG 2
  let bad := if 10000 < d.natAbs then s2.mod.monBad + 1 else 0
  let s3 := updMod (fun m => { m with monBad := bad }) s2
  if 2 ≤ bad && regBit s3 pgClk Off.MON_CFG 0 then enterSafe 3 s3 else s3

/-- CLOCK_MONITOR_WINDOW. -/
def execClockMonitorWindow (cycles tm : Nat) (s : State) : Host.Outcome State Fault Refusal := .next (monitorWindow cycles tm s)

/-- RTC_LOST: no RTC edge for 2 ms; the monitor stops judging. -/
def execRtcLost (tm : Nat) (s : State) : Host.Outcome State Fault Refusal :=
  .next (setIrq pgClk 1 (orReg (updMod (fun m => { m with monBad := 0 }) (advance s tm)) pgClk Off.MON_CFG 2))

/-! ### Cluster power (R435) -/

/-- Whether cluster `c` may be powered down. -/
def clusterStopped (s : State) (c : Nat) : Bool :=
  (List.range 4).all (fun i => !(regBit s (pgMe (4 * c + i)) Off.CTRL 0) && !(engOf s (4 * c + i)).running)

/-- A write of CLU_PD. -/
def cluPdWrite (tid : Nat) (data : Word) (s : State) : State :=
  access tid pgClk Off.CLU_PD data (fun s =>
    let old := reg s pgClk Off.CLU_PD
    let new := data &&& word (2 ^ numClusters s.variant - 1)
    let down := (List.range 4).filter (fun c => bit new c && !(bit old c))
    if down.all (clusterStopped s) then
      setReg (clearReg s pgClk Off.PD_STAT new) pgClk Off.CLU_PD new
    else refuse pgClk 8 Off.CLU_PD tid s) s

/-- CLU_PD_WRITE. -/
def execCluPdWrite (tid : Nat) (data : Word) (s : State) : Host.Outcome State Fault Refusal := .next (cluPdWrite tid data s)

/-- Memory from `a` to `b` zero with valid ECC. -/
def clearMem (a b : Nat) (s : State) : State :=
  let out := fun w => !(a ≤ 8 * w && 8 * w < b)
  { s with mem := Memory.clear s.mem a (b - a), eccUe := s.eccUe.filter out, eccCe := s.eccCe.filter out }

/-- CLUSTER_READY: a cluster that is powered up is ready, its memories cleared. -/
def clusterReady (c tm : Nat) (s : State) : State :=
  let s0 := advance s tm
  if c < numClusters s0.variant && !(regBit s0 pgClk Off.CLU_PD c) && !(regBit s0 pgClk Off.PD_STAT c) then
    orReg (clearMem (imemPhys (4 * c) 0) (imemPhys (4 * c + 4) 0) (clearMem (clmPhys c 0) (clmPhys (c + 1) 0) s0)) pgClk Off.PD_STAT (1 <<< c)
  else s0

/-- CLUSTER_READY. -/
def execClusterReady (cluster tm : Nat) (s : State) : Host.Outcome State Fault Refusal := .next (clusterReady cluster tm s)

/-! ### Tamper (spec/16_vault_and_boot.md R417) -/

/-- TAMP_CFG(i). -/
def tampCfg (v : Vault) (i : Nat) : Word := tget 0 v.vbat.regs (0x30 + 4 * i)

/-- ERASE: every slot cleared and both record areas erased. -/
def eraseVault (s : State) : State := updVlt (fun v => { v with slots := [], areas := [], area := 1, gen := 0, epoch := 0 }) s

/-- TAMPER_EVENT: watched in every mode except OFF. -/
def tamperEvent (i tm : Nat) (s : State) : State :=
  let s0 := advance s tm
  let w := tampCfg s0.vlt i
  if 4 ≤ i || !(bit w 0) || !(s0.mod.power || s0.mod.vbat) then s0
  else
    let s1 := updVlt (fun v => { v with vbat := { v.vbat with
      latch := v.vbat.latch ||| 2 ^ i, times := tset v.vbat.times i (rtcTicks s0 tm / 32768 % 2 ^ 32), tampers := v.vbat.tampers + 1 } }) s0
    if !s1.mod.power then s1
    else
      let s2 := setIrq pgVlt 1 s1
      let s3 := if 1 ≤ fld w 2 2 then enterSafe 2 s2 else s2
      showVault (if 2 ≤ fld w 2 2 then eraseVault s3 else s3)

/-- TAMPER_EVENT. -/
def execTamperEvent (input tm : Nat) (s : State) : Host.Outcome State Fault Refusal := .next (tamperEvent input tm s)

end Sys2Proof.Machine
end

