-- ==== Sys2Proof/Machine/Boot.lean ====
section
/-!
DEFINITION. Secure boot: from the release of reset to PROVISION (spec/16_vault_and_boot.md R394-R398, R400, spec/17_modes_clocks_power.md R422).
-/
namespace Sys2Proof.Machine

/-! ### Boot images (R393, R395) -/

/-- Bytes of the flash part as the boot ROM reads them; an address that the operand does not list holds 0xFF, as erased (assumption 41). -/
def flashBytes (flash : List (Nat × Byte)) (a n : Nat) : List Byte := (List.range n).map (fun i => tget 0xFF flash (a + i))

/-- The flash offset of boot slot `k` (R393). -/
abbrev bootSlotAt (k : Nat) : Nat := 0x1000000 * k

/-- The sections of an image of TYPE `ty`. -/
def bootSections (ss : List ImgSection) (ty : Nat) : List ImgSection := ss.filter (fun x => x.type = ty)

/-- The content of the first section of TYPE `ty`, empty where there is none. -/
def bootContent (b : List Byte) (ss : List ImgSection) (ty : Nat) : List Byte :=
  match bootSections ss ty with
  | x :: _ => contentOf b x
  | [] => []

/-- Whether the sections are placed as R139 requires. -/
def bootPlaced (b : List Byte) (n : Nat) (ss : List ImgSection) : Bool :=
  ss.all (fun x => x.offset % 64 = 0 && x.length ≠ 0 && 0x40 + 16 * n ≤ x.offset && x.offset + x.length ≤ b.length)
  && (firstConflict (fun y x => meets (y.offset, y.offset + y.length) (x.offset, x.offset + x.length)) [] ss).isNone

/-- Whether the section types are those of R395: types 1-4 once each, contents of their forms, unknown types optional (assumption 41). -/
def bootTypes (b : List Byte) (ss : List ImgSection) : Bool :=
  [1, 2, 3, 4].all (fun ty => (bootSections ss ty).length = 1)
  && ss.all (fun x => (1 ≤ x.type && x.type ≤ 5) || x.flags % 2 = 1)
  && (bootContent b ss 1).length = 1984
  && (bootContent b ss 2).length ≤ 0x40000
  && (bootContent b ss 3).length % 8 = 0 && (bootContent b ss 3).length ≤ 4096
  && (let c := bootContent b ss 4
      16 ≤ c.length && leAt c 0 8 % 4096 = 0 && 0x800000000 ≤ leAt c 0 8 && leAt c 0 8 + (c.length - 16) ≤ 0xC00000000)
  && (bootSections ss 5).all (fun x => x.length = 16)

/-- Whether the image's keys are those that the lifecycle accepts (R396 code 4, R400). -/
def bootKeyOk (v : Vault) (keyIdx : Nat) (keys : List Byte) : Bool :=
  if v.otp.lifecycle = 1 then
    match v.otp.ownerBk.find? (fun x => x.1 = keyIdx) with
    | some x => keyIdx < 4 && !(v.otp.revoke.testBit keyIdx) && sha512 keys = x.2
    | none => false
  else Config.sha3_512 keys = Config.provisioningDigest

/-- The check of boot slot `k` in the order of R396: the code of the first failure, or the image. -/
def checkSlot (s : State) (flash : List (Nat × Byte)) (k : Nat) : Except Nat BootImage :=
  let at' := bootSlotAt k
  let h := flashBytes flash at' 64
  let n := leAt h 6 2
  let total := leAt h 0x10 4
  let fits := total % 64 = 0 && total + 3384 ≤ 0x1000000
  if leAt h 0 4 ≠ 0x544F4257 || leAt h 4 2 ≠ 1 then .error 1
  else if fits && leNat (flashBytes flash (at' + total) 4) ≠ 0x47495357 then .error 1
  else
    let b := flashBytes flash at' total
    let ss := (List.range n).map (sectionAt b)
    if !fits || n < 4 || 16 < n || !(bootPlaced b n ss) then .error 2
    else if !((leAt h 0xC 4).testBit (variantBit s.variant)) then .error 3
    else
      let keys := bootContent b ss 1
      if !(bootKeyOk s.vlt (leAt h 0x16 1) keys) then .error 4
      else
        match checkEnvelope keys (sha512 b) (flashBytes flash (at' + total) 3384) with
        | 1 => .error 5
        | 2 => .error 6
        | _ =>
          if leAt h 8 4 < s.vlt.otp.bootVer then .error 7
          else if !(bootTypes b ss) then .error 8
          else .ok {
            slot := k, version := leAt h 8 4, plat := bootContent b ss 4, body := sha512 b, vaultFw := sha512 (bootContent b ss 2)
            debug := if (bootSections ss 5).isEmpty then none else some (bootContent b ss 5), prov := s.vlt.otp.lifecycle ≠ 1 }

/-- Whether a slot's header shows the magic of a boot image. -/
def slotMagic (flash : List (Nat × Byte)) (k : Nat) : Bool := leNat (flashBytes flash (bootSlotAt k) 4) = 0x544F4257

/-- The VERSION that a slot's header shows. -/
def slotVersion (flash : List (Nat × Byte)) (k : Nat) : Nat := leNat (flashBytes flash (bootSlotAt k + 8) 4)

/-- The slots in the order in which the ROM checks them (R396). A slot without the magic is checked after the other one, and slot 0 first
where neither has it (assumption 41). -/
def slotOrder (flash : List (Nat × Byte)) : List Nat :=
  if slotMagic flash 1 && (!(slotMagic flash 0) || slotVersion flash 0 < slotVersion flash 1) then [1, 0] else [0, 1]

/-- BOOT_INFO's code of slot `k`. -/
def bootCode (k code : Nat) (s : State) : State := setRegFld s pgVlt Off.BOOT_INFO (4 * k) 4 code

/-- The slots tried in order: the first one that passes boots, and none of them passing stops the boot (R394, R396). -/
def trySlots (flash : List (Nat × Byte)) : List Nat → State → State
  | [], s => enterSafe 1 s
  | k :: r, s =>
    match checkSlot s flash k with
    | .error c => trySlots flash r (bootCode k c s)
    | .ok img =>
      extendMeas 2 img.vaultFw (extendMeas 1 img.body (updMod (fun m => { m with boot := some img }) (bootCode k 0 s)))

/-! ### RESET to VERIFY (R394 steps 1 and 2) -/

/-- The OTP fields at 0x0020-0x023F, which MEAS0 covers (R398). -/
def otpImage (o : Otp) : List Byte :=
  o.serial ++ leBytes 4 o.lifecycle ++ leBytes 4 o.revoke ++ (List.range 8).map Config.otpSpare
    ++ (List.range 4).flatMap (fun k => tget (List.replicate 64 0) o.ownerBk k)
    ++ (List.range 0xC0).map (fun i => Config.otpSpare (8 + i)) ++ Config.otpFuses o.bootVer

/-- Whether a tamper latch stands whose ACTION lies from `a` to `b`. -/
def latched (v : Vault) (a b : Nat) : Bool :=
  (List.range 4).any (fun i => v.vbat.latch.testBit i && a ≤ fld (tampCfg v i) 2 2 && fld (tampCfg v i) 2 2 ≤ b)

/-- Step 1: an ERASE latch carried out, and MEAS0. -/
def bootStep1 (s : State) : State :=
  let s1 := if latched s.vlt 2 3 then eraseVault s else s
  extendMeas 0 (sha512 (otpImage s1.vlt.otp ++ Config.romRevision)) s1

/-- Step 2 as it begins: VERIFY, the boot counted and RETAINED shown (R418). -/
def bootStep2 (s : State) : State :=
  setMode mVerify (updVlt (fun v => { v with vbat := { v.vbat with
    boots := v.vbat.boots + 1, retained := v.vbat.retainSeen, retainSeen := false } }) s)

/-- Whether nothing holds the device in RESET (R422, R426). -/
def resetReleased (s : State) : Bool :=
  mode s = mReset && s.mod.power && !s.mod.porst && !s.mod.failLow && !(regBit s pgMode Off.STRAPS 1)

/-- RESET_RELEASE: every reset source released and the root PLL locked. A latch with ACTION 1 stops the boot in SAFE; a latch whose ERASE
step 1 has carried out does not (R417; assumption 39). -/
def resetRelease (flash : List (Nat × Byte)) (tm : Nat) (s : State) : State :=
  let s0 := advance s tm
  if !(resetReleased s0) then s0
  else
    let s1 := bootStep2 (bootStep1 (orReg s0 pgClk Off.PLL_STAT 1))
    showVault (if latched s1.vlt 1 1 then enterSafe 2 s1 else trySlots flash (slotOrder flash) s1)

/-- RESET_RELEASE. -/
def execResetRelease (flash : List (Nat × Byte)) (tm : Nat) (s : State) : Host.Outcome State Fault Refusal := .next (resetRelease flash tm s)

/-! ### VERIFY to PROVISION (R394 steps 3 and 4) -/

/-- Step 3 done: PLAT_FW in LPDDR4X, MEAS3, core debug and the boot registers. -/
def bootStep3 (img : BootImage) (s : State) : State :=
  let s1 := writeMem (orReg s pgClk Off.PLL_STAT 8) (leAt img.plat 0 8) (img.plat.drop 16)
  let s2 := extendMeas 3 (sha512 img.plat) s1
  let s3 := match img.debug with
    | some d => if d = s2.vlt.otp.serial then updVlt (fun v => { v with debug := true }) (extendMeas 3 (sha512 d) s2) else s2
    | none => s2
  setReg (setRegFld (setRegFld s3 pgVlt Off.BOOT_INFO 8 1 img.slot) pgVlt Off.BOOT_INFO 9 1 (b2n img.prov)) pgVlt Off.BOOT_VERSION (word img.version)

/-- BOOT_COMPLETE: the record recovered, LPDDR4X initialised (`ddrOk`), the second pass over PLAT_FW (`plat`, as the flash then reads),
and PROVISION with hart 0 released at its entry; a failure of step 3 enters SAFE (R394, R396 codes 9 and 10, R397). -/
def bootComplete (ddrOk : Bool) (plat : List Byte) (tm : Nat) (s : State) : State :=
  let s0 := advance s tm
  match s0.mod.boot with
  | none => s0
  | some img =>
    if mode s0 ≠ mVerify then s0
    else
      let s1 := showVault (recoverRecord s0)
      if !ddrOk then enterSafe 1 (bootCode img.slot 10 s1)
      else if sha512 plat ≠ sha512 img.plat then enterSafe 1 (bootCode img.slot 9 s1)
      else
        let s2 := setMode mProvision (showVault (bootStep3 img s1))
        updMod (fun m => { m with boot := none, harts := tset m.harts 0 (leAt img.plat 8 8) }) s2

/-- BOOT_COMPLETE. -/
def execBootComplete (ddrOk : Bool) (plat : List Byte) (tm : Nat) (s : State) : Host.Outcome State Fault Refusal :=
  .next (bootComplete ddrOk plat tm s)

end Sys2Proof.Machine
end

