-- ==== Sys2Proof/Machine/Interrupts.lean ====
section
/-!
DEFINITION. The interrupt router: routing, the lines, claims and event stamps, and the ownership of pages
(spec/01_register_pages.md R23, R34-R42).
-/
namespace Sys2Proof.Machine

/-! ### Contexts and sources -/

/-- Whether source `n` can become pending (R34, R35). -/
def sourceExists (s : State) (n : Nat) : Bool :=
  if n < 128 then
    match sourcePage n with
    | some pg => pagePresent s.variant pg
    | none => false
  else n < 256 && (n - 128) / 8 < numTids s.variant

/-- The SRC_CFG register of source `n`. -/
def srcCfg (s : State) (n : Nat) : Word := reg s pgIrq0 (Off.SRC_CFG + 4 * n)

/-- The context to which a routing word directs its source: 16h + t, or 64 + h for a machine context (R42). -/
def contextOf (w : Word) : Nat := if bit w 12 then 64 + fld w 4 2 else 16 * fld w 4 2 + fld w 0 4

/-- Offset of the block of context `ctx` in IRQ page 1 (R36). -/
def contextOff (ctx : Nat) : Nat := 0x100 + 8 * ctx

/-- The priority above its context's THRESH with which source `n` reaches context `ctx` now, 0 where it does not (R37). -/
def deliveredPrio (s : State) (ctx n : Nat) : Nat :=
  let w := srcCfg s n
  if contextOf w = ctx && regFld s pgIrq1 (contextOff ctx) 0 3 < fld w 8 3 && pendingSrc s n then fld w 8 3 else 0

/-- The better of two candidate sources for a claim: the higher priority, then the lower number (R38). -/
def betterSource (best : Nat × Nat) (n p : Nat) : Nat × Nat := if best.2 < p then (n, p) else best

/-- The source that a claim of context `ctx` returns, 0 for none (R38). -/
def claimable (s : State) (ctx : Nat) : Nat :=
  ((List.range 256).foldl (fun b n => betterSource b n (deliveredPrio s ctx n)) (0, 0)).1

/-- Whether context `ctx` asserts its line (R37). -/
def lineOn (s : State) (ctx : Nat) : Bool := claimable s ctx ≠ 0

/-- The lines follow the sources (R37). -/
def updateLines (tm : Nat) (s : State) : State :=
  let s := advance s tm
  { s with irq := { s.irq with lines := idxWhere 68 (lineOn s) } }

/-- INTERRUPT_LINE_UPDATE (R37). -/
def execInterruptLineUpdate (tm : Nat) (s : State) : Host.Outcome State Fault Refusal := .next (updateLines tm s)

/-! ### Claims (R38, R41) -/

/-- The TID and the hart of a context. -/
def contextTid (ctx : Nat) : Nat := if ctx < 64 then ctx % 16 else 0
def contextHart (ctx : Nat) : Nat := if ctx < 64 then ctx / 16 else ctx - 64

/-- The event stamp of a claim of source `n` by context `ctx` (R41, R42). -/
def stampOf (s : State) (ctx n : Nat) : Stamp :=
  let started := (tbOf s 0).state ≠ .stopped
  let v := if started then tbSub s 0 s.now else 0
  let old := tget none (s.irq.stamps.map (fun p => (p.1, some p.2))) ctx
  let since := tget s.now s.irq.since n
  { ns := v / 65536 % 10 ^ 9, sec := v / 65536 / 10 ^ 9, sub := v % 65536, source := n, tid := contextTid ctx
    hart := contextHart ctx
    overwritten := match old with
      | some st => !st.taken
      | none => false
    notime := !started
    waitNs := min 0xFFFFFFFF ((s.now / 2 - since / 2) * 5 / 3)
    tick := nowTick s, taken := false }

/-- Source `n` claimed by context `ctx`, with its stamp (R38, R41). -/
def takeClaim (ctx n : Nat) (s : State) : State :=
  let st := stampOf s ctx n
  noteSource n { s with irq := { s.irq with claimed := tset s.irq.claimed n ctx, stamps := tset s.irq.stamps ctx st } }

/-- The effect of a CLAIM read that is in order. -/
def claimRead (ctx : Nat) (s : State) : State :=
  let n := claimable s ctx
  if n = 0 then { s with resp := .value 0 } else { takeClaim ctx n s with resp := .value (word n) }

/-- A CLAIM read by `tid`: judged as every access to the page, without the locks, which a read does not meet (R36, R38). -/
def readClaim (tid ctx : Nat) (s : State) : State :=
  let off := contextOff ctx + 4
  if 68 ≤ ctx then deny s
  else match judge s tid pgIrq1 off with
    | .error none => deny s
    | .error (some i) => deny (flagErr pgIrq1 i off tid false s)
    | .hold => { s with held := s.held ++ [⟨tid, pgIrq1, off, 0, true⟩], resp := .none }
    | .ok => claimRead ctx s

/-- CLAIM_READ (R38). -/
def execClaimRead (tid ctx : Nat) (s : State) : Host.Outcome State Fault Refusal := .next (readClaim tid ctx s)

/-- The claim of source `n` ends: it pends again where it is still asserted (R38). -/
def endClaim (n : Nat) (s : State) : State :=
  noteSource n { s with irq := { s.irq with claimed := tdel s.irq.claimed n } }

/-- Whether context `ctx` has claimed source `n`. -/
def claimedBy (s : State) (ctx n : Nat) : Bool := s.irq.claimed.any (fun p => p.1 = n && p.2 = ctx)

/-- A completion written to CLAIM (R38). -/
def completeClaim (tid ctx : Nat) (data : Word) (s : State) : State :=
  if 68 ≤ ctx then deny s
  else access tid pgIrq1 (contextOff ctx + 4) data (fun s =>
    let n := fld data 0 8
    if claimedBy s ctx n then endClaim n s
    else flagErr pgIrq1 8 (contextOff ctx + 4) tid true s) s

/-- CLAIM_COMPLETE (R38). -/
def execClaimComplete (tid ctx : Nat) (data : Word) (s : State) : Host.Outcome State Fault Refusal :=
  .next (completeClaim tid ctx data s)

/-! ### Routing (R36, R39, R40) -/

/-- Whether SRC_CFG of source `n` may hold routing word `w` (R36). -/
def routeAllowed (s : State) (n : Nat) (w : Word) : Bool :=
  let t := fld w 0 4
  let owner := if n < 128 then
      (match sourcePage n with
        | some pg => regFld s pg Off.TID_OWNER 0 4
        | none => 0)
    else (n - 128) / 8
  (t = 0 || t = owner) && !(bit w 12 && t ≠ 0)

/-- A write of SRC_CFG of source `n` (R36, R39). -/
def writeSrcCfg (tid n : Nat) (data : Word) (s : State) : State :=
  let off := Off.SRC_CFG + 4 * n
  if 256 ≤ n then deny s
  else access tid pgIrq0 off data (fun s =>
    if !sourceExists s n then s
    else if routeAllowed s n data then setReg s pgIrq0 off (data &&& 0x173F)
    else refuse pgIrq0 2 off tid s) s

/-- SRC_CFG_WRITE (R36). -/
def execSrcCfgWrite (tid src : Nat) (data : Word) (s : State) : Host.Outcome State Fault Refusal :=
  .next (writeSrcCfg tid src data s)

/-- The claim of source `n` released where a context of tenant `t` holds it (R40). -/
def releaseClaim (t n : Nat) (s : State) : State :=
  if s.irq.claimed.any (fun p => p.1 = n && p.2 < 64 && p.2 % 16 = t) then endClaim n s else s

/-- The router after page `pg` has passed from tenant `old` to tenant `new` (R40). -/
def ownerChanged (pg old new : Nat) (s : State) : State :=
  let n := srcOfPage pg
  let w := srcCfg s n
  let s1 := if n ≠ 0 ∧ fld w 0 4 ≠ 0 ∧ fld w 0 4 ≠ new then setReg s pgIrq0 (Off.SRC_CFG + 4 * n) (w &&& 0x1030) else s
  if old ≠ 0 ∧ n ≠ 0 then releaseClaim old n s1 else s1

/-- Page `pg` given to tenant `new` by the device or by TID 0 (R23, R40). -/
def giveOwner (pg new : Nat) (s : State) : State :=
  let old := regFld s pg Off.TID_OWNER 0 4
  if old = new then s
  else
    let s1 := ownerChanged pg old new (setReg s pg Off.TID_OWNER (word new))
    noteSource (128 + 8 * old + 5) (noteSource (128 + 8 * new + 5) s1)

/-- A write of TID_OWNER of page `pg`; a TEN page keeps what ADMIT and EVICT set (R23, spec/12_tenants.md R311), and an enabled recorder
its owner (spec/10_capture_unit.md R262). -/
def writeOwner (tid pg : Nat) (data : Word) (s : State) : State :=
  access tid pg Off.TID_OWNER data (fun s =>
    let t := fld data 0 4
    let ten := match pageAt pg with
      | some (.ten, _) => true
      | _ => false
    if numTids s.variant ≤ t || (ten && t ≠ regFld s pg Off.TID_OWNER 0 4) then refuse pg 2 Off.TID_OWNER tid s
    else if (match pageAt pg with | some (.cap, _) => regBit s pg Off.CTRL 0 | _ => false) then refuse pg 9 Off.TID_OWNER tid s
    else giveOwner pg t s) s

/-- TID_OWNER_WRITE (R23). -/
def execTidOwnerWrite (tid page : Nat) (data : Word) (s : State) : Host.Outcome State Fault Refusal :=
  .next (writeOwner tid page data s)

/-- Every tenant source of tenant `t` routed nowhere and its claim released (R40). -/
def evictRouting (t : Nat) (s : State) : State :=
  (List.range 8).foldl (fun s cls =>
    let n := 128 + 8 * t + cls
    endClaim n (setReg s pgIrq0 (Off.SRC_CFG + 4 * n) 0)) s

/-- The claims of the contexts of tenant `t` released (spec/12_tenants.md R297). -/
def releaseClaims (t : Nat) (s : State) : State :=
  (s.irq.claimed.map (·.1)).foldl (fun s n => releaseClaim t n s) s

end Sys2Proof.Machine
end

