-- ==== Sys2Proof/Machine/Tenants.lean ====
section
/-!
DEFINITION. The tenant manager: states, commands, shares, windows and resets (spec/12_tenants.md R286-R299).
-/
namespace Sys2Proof.Machine

/-! ### Results and commands (R290, R291) -/

/-- TEN_RESULT of tenant `t`: a code, the TEN_CMD bit reported and the loader's code. CMD_FAIL is raised for a refused or dropped
command (assumption 36). -/
def tenResultWith (t code cmd ld : Nat) (s : State) : State :=
  let s1 := setReg s (pgTen t) Off.TEN_RESULT (word (code + cmd * 256 + ld * 65536))
  if code = 0 ∨ code = 6 then s1 else setTenEvt (pgTen t) Off.TEVT t 7 0x10 s1

/-- A result without a loader's code. -/
def tenResult (t code cmd : Nat) (s : State) : State := tenResultWith t code cmd 0 s

/-- The modes in which the tenant manager accepts commands (R290). -/
def tenMode (s : State) : Bool :=
  mode s = mConfigure || mode s = mShadow || mode s = mActive || mode s = mTest || mode s = mMaintain

/-- A write of TEN_CMD of page `t` with command bit `cmd` alone, and its effect `body` where page, mode and writer allow it. -/
def tenCommand (tid t cmd : Nat) (body : State → State) (s : State) : State :=
  access tid (pgTen t) Off.TEN_CMD (word (2 ^ cmd)) (fun s =>
    if tid ≠ 0 ∧ cmd ≠ 4 then refuse (pgTen t) 2 Off.TEN_CMD tid s
    else if t = 0 then tenResult t 1 cmd s
    else if !tenMode s then tenResult t 2 cmd s
    else body s) s

/-- The state of tenant `t`. -/
def tenState (s : State) (t : Nat) : TenState := (tenOf s t).state

/-- ADMIT (R290). -/
def admitTenant (tid t : Nat) (s : State) : State :=
  tenCommand tid t 0 (fun s =>
    if tenState s t = .empty then tenResult t 0 0 (changeState t .loaded (giveOwner (pgTen t) t s)) else tenResult t 1 0 s) s

/-- ADMIT. -/
def execTenAdmit (tid tenant : Nat) (s : State) : Host.Outcome State Fault Refusal := .next (admitTenant tid tenant s)

/-- The target tick of a command written now, from TEN_AT (R291, R460). -/
def tenTarget (s : State) (t : Nat) : Nat := absTick s (reg s (pgTen t) Off.TEN_AT)

/-- START (1), FREEZE (2) or THAW (3): accepted from its state, not dirty, in time and with none pending (R290, R291). -/
def tickCommand (tid t kind : Nat) (src : TenState) (s : State) : State :=
  tenCommand tid t kind (fun s =>
    if tenState s t ≠ src then tenResult t 1 kind s
    else if kind = 1 ∧ (tenOf s t).dirty then tenResult t 9 kind s
    else if s32diff (reg s (pgTen t) Off.TEN_AT) (nowTick s) < 2 then tenResult t 3 kind s
    else if (tenOf s t).pend.isSome then tenResult t 4 kind s
    else tenResult t 0 kind (updTen t (fun x => { x with pend := some ⟨kind, tenTarget s t, false⟩ }) s)) s

/-- START. -/
def execTenantStart (tid tenant : Nat) (s : State) : Host.Outcome State Fault Refusal := .next (tickCommand tid tenant 1 .loaded s)

/-- FREEZE. -/
def execFreeze (tid tenant : Nat) (s : State) : Host.Outcome State Fault Refusal := .next (tickCommand tid tenant 2 .running s)

/-- THAW. -/
def execThaw (tid tenant : Nat) (s : State) : Host.Outcome State Fault Refusal := .next (tickCommand tid tenant 3 .frozen s)

/-- The pending command of tenant `t` withdrawn with a code. -/
def dropTenPend (t code : Nat) (s : State) : State :=
  match (tenOf s t).pend with
  | some c => tenResult t code c.kind (updTen t (fun x => { x with pend := none }) s)
  | none => s

/-- CANCEL (R291): before the edge of AT − 1. -/
def tenCancel (tid t : Nat) (s : State) : State :=
  tenCommand tid t 10 (fun s =>
    match (tenOf s t).pend with
    | none => tenResult t 1 10 s
    | some c =>
      if !c.sawPrev && nowTick s + 1 < c.target then tenResult t 6 10 (updTen t (fun x => { x with pend := none }) s) else s) s

/-- CANCEL. -/
def execTenantCancel (tid tenant : Nat) (s : State) : Host.Outcome State Fault Refusal := .next (tenCancel tid tenant s)

/-- FAULT (R290). -/
def tenFault (tid t : Nat) (s : State) : State :=
  tenCommand tid t 9 (fun s =>
    if tenState s t = .running ∨ tenState s t = .frozen then tenResult t 0 9 (updTen t (fun x => { x with faultPend := true }) s)
    else tenResult t 1 9 s) s

/-- FAULT. -/
def execFaultTenant (tid tenant : Nat) (s : State) : Host.Outcome State Fault Refusal := .next (tenFault tid tenant s)

/-! ### At a tick edge (R291, R292, R460) -/

/-- Whether FAULT_RUN of tenant `t` has reached a non-zero FAULT_LIMIT. -/
def limitReached (s : State) (t : Nat) : Bool :=
  regFld s (pgTen t) Off.FAULT_LIMIT 0 8 ≠ 0 && regFld s (pgTen t) Off.FAULT_LIMIT 0 8 ≤ regFld s (pgTen t) Off.FAULT_RUN 0 8

/-- Step 2 of R292 for tenant `t`: to FAULTED on its limit or on a FAULT command, which is then served. -/
def faultStep (t : Nat) (s : State) : State :=
  let hit := limitReached s t
  let s1 := updTen t (fun x => { x with faultPend := false }) s
  if (tenState s t = .running ∨ tenState s t = .frozen) ∧ (hit ∨ (tenOf s t).faultPend) then
    updTen t (fun x => { x with fcause := if hit then 1 else 2 }) (changeState t .faulted s1)
  else s1

/-- The TIDs that run at this edge (spec/03_marionette_engines.md R92). -/
def noteRunners (s : State) : State := { s with tick := { s.tick with runners := idxWhere 16 (tenRunning s) } }

/-- FAULT_APPLY and FAULT_LIMIT_REACHED (R292): at the tick edge. -/
def faultApply (t tm : Nat) (s : State) : State :=
  let s0 := advance s tm
  if atEdge s0 tm && t ≠ 0 && t < 16 && (tenOf s0 t).faultPend then noteRunners (faultStep t s0) else s0

/-- FAULT_APPLY. -/
def execFaultApply (tenant tm : Nat) (s : State) : Host.Outcome State Fault Refusal := .next (faultApply tenant tm s)

/-- FAULT_LIMIT_REACHED. -/
def faultLimit (t tm : Nat) (s : State) : State :=
  let s0 := advance s tm
  if atEdge s0 tm && t ≠ 0 && t < 16 && limitReached s0 t then noteRunners (faultStep t s0) else s0

/-- FAULT_LIMIT_REACHED. -/
def execFaultLimitReached (tenant tm : Nat) (s : State) : Host.Outcome State Fault Refusal := .next (faultLimit tenant tm s)

/-- Step 3 of R292: the pending command `kind` of tenant `t` at the edge of its target, after step 2 for that tenant. -/
def tickApply (t tm kind : Nat) (src dst : TenState) (body : Nat → Tenant → Tenant) (s : State) : State :=
  let s0 := advance s tm
  if !(atEdge s0 tm) || 16 ≤ t || t = 0 then s0
  else
    match (tenOf s0 t).pend with
    | none => s0
    | some c =>
      if c.kind ≠ kind ∨ c.target ≠ s0.tick.count then s0
      else
        let s1 := faultStep t s0
        if tenState s1 t ≠ src then noteRunners (dropTenPend t 1 s1)
        else noteRunners (changeState t dst (updTen t (fun x => body s1.tick.count { x with pend := none }) s1))

/-- TENANT_START_APPLY. -/
def execTenantStartApply (tenant tm : Nat) (s : State) : Host.Outcome State Fault Refusal :=
  .next (tickApply tenant tm 1 .loaded .running (fun _ x => x) s)

/-- FREEZE_APPLY (R301): the last executed tick is F − 1. -/
def execFreezeApply (tenant tm : Nat) (s : State) : Host.Outcome State Fault Refusal :=
  .next (tickApply tenant tm 2 .running .frozen (fun n x => { x with freezeTick := n }) s)

/-- THAW_APPLY (R308): MISSED = R − F. -/
def thawApply (t tm : Nat) (s : State) : State :=
  let s1 := tickApply t tm 3 .frozen .running (fun n x => { x with thawTick := n }) s
  if tenState s t = .frozen ∧ tenState s1 t = .running then
    setReg s1 (pgTen t) Off.TMISSED (word (min 0xFFFFFFFF (s1.tick.count - (tenOf s1 t).freezeTick)))
  else s1

/-- THAW_APPLY. -/
def execThawApply (tenant tm : Nat) (s : State) : Host.Outcome State Fault Refusal := .next (thawApply tenant tm s)

/-- The tenant manager at a tick edge, before the commands due at it: commands whose edges the count has skipped end with ABORTED, and
at the edge of AT − 1 the pair must report a match (R291, R460). -/
def pendEdge (t : Nat) (s : State) : State :=
  let n := s.tick.count
  match (tenOf s t).pend with
  | none => s
  | some c =>
    if (c.target ≤ n && !c.sawPrev) || c.target < n then dropTenPend t 7 s
    else if n + 1 = c.target then
      if mode s ≠ mConfigure && mode s ≠ mFenced && !(cmdMatch s t c.kind c.target) then dropTenPend t 5 s
      else updTen t (fun x => { x with pend := some { c with sawPrev := true } }) s
    else s

/-! ### Shares and windows (R288, R293-R295) -/

/-- TOTAL(r). -/
def shareTotal (r : Nat) : Nat := [64, 1024, 512, 1024].getD r 0

/-- The written SHARE(r) of tenant `t`. -/
def shareWritten (s : State) (t r : Nat) : Nat := regFld s (pgTen t) (Off.SHARE + 4 * r) 0 11

/-- OCC(r) of tenant `t`: crypto jobs, fabric transactions, and for r = 2 and 3 the highest occupancy of any port. -/
def tenOcc (s : State) (t r : Nat) : Nat :=
  match r with
  | 0 => vqOcc s t
  | 1 => fabricOcc s t
  | 2 => (List.range 4).foldl (fun m p => max m (ringOcc s (txRing p t))) 0
  | _ => (List.range 4).foldl (fun m p => max m (ringOcc s (rxRing p t))) 0

/-- The depth of tenant `t` in resource `r` put in effect. -/
def setDepth (t r d : Nat) (s : State) : State := admitFabric (updTen t (fun x => { x with depth := x.depth.set r d }) s)

/-- A write of SHARE(r) (R293-R295): a reduction applies at once, an increase waits for a tick edge. -/
def shareWrite (tid t r : Nat) (data : Word) (s : State) : State :=
  let off := Off.SHARE + 4 * r
  if 4 ≤ r then deny s
  else access tid (pgTen t) off data (fun s =>
    let d := fld data 0 11
    let others := (List.range (numTids s.variant)).foldl (fun a u => a + (if u = t then 0 else shareWritten s u r)) 0
    if shareTotal r < others + d then refuse (pgTen t) 9 off tid s
    else
      let s1 := setReg s (pgTen t) off (word d)
      if d ≤ shareOf s t r then setDepth t r d s1 else s1) s

/-- SHARE_WRITE. -/
def execShareWrite (tid tenant r : Nat) (data : Word) (s : State) : Host.Outcome State Fault Refusal :=
  .next (shareWrite tid tenant r data s)

/-- SHARE_INCREASE_APPLY (R295): at a tick edge with room. SHARE_u is taken as the depth in effect (assumption 36). -/
def shareIncrease (t r tm : Nat) (s : State) : State :=
  let s0 := advance s tm
  let d := shareWritten s0 t r
  let others := (List.range (numTids s.variant)).foldl (fun a u => a + (if u = t then 0 else max (shareOf s0 u r) (tenOcc s0 u r))) 0
  if atEdge s0 tm && r < 4 && t < 16 && shareOf s0 t r < d && d + others ≤ shareTotal r then
    setTenEvt (pgTen t) Off.TEVT t 7 0x20 (setDepth t r d s0)
  else s0

/-- SHARE_INCREASE_APPLY. -/
def execShareIncreaseApply (tenant r tm : Nat) (s : State) : Host.Outcome State Fault Refusal := .next (shareIncrease tenant r tm s)

/-- Whether DDR_WIN(w) of tenant `t` may not hold `data` (R288). 16 GiB are installed (assumption 38). -/
def windowBad (s : State) (t : Nat) (data : Word) : Bool :=
  let b := fld data 0 14
  let l := fld data 16 14
  let other := fun u w => let r := reg s (pgTen u) (Off.DDR_WIN + 4 * w)
    fld r 0 14 < fld r 16 14 && b < fld r 16 14 && fld r 0 14 < l && b < l
  (List.range 16).any (fun u => u ≠ 0 && u ≠ t && (List.range 4).any (fun w => other u w))
  || l < b || 8192 < l || !(tenState s t = .empty || tenState s t = .loaded)

/-- A write of DDR_WIN(w) (R288); on TEN page 0 it is RO. -/
def ddrWinWrite (tid t w : Nat) (data : Word) (s : State) : State :=
  let off := Off.DDR_WIN + 4 * w
  if 4 ≤ w then deny s
  else access tid (pgTen t) off data (fun s =>
    if t = 0 then s
    else if windowBad s t data then refuse (pgTen t) 8 off tid s
    else setReg s (pgTen t) off (data &&& 0x3FFF3FFF)) s

/-- DDR_WIN_WRITE. -/
def execDdrWinWrite (tid tenant w : Nat) (data : Word) (s : State) : Host.Outcome State Fault Refusal :=
  .next (ddrWinWrite tid tenant w data s)

/-- An access to LPDDR4X with TID `tid` (R288, R296): outside its windows, or behind its fence, it is answered with an access error.
A read that in-line ECC rejects is answered so too, and sets ECC in the DDR page (spec/17_modes_clocks_power.md R426; assumption 8). -/
def ddrAccess (tid addr len : Nat) (write : Option (List Byte)) (s : State) : State :=
  if (tid ≠ 0 ∧ tenState s tid = .resetting) ∨ !inWindow s tid addr len then deny s
  else
    match write with
    | some bs => { writeMem s addr (bs.take len) with resp := .done }
    | none => if readableMem s addr len then { s with resp := .bytes (readMem s addr len) } else deny (hwErr pgDdr 3 s)

/-- DDR_ACCESS. -/
def execDdrAccess (tid addr len : Nat) (write : Option (List Byte)) (s : State) : Host.Outcome State Fault Refusal :=
  .next (ddrAccess tid addr len write s)

/-! ### EVICT (R290, R461) -/

/-- Whether a configuration entry of a real-time unit names tenant `t`. -/
def entryNames (s : State) (t : Nat) : Bool :=
  s.hop.subs.any (fun p => subTid p.2 = t)
  || (List.range 64).any (fun c => chainTid s c = t)
  || s.met.points.any (fun p => ptTid p.2 = t)
  || (List.range 8).any (fun o => poTid s o = t)
  || (List.range 256).any (fun i => laneTid (laneWritten s i) = t) || s.car.lanes.any (fun l => laneTid l.2 = t)
  || s.gse.pubs.any (fun p => pubTid p.2 = t) || s.gse.subs.any (fun k => gsubTid k.2 = t)
  || (frameRange s t).1 < (frameRange s t).2

/-- Whether a partition-table entry, as written or as applied, names tenant `t`. -/
def partitionNames (s : State) (t : Nat) : Bool :=
  (List.range 16).any (fun n =>
    (List.range 16).any (fun p => (writtenEntry s n p).valid && (writtenEntry s n p).tid = t)
    || (engOf s n).table.any (fun p => p.2.valid && p.2.tid = t))

/-- Whether a MAC ring, the vault ring, a classification entry or a port's DEFAULT_TID names tenant `t`. -/
def portNames (s : State) (t : Nat) : Bool :=
  (List.range 4).any (fun p => ringEn s (txRing p t) || ringEn s (rxRing p t) || regFld s (pgPort p) Off.PCFG 20 4 = t
    || (List.range 32).any (fun e => regBit s (pgPort p) (Off.CL_TMASK + 0x10 * e) t))
  || vqEn s t

/-- Whether a resource names tenant `t` (R461). -/
def namesTenant (s : State) (t : Nat) : Bool :=
  entryNames s t || partitionNames s t || portNames s t || lpEn s t
  || (presentPages s.variant).any (fun pg => pg ≠ pgTen t && regFld s pg Off.TID_OWNER 0 4 = t)
  || s.vlt.slots.any (fun k => 16 ≤ k.1 && k.2.kind ≠ .empty && k.2.tid = t)
  || (List.range 4).any (fun w => (ddrWin s t w).1 < (ddrWin s t w).2)

/-- EVICT (R290, R40). -/
def evictTenant (tid t : Nat) (s : State) : State :=
  tenCommand tid t 8 (fun s =>
    if tenState s t ≠ .loaded then tenResult t 1 8 s
    else if namesTenant s t || (List.range 4).any (fun r => tenOcc s t r ≠ 0) then tenResult t 8 8 s
    else
      let s1 := evictRouting t (giveOwner (pgTen t) 0 s)
      let s2 := (List.range 4).foldl (fun s r => setReg s (pgTen t) (Off.SHARE + 4 * r) 0) s1
      tenResult t 0 8 (changeState t .empty (updTen t (fun x => { x with depth := [0, 0, 0, 0] }) s2))) s

/-- EVICT. -/
def execEvict (tid tenant : Nat) (s : State) : Host.Outcome State Fault Refusal := .next (evictTenant tid tenant s)

/-! ### Reset (R296-R299) -/

/-- The rows of R297, ME partitions first. -/
abbrev drainRows : List Nat := List.range 13

/-- An engine whose open window belongs to tenant `t` issues nothing further in it (R297). -/
def muteEngines (t : Nat) (s : State) : State :=
  (List.range (numEngines s.variant)).foldl (fun s n =>
    match (engOf s n).part with
    | some p => if (partEntry s n p).tid = t then updEng n (fun e => { e with muted := true }) s else s
    | none => s) s

/-- Blocks of tenant `t` in the Carafe's ports, discarded (spec/08_carafe_publication.md R209). -/
def dropBlocks (t : Nat) (s : State) : State :=
  { s with car := { s.car with ports := s.car.ports.map (fun p => (p.1, p.2.filter (fun b => b.tid ≠ t))) } }

/-- What the engines discard at the fence of tenant `t`, before their commit points (R297; assumption 36). -/
def fenceWork (t : Nat) (s : State) : State :=
  let s1 := dropBlocks t (muteEngines t { s with tick := { s.tick with runners := s.tick.runners.filter (· ≠ t) } })
  let s2 := lgrTenReset t (capTenReset t (qeTenReset t (decTenReset t s1)))
  let s3 := (List.range 4).foldl (fun s p => stopRxRing p t 4 (stopTxRing p t 9 s)) s2
  releaseClaims t (vaultTenReset t { s3 with fabric := s3.fabric.filter (fun f => f.tid ≠ t) })

/-- RESET while a SAVE, RESTORE or RELOAD runs: `stop` is what was written of it, and a write pass leaves DIRTY (R299). -/
def abortJob (t : Nat) (stop : TenJob → State → State) (s : State) : State :=
  match (tenOf s t).job with
  | none => s
  | some j =>
    tenResult t 7 j.op (updTen t (fun x => { x with job := none, dirty := x.dirty || j.op ≠ 5 }) (stop j s))

/-- RESET (R296, R299). -/
def tenReset (stop : Nat → TenJob → State → State) (tid t : Nat) (s : State) : State :=
  tenCommand tid t 4 (fun s =>
    match tenState s t with
    | .resetting => tenResult t 4 4 s
    | .empty => tenResult t 1 4 s
    | _ =>
      let s1 := abortJob t (stop t) (dropTenPend t 7 s)
      let s2 := updTen t (fun x => { x with faultPend := false, fenceAt := s1.now, draining := drainRows }) s1
      tenResult t 0 4 (fenceWork t (changeState t .resetting s2))) s

/-- The TEN(t) domain (R33, spec/01_register_pages.md): the pages of `t`, its snapshots, and its state in the units. -/
def tenDomain (t : Nat) (s : State) : State :=
  let s1 := (presentPages s.variant).foldl (fun s pg =>
    if regFld s pg Off.TID_OWNER 0 4 = t then resetPage pg s
    else if (mailbox s pg).owner = t then releaseMailbox pg s else s) s
  let s2 := lgrTenReset t (capTenReset t (qeTenReset t (gooseTenReset t (decTenReset t (hopTenReset t s1)))))
  setReg s2 (pgTen t) Off.FAULT_RUN 0

/-- ENGINE_DRAIN_COMPLETE (R297): after the last of them the TEN(t) domain is applied, the tenant is LOADED, and RESET_DONE. -/
def drainComplete (t row tm : Nat) (s : State) : State :=
  let s0 := advance s tm
  let x := tenOf s0 t
  if x.state ≠ .resetting || !(x.draining.contains row) then s0
  else
    let rest := x.draining.filter (· ≠ row)
    let s1 := updTen t (fun x => { x with draining := rest, lastDrain := row }) s0
    if rest ≠ [] then s1
    else
      let s2 := changeState t .loaded (tenDomain t s1)
      let s3 := countReg s2 (pgTen t) Off.RESET_COUNT 1
      let s4 := setReg s3 (pgTen t) Off.TDRAIN_LAST (word (min 0xFFFF ((s0.now - x.fenceAt) / 2) + row * 65536))
      setIrq pgTens 2 (setTenEvt (pgTen t) Off.TEVT t 7 2 s4)

/-- ENGINE_DRAIN_COMPLETE. -/
def execEngineDrainComplete (tenant engine tm : Nat) (s : State) : Host.Outcome State Fault Refusal :=
  .next (drainComplete tenant engine tm s)

/-- A soft reset of the tenant manager cancels pending AT commands (R312). -/
def tenSoftReset (s : State) : State := (List.range 16).foldl (fun s t => dropTenPend t 7 s) s

end Sys2Proof.Machine
end

