-- ==== Sys2Proof/Machine/Migration.lean ====
section
/-!
DEFINITION. SAVE, RESTORE and RELOAD of a tenant (spec/12_tenants.md R299-R307). The byte forms that the spec does not fix are those of
assumption 36.
-/
namespace Sys2Proof.Machine

/-! ### What belongs to a tenant -/

/-- The partition entry in force of tenant `t` on engine `n`. -/
def tenEntry (s : State) (n t : Nat) : Option PartEntry := ((engOf s n).table.find? (fun p => p.2.valid && p.2.tid = t)).map (·.2)

/-- The engines on which tenant `t` has a partition. -/
def tenEngines (s : State) (t : Nat) : List Nat := idxWhere (numEngines s.variant) (fun n => (tenEntry s n t).isSome)

/-- The DMEM regions of tenant `t` that are not empty: engine, region, address and length. -/
def dmemRegions (s : State) (t : Nat) : List (Nat × Nat × Nat × Nat) :=
  (tenEngines s t).flatMap (fun n => match tenEntry s n t with
    | some e => [(n, 0, dmemPhys n (1024 * e.dmem0Base), 1024 * (e.dmem0Limit - e.dmem0Base)),
                 (n, 1, dmemPhys n (1024 * e.dmem1Base), 1024 * (e.dmem1Limit - e.dmem1Base))].filter (fun r => r.2.2.2 ≠ 0)
    | none => [])

/-- The cluster region of tenant `t` in cluster `c`: address and length, none where it is empty. -/
def clmRegion (s : State) (c t : Nat) : Option (Nat × Nat) :=
  match ((List.range 4).filterMap (fun i => tenEntry s (4 * c + i) t)).head? with
  | some e => if e.clmBase < e.clmLimit then some (clmPhys c 0 + 4096 * e.clmBase, 4096 * (e.clmLimit - e.clmBase)) else none
  | none => none

/-- The clusters with their regions of tenant `t`. -/
def clmRegions (s : State) (t : Nat) : List (Nat × Nat × Nat) :=
  (List.range (numClusters s.variant)).filterMap (fun c => (clmRegion s c t).map (fun r => (c, r.1, r.2)))

/-- The QE points, the GOOSE publications and the lane blocks of tenant `t`, in rising order. -/
def tenPoints (s : State) (t : Nat) : List Nat := (s.met.points.filter (fun p => ptTid p.2 = t)).map (·.1)
def tenPubs (s : State) (t : Nat) : List Nat := (s.gse.pubs.filter (fun p => pubTid p.2 = t)).map (·.1)
def tenBlocks (s : State) (t : Nat) : List Nat :=
  idxWhere 4096 (fun b => s.car.lanes.any (fun l => laneTid l.2 = t && laneBase l.2 ≤ b && b < laneLimit l.2))

/-! ### The configuration digest (R305) -/

/-- Words as bytes. -/
def wordsBytes (ws : List Word) : List Byte := ws.flatMap (fun w => leBytes 4 w.toNat)

/-- The configuration records of tenant `t`. -/
def configBytes (s : State) (t : Nat) : List Byte :=
  let subs := (s.hop.subs.filter (fun p => subEn p.2 && subTid p.2 = t)).flatMap (fun p =>
    [p.2.daLo, p.2.daHi, p.2.vlan, p.2.confRev, p.2.layout, p.2.frame, p.2.policy, p.2.svidLen] ++ p.2.svid)
  let chains := (idxWhere 64 (fun c => chainEn s c && chainTid s c = t)).flatMap (fun c =>
    [dch s c Off.DCH_SRC, dch s c Off.DCH_OUT, dch s c Off.DCH_CTRL, bankCfg s c 0, bankCfg s c 1]
      ++ (List.range 256).map (fun i => coefOf s c (i / 128) (i % 128)))
  let points := (s.met.points.filter (fun p => ptEn p.2 && ptTid p.2 = t)).flatMap (fun p => stageOffsets.map (ptWord p.2))
  let lanes := (s.car.lanes.filter (fun l => laneEn l.2 && laneTid l.2 = t)).flatMap (fun l => [l.2.1, l.2.2])
  let pubs := (s.gse.pubs.filter (fun p => pubEn p.2 && pubTid p.2 = t)).flatMap (fun p => pubOffs.map (pw p.2))
  let gsubs := (s.gse.subs.filter (fun k => gsubEn k.2 && gsubTid k.2 = t)).flatMap (fun k => gsubOffs.map (sw k.2))
  let logic := if lpEn s t then
      [Off.LP_CTRL, Off.LP_ELEM, Off.LP_TMR, Off.LP_EDG, Off.LP_OUT, Off.LP_GPIO].map (lp s t) else []
  let prog := if lpEn s t then
      (partOf s t).elems.flatMap (fun e => leBytes 8 e.toNat)
        ++ (List.range (lpTimers s t)).flatMap (fun i => leBytes 4 (tget LTimer.init (partOf s t).timers i).pt) else []
  wordsBytes (subs ++ [reg s pgHop2 (Off.FRANGE + 4 * t)] ++ chains ++ points ++ lanes ++ pubs ++ gsubs ++ logic) ++ prog

/-! ### The payload (R303) -/

/-- A payload section, padded to a 64-byte boundary. -/
def sectionBytes (type unit index : Nat) (c : List Byte) : List Byte :=
  leBytes 2 type ++ leBytes 1 unit ++ leBytes 1 index ++ leBytes 4 c.length ++ List.replicate 8 0 ++ c
    ++ List.replicate ((64 - (16 + c.length) % 64) % 64) 0

/-- The state of the logic partition of tenant `t`. -/
def logicBytes (s : State) (t : Nat) : List Byte :=
  let p := partOf s t
  (List.range p.elems.length).flatMap (fun i =>
    let x := p.points.getD i LPoint.init
    leBytes 4 x.u.toNat ++ leBytes 4 x.v.toNat ++ leBytes 4 (b2n x.invU + b2n x.invV * 2 + b2n x.frc * 4))
  ++ (List.range (lpTimers s t)).flatMap (fun i =>
    let x := tget LTimer.init p.timers i
    leBytes 4 x.e ++ leBytes 1 x.st ++ leBytes 1 (b2n x.pv) ++ [0, 0] ++ leBytes 4 x.pt ++ leBytes 4 (x.expiry.getD 0))
  ++ (List.range ((lpEdges s t + 7) / 8)).flatMap (fun i =>
    leBytes 1 ((List.range 8).foldl (fun a b => a + b2n (p.edges.contains (8 * i + b)) * 2 ^ b) 0))

/-- The state of a QE point. -/
def pointBytes (s : State) (m : Nat) : List Byte :=
  let x := pointOf s m
  leBytes 4 m ++ (List.range 6).flatMap (fun a => leBytes 8 (accOf x a).value)
    ++ (List.range 6).flatMap (fun a => leBytes 8 (accOf x a).residue.toNat)
    ++ (List.range 6).flatMap (fun a => leBytes 2 (accOf x a).wraps) ++ List.replicate 4 0 ++ leBytes 4 x.missed

/-- The state of a publication: its next transmission as ticks from now, 0 where none is scheduled. -/
def pubBytes (s : State) (p : Nat) : List Byte :=
  let x := pubOf s p
  leBytes 4 p ++ leBytes 4 x.stNum ++ leBytes 4 x.sqNum
    ++ leBytes 4 (match x.next with | some k => k - s.tick.count | none => 0) ++ leBytes 4 x.interval

/-- A block as in the front buffer. -/
def laneBlock (s : State) (b : Nat) : List Byte :=
  (List.range 8).flatMap (fun e => leBytes 4 (published s b e).1.toNat ++ leBytes 4 (published s b e).2.toNat)

/-- The sections of the payload of tenant `t`; one without content is left out. -/
def payloadSections (s : State) (t : Nat) : List (List Byte) :=
  (dmemRegions s t).map (fun r => sectionBytes 1 r.1 r.2.1 (readMem s r.2.2.1 r.2.2.2))
  ++ (clmRegions s t).map (fun r => sectionBytes 2 r.1 0 (readMem s r.2.1 r.2.2))
  ++ [(3, logicBytes s t), (4, (tenPoints s t).flatMap (pointBytes s)), (5, (tenPubs s t).flatMap (pubBytes s)),
      (6, (tenBlocks s t).flatMap (laneBlock s))].filterMap (fun x => if x.2 = [] then none else some (sectionBytes x.1 0 0 x.2))

/-! ### Keys (R304) -/

/-- The encryption key of an image: derived from the migration node, slot 6. -/
def migKey (v : Vault) (t : Nat) (salt : List Byte) : Nat :=
  deriveKey (keyOf v 6) (beBytes 32 (Config.sha3_256 (("WLN-MIG-ENC".toList.map (fun c => BitVec.ofNat 8 c.toNat)) ++ leBytes 1 t ++ salt)))

/-- Whether the vault grants a use of the migration node: 1 derives, 2 signs (spec/16_vault_and_boot.md R403, R405). -/
def migKeyOk (s : State) (use : Nat) : Bool := slotStatus s.vlt 6 0 use = 0

/-! ### SAVE (R302, R303) -/

/-- MIG_ADDR and MIG_LEN of TEN page `t`. -/
def migAddr (s : State) (t : Nat) : Nat :=
  (reg s (pgTen t) Off.MIG_ADDR_LO).toNat + regFld s (pgTen t) Off.MIG_ADDR_HI 0 16 * 2 ^ 32
def migLen (s : State) (t : Nat) : Nat := (reg s (pgTen t) Off.MIG_LEN).toNat

/-- The header of the image of tenant `t` (R303). -/
def migHeader (s : State) (t sections payload : Nat) (salt nonce : List Byte) : List Byte :=
  leBytes 4 0x47494D57 ++ leBytes 2 1 ++ leBytes 1 t ++ [0] ++ leBytes 4 (rateHz s) ++ leBytes 4 sections
    ++ leBytes 8 (tenOf s t).freezeTick ++ leBytes 4 payload ++ List.replicate 4 0 ++ salt
    ++ beBytes 64 (tget (Config.sha3_512 []) s.str.tenantMsg t) ++ sha512 (configBytes s t) ++ nonce ++ List.replicate 52 0

/-- The whole image of tenant `t`, with SALT, NONCE and the randomness of its signature from the vault. -/
def migImage (s : State) (t : Nat) : List Byte :=
  let secs := payloadSections s t
  let pay := secs.flatten
  let rnd := Config.random s.free 76
  let salt := rnd.take 32
  let nonce := (rnd.drop 32).take 12
  let h := migHeader s t secs.length pay.length salt nonce
  let body := h ++ (Config.gcmSeal (migKey s.vlt t salt) nonce h pay).take (pay.length + 16) ++ List.replicate 48 0
  body ++ envelopeOf (keyOf s.vlt 6) (sha512 body) (rnd.drop 44)

/-- The size of an image with a payload of `n` bytes. -/
def migSize (n : Nat) : Nat := 256 + n + 16 + 48 + 3384

/-- SAVE: state, alignment, space and keys, then the write of the image begins. -/
def tenSave (tid t : Nat) (s : State) : State :=
  tenCommand tid t 5 (fun s =>
    let a := migAddr s t
    let n := migSize (payloadSections s t).flatten.length
    if tenState s t ≠ .frozen then tenResult t 1 5 s
    else if (tenOf s t).job.isSome then tenResult t 4 5 s
    else if a < 0x800000000 || 0xC00000000 < a + n then tenResult t 0xB 5 s
    else if migLen s t < n then tenResult t 0xA 5 (setReg s (pgTen t) Off.MIG_USED (word n))
    else if !(migKeyOk s 1 && migKeyOk s 2 && s.vlt.entropyOk) then tenResult t 0x15 5 s
    else
      updTen t (fun x => { x with job := some ⟨5, migImage s t, x.freezeTick⟩ }) { s with free := s.free + 1 }) s

/-- SAVE. -/
def execSave (tid tenant : Nat) (s : State) : Host.Outcome State Fault Refusal := .next (tenSave tid tenant s)

/-- The job `op` of tenant `t` ends with a result; SAVE_DONE (R302), RESTORE_DONE (R307) or nothing for RELOAD. -/
def endJob (t op evt : Nat) (s : State) : State :=
  tenResult t 0 op (setTenEvt (pgTen t) Off.TEVT t 7 (word evt) (updTen t (fun x => { x with job := none }) s))

/-- The running job `op` of tenant `t`. -/
def jobOf (s : State) (t op : Nat) : Option TenJob :=
  match (tenOf s t).job with
  | some j => if j.op = op then some j else none
  | none => none

/-- SAVE_DONE: the image stands at MIG_ADDR. -/
def saveDone (t tm : Nat) (s : State) : State :=
  let s0 := advance s tm
  match jobOf s0 t 5 with
  | none => s0
  | some j =>
    let s1 := setReg (writeMem s0 (migAddr s0 t) j.data) (pgTen t) Off.MIG_USED (word j.data.length)
    endJob t 5 4 (updTen t (fun x => { x with lastStamp := j.freezeTick }) s1)

/-- SAVE_DONE. -/
def execSaveDone (tenant tm : Nat) (s : State) : Host.Outcome State Fault Refusal := .next (saveDone tenant tm s)

/-! ### RESTORE (R306, R307) -/

/-- The checks of R306 in their order: the payload and F, or the code of the first failure. -/
def restoreCheck (s : State) (t : Nat) : Except Nat (List Byte × Nat) :=
  let a := migAddr s t
  let len := migLen s t
  if a < 0x800000000 || 0xC00000000 < a + len || !(readableMem s a len) then .error 0x16
  else
    let b := readMem s a len
    let h := b.take 256
    let pl := leAt h 0x18 4
    let env := b.drop (320 + pl)
    let f := leAt h 0x10 8
    let n := nowTick s
    let age := (reg s (pgTen t) Off.MAX_AGE).toNat
    let pub := publicKeys (keyOf s.vlt 6)
    let m := sha512 (b.take (320 + pl))
    if leAt h 0 4 ≠ 0x47494D57 || leAt h 4 2 ≠ 1 || len ≠ migSize pl || leAt env 0 4 ≠ 0x47495357 then .error 0xC
    else if !(migKeyOk s 1) then .error 0x15
    else match checkEnvelope pub m env with
      | 1 => .error 0xD
      | 2 => .error 0xE
      | _ =>
        if leAt h 6 1 ≠ t then .error 0xF
        else if leAt h 8 4 ≠ rateHz s then .error 0x10
        else if (h.drop 0x40).take 64 ≠ beBytes 64 (tget (Config.sha3_512 []) s.str.tenantMsg t) then .error 0x11
        else if (h.drop 0x80).take 64 ≠ sha512 (configBytes s t) then .error 0x12
        else if n ≤ f || (age ≠ 0 && age < n - f) || f ≤ (tenOf s t).lastStamp then .error 0x13
        else
          match Config.gcmOpen (migKey s.vlt t ((h.drop 0x20).take 32)) ((h.drop 0xC0).take 12) h ((b.drop 256).take (pl + 16)) with
          | none => .error 0x14
          | some p => .ok (p.take pl, f)

/-- RESTORE: the checks, then the write pass begins. -/
def tenRestore (tid t : Nat) (s : State) : State :=
  tenCommand tid t 6 (fun s =>
    if tenState s t ≠ .loaded then tenResult t 1 6 s
    else if (tenOf s t).job.isSome then tenResult t 4 6 s
    else
      match restoreCheck s t with
      | .error c => tenResult t c 6 s
      | .ok (p, f) => updTen t (fun x => { x with job := some ⟨6, p, f⟩ }) s) s

/-- RESTORE. -/
def execRestore (tid tenant : Nat) (s : State) : Host.Outcome State Fault Refusal := .next (tenRestore tid tenant s)

/-- The sections of a payload: type, unit, index and content; the bound is on their number. -/
def parsePayload : Nat → List Byte → List (Nat × Nat × Nat × List Byte)
  | 0, _ => []
  | n + 1, b =>
    if b.length < 16 then []
    else
      let len := leAt b 4 4
      (leAt b 0 2, leAt b 2 1, leAt b 3 1, (b.drop 16).take len) :: parsePayload n (b.drop ((16 + len + 63) / 64 * 64))

/-- The last scan of partition `t` before tick `f`, of which the image holds no word: the latest one due under N and PHASE
(assumption 36). -/
def scanBefore (s : State) (t f : Nat) : Option Nat :=
  if lpN s t = 0 then none
  else ((List.range (min f (lpN s t))).map (fun i => f - 1 - i)).find? (fun k => ((k : Int) - lpPhase s t) % lpN s t = 0)

/-- The logic state of an image put in partition `t`, frozen at tick `f`. -/
def restoreLogic (t f : Nat) (c : List Byte) (s : State) : State :=
  let n := (partOf s t).elems.length
  let m := lpTimers s t
  let fl := fun i k => (leAt c (12 * i + 8) 4).testBit k
  let points := (List.range n).map (fun i => (⟨word (leAt c (12 * i) 4), word (leAt c (12 * i + 4) 4), fl i 0, fl i 1, fl i 2⟩ : LPoint))
  let timers := (List.range m).foldl (fun (x : Tab LTimer) i =>
    let o := 12 * n + 16 * i
    let ex := leAt c (o + 12) 4
    tset x i ⟨leAt c (o + 8) 4, leAt c o 4, leAt c (o + 4) 1, leAt c (o + 5) 1 ≠ 0, if ex = 0 then none else some ex⟩) []
  let edges := idxWhere (lpEdges s t) (fun i => (leAt c (12 * n + 16 * m + i / 8) 1).testBit (i % 8))
  updPart t (fun p => { p with points := points, timers := timers, edges := edges, first := false, lastScan := scanBefore s t f, scan := none }) s

/-- The QE points of an image. -/
def restorePoints (t : Nat) (c : List Byte) (s : State) : State :=
  (List.range (c.length / 120)).foldl (fun s i =>
    let o := 120 * i
    let m := leAt c o 4
    if ptTid (pointOf s m) = t then
      updPoint m (fun x => { x with
        accs := (List.range 6).foldl (fun (y : Tab EnergyAcc) a =>
          tset y a ⟨leAt c (o + 4 + 8 * a) 8, BitVec.ofNat 64 (leAt c (o + 52 + 8 * a) 8), leAt c (o + 100 + 2 * a) 2⟩) []
        missed := leAt c (o + 116) 4 }) s
    else s) s

/-- The publications of an image: stNum, sqNum and their schedules from now. -/
def restorePubs (t : Nat) (c : List Byte) (s : State) : State :=
  (List.range (c.length / 20)).foldl (fun s i =>
    let o := 20 * i
    let p := leAt c o 4
    let k := leAt c (o + 12) 4
    if pubTid (pubOf s p) = t then
      updPub p (fun x => { x with
        stNum := leAt c (o + 4) 4, sqNum := leAt c (o + 8) 4, interval := leAt c (o + 16) 4, fresh := false
        next := if k = 0 then none else some (s.tick.count + k) }) s
    else s) s

/-- The lane blocks of an image: previous publications from the next flip. -/
def restoreLanes (t : Nat) (c : List Byte) (s : State) : State :=
  let bs := tenBlocks s t
  let tab := (List.range (min bs.length (c.length / 64))).foldl (fun x i =>
    (List.range 8).foldl (fun x e =>
      tset x (8 * bs.getD i 0 + e) (word (leAt c (64 * i + 8 * e) 4), word (leAt c (64 * i + 8 * e + 4) 4))) x) s.car.restored
  { s with car := { s.car with restored := tab } }

/-- The pieces of a write pass in memory: the DMEM and cluster sections of a payload in the tenant's own regions. -/
def restoreOps (s : State) (t : Nat) (ss : List (Nat × Nat × Nat × List Byte)) : List LoadOp :=
  ss.filterMap (fun x =>
    match x.1 with
    | 1 => ((dmemRegions s t).find? (fun r => r.1 = x.2.1 && r.2.1 = x.2.2.1)).map (fun r => .put r.2.2.1 (x.2.2.2.take r.2.2.2))
    | 2 => ((clmRegions s t).find? (fun r => r.1 = x.2.1)).map (fun r => .put r.2.1 (x.2.2.2.take r.2.2))
    | _ => none)

/-- The sections of a payload other than memory. -/
def restoreUnits (t f : Nat) (ss : List (Nat × Nat × Nat × List Byte)) (s : State) : State :=
  ss.foldl (fun s x => match x.1 with
    | 3 => restoreLogic t f x.2.2.2 s
    | 4 => restorePoints t x.2.2.2 s
    | 5 => restorePubs t x.2.2.2 s
    | 6 => restoreLanes t x.2.2.2 s
    | _ => s) s

/-- Whether a memory of tenant `t` lies in a cluster without power, where a write meets a bus error. -/
def tenUnpowered (s : State) (t : Nat) : Bool := (tenEngines s t).any (fun n => !(clusterPowered s (n / 4)))

/-- RESTORE_DONE (R307): everything of the payload is written, and the tenant is FROZEN at F. -/
def restoreDone (t tm : Nat) (s : State) : State :=
  let s0 := advance s tm
  match jobOf s0 t 6 with
  | none => s0
  | some j =>
    let ss := parsePayload (j.data.length / 64) j.data
    if tenUnpowered s0 t then
      tenResult t 0x16 6 (updTen t (fun x => { x with job := none, dirty := true }) s0)
    else
      let ops := restoreOps s0 t ss
      let s1 := restoreUnits t j.freezeTick ss (runOps ops ops s0)
      let s2 := if tenState s1 t = .loaded then changeState t .frozen s1 else s1
      let s3 := updTen t (fun x => { x with restored := x.state = .frozen, freezeTick := j.freezeTick, lastStamp := j.freezeTick }) s2
      endJob t 6 8 s3

/-- RESTORE_DONE. -/
def execRestoreDone (tenant tm : Nat) (s : State) : Host.Outcome State Fault Refusal := .next (restoreDone tenant tm s)

/-! ### RELOAD (R300) -/

/-- The checks of RELOAD: the image read again at IMG_ADDR, or the loader's code of R156. The code of an image whose digest is not the
loaded one's is not stated, and is a free value (assumption 36). -/
def reloadCheck (s : State) (t : Nat) : Except Nat (List Byte) :=
  let a := imgAddr s
  let len := (reg s pgStr0 Off.IMG_LEN).toNat
  if a % 64 ≠ 0 || a < 0x800000000 || 0xC00000000 < a + len || len < 3384 + 64 then .error 2
  else if !(readableMem s a len) then .error 0x17
  else
    let h := readMem s a 64
    let total := leAt h 0x14 4
    let n := leAt h 6 2
    if leAt h 0 4 ≠ 0x52545357 || leAt h 4 2 ≠ 1 then .error 1
    else if n < 1 || 1024 < n || len ≠ total + 3384 then .error 2
    else
      let b := readMem s a total
      let env := readMem s (a + total) 3384
      if leAt env 0 4 ≠ 0x47495357 then .error 1
      else match verifySlot s.vlt (leAt h 0x18 8) 0 0 with
        | none => .error 5
        | some k =>
          match checkEnvelope k.pub (sha512 b) env with
          | 1 => .error 6
          | 2 => .error 7
          | _ =>
            let sig := tenantSigBad s.vlt b ((List.range n).map (sectionAt b)) t
            if sig ≠ 0 then .error sig
            else if Config.sha3_512 b ≠ s.str.digest then .error (Config.freeNat s.free % 256) else .ok b

/-- RELOAD: the checks, then the write pass begins. -/
def tenReload (tid t : Nat) (s : State) : State :=
  tenCommand tid t 7 (fun s =>
    if tenState s t ≠ .loaded then tenResult t 1 7 s
    else if (tenOf s t).job.isSome then tenResult t 4 7 s
    else
      match reloadCheck s t with
      | .error c => tenResultWith t 0x17 7 c { s with free := s.free + 1 }
      | .ok b => updTen t (fun x => { x with job := some ⟨7, b, 0⟩ }) s) s

/-- RELOAD. -/
def execReload (tid tenant : Nat) (s : State) : Host.Outcome State Fault Refusal := .next (tenReload tid tenant s)

/-- The pieces of a reload: the tenant's data sections, and zeros in its regions. -/
def reloadOps (s : State) (t : Nat) (b : List Byte) : List LoadOp :=
  let ss := (List.range (leAt b 6 2)).map (sectionAt b)
  loadPuts b (ss.filter (fun x => x.tid = t && (x.type = 3 || x.type = 4)))
  ++ (dmemRegions s t).map (fun r => .zero r.2.2.1 r.2.2.2) ++ (clmRegions s t).map (fun r => .zero r.2.1 r.2.2)

/-- RELOAD_DONE. -/
def reloadDone (t tm : Nat) (s : State) : State :=
  let s0 := advance s tm
  match jobOf s0 t 7 with
  | none => s0
  | some j =>
    if tenUnpowered s0 t then
      tenResultWith t 0x17 7 0x17 (updTen t (fun x => { x with job := none, dirty := true }) s0)
    else
      let ops := reloadOps s0 t j.data
      endJob t 7 0 (updTen t (fun x => { x with dirty := false }) (runOps ops ops s0))

/-- RELOAD_DONE. -/
def execReloadDone (tenant tm : Nat) (s : State) : Host.Outcome State Fault Refusal := .next (reloadDone tenant tm s)

/-! ### RESET during a job (R299) -/

/-- What a RESET leaves of a job: a part of the image without its envelope, or a part of the memory writes; how much is not stated, so
it is free. -/
def stopJob (t : Nat) (j : TenJob) (s : State) : State :=
  match j.op with
  | 5 =>
    let n := Config.freeNat s.free % (j.data.length - 3384 + 1)
    writeMem { s with free := s.free + 1 } (migAddr s t) (j.data.take n)
  | 6 =>
    let ss := parsePayload (j.data.length / 64) j.data
    let n := Config.freeNat s.free % (ss.length + 1)
    let part := ss.take n
    runSome (restoreOps s t ss) (restoreUnits t j.freezeTick part { s with free := s.free + 1 })
  | _ => runSome (reloadOps s t j.data) s

/-- TENANT_RESET. -/
def execTenantReset (tid tenant : Nat) (s : State) : Host.Outcome State Fault Refusal := .next (tenReset stopJob tid tenant s)

/-- MIGRATION_TICKS_SNAPSHOT (R311): selector 1, index 0. -/
def execMigrationTicksSnapshot (tid tenant : Nat) (s : State) : Host.Outcome State Fault Refusal :=
  .next (if tenant < 16 then selectMailbox tid (pgTen tenant) (selWord 1 0) true s else deny s)

end Sys2Proof.Machine
end

