-- ==== Sys2Proof/Machine/TickEvents.lean ====
section
/-!
DEFINITION. The events of a tick in which several units act at once: its edge, the completed seal and the flip (spec/02_tick_contract.md R47).
-/
namespace Sys2Proof.Machine

/-! ### The tick edge -/

/-- Whether a partition of tenant `t` was a violator in the tick just completed (spec/12_tenants.md R292 step 1). -/
def partFaulted (s : State) (t : Nat) : Bool :=
  (List.range 16).any (fun n => (List.range 16).any (fun p =>
    regBit s (pgMe n) Off.PART_FAULT p && (partEntry s n p).tid = t))

/-- The engines on which a partition of tenant `t` violated in the tick that ended (R311). -/
def faultEngines (s : State) (t : Nat) : Word :=
  word (((List.range 16).filter (fun n => (List.range 16).any (fun p =>
    regBit s (pgMe n) Off.PART_FAULT p && (partEntry s n p).tid = t))).foldl (fun a n => a + 2 ^ n) 0)

/-- Step 1 of R292 for tenant `t`, with the engines of PART_FAULT_ENG; COUNT saturates at 255. -/
def faultCount (t : Nat) (s0 : State) : State :=
  let s := if tidExists s0 t then setReg s0 (pgTen t) Off.PART_FAULT_ENG (faultEngines s0 t) else s0
  if tenRunning s t then
    setReg s (pgTen t) Off.FAULT_RUN (word (if partFaulted s t then min 255 (regFld s (pgTen t) Off.FAULT_RUN 0 8 + 1) else 0))
  else s

/-- Engine `n` of the part at the edge, its string started or stopped. -/
def engineTick (tm n : Nat) (s : State) : State :=
  if n < 4 * numClusters s.variant then ackEngine n (engineEdge n tm s) else s

/-- TICK_EDGE: the generator's edge, and what every unit does at it before the commands that act at it. -/
def tickEdge (tm : Nat) (s : State) : State :=
  let s0 := advance s tm
  if !(edgeDue s0 tm) then s0
  else
    let s1 := followS tm (issueEdge tm s0)
    let s2 := (List.range 16).foldl (fun s n => engineTick tm n s) s1
    let s3 := pairEdge tm (stringsEdge (pulseEdge (carafeEdge s2)))
    let s4 := (List.range 16).foldl (fun s t => faultCount t s) s3
    modeEdge ((List.range 16).foldl (fun s t => pendEdge t s) s4)

/-- TICK_EDGE. -/
def execTickEdge (tm : Nat) (s : State) : Host.Outcome State Fault Refusal := .next (tickEdge tm s)

/-! ### The completed seal -/

/-- The increments of a pass of the Quantity engine taken by the pulse outputs (spec/09_quantity_engine.md R243). -/
def pulseTakes (incs : List (Nat × Nat × Nat)) (s : State) : State := incs.foldl (fun s i => stepPulses i.1 i.2.1 i.2.2 s) s

/-- SEAL_COMPLETE: the Decimation chain, the Quantity engine and the Capture unit take the sealed frame; they are idle in a mode that does
not permit the real-time units (spec/17_modes_clocks_power.md R421). -/
def sealComplete (tm : Nat) (s : State) : State :=
  let s0 := advance s tm
  if s0.hop.forming.isNone then s0
  else
    let s1 := completeSeal s0
    let s2 := if realTimeMode s1 then chainsTake s1 else placeOutputs s1
    let r := qePass s2
    let s3 := pulseTakes r.1 r.2
    if realTimeMode s3 then recordersTake s3 else s3

/-- SEAL_COMPLETE. -/
def execSealComplete (tm : Nat) (s : State) : Host.Outcome State Fault Refusal := .next (sealComplete tm s)

/-! ### The flip (spec/08_carafe_publication.md R206) -/

/-- FLIP: the table of the tick is formed and every consumer of R47 takes it. -/
def flip (tm : Nat) (s : State) : State :=
  let s0 := advance s tm
  if s0.tick.edgeAt.isNone || s0.car.flipped || cycleOf s0 s0.now < s0.car.pubPoint then s0
  else
    let s1 := flipTable (gooseImages (settleScans (s0.now / 2) s0))
    pairFlip (captureFlip (residueFlip (logicFlip (publisherFlip s1))))

/-- FLIP. -/
def execFlip (tm : Nat) (s : State) : Host.Outcome State Fault Refusal := .next (flip tm s)

end Sys2Proof.Machine
end

