-- ==== Sys2Proof/Machine/Blocks.lean ====
section
/-!
DEFINITION. What every page offers in its header: soft reset, enable, forced interrupts, locks, the mailbox selectors and the indirect pair
(spec/01_register_pages.md R19-R33, and the soft-reset effects that each block's chapter names).
-/
namespace Sys2Proof.Machine

/-! ### Soft reset (R20, R33) -/

/-- The loader where HOLD of engine `n` has cleared: it stops with E_ENGINE_BUSY if its image names the engine (spec/05 R151). -/
def holdCleared (n : Nat) (s : State) : State :=
  match s.str.load with
  | some x => if (namedEngines x.sections).contains n then loadStop 0x14 s else s
  | none => s

/-- A soft reset of engine `n` (spec/03_marionette_engines.md R99): its registers and loop state clear; a string that runs is stopped, with
its operations in flight and its blocks in the Carafe port. -/
def meSoftReset (n : Nat) (s : State) : State :=
  let e := engOf s n
  let s1 := updEng n (fun e => { Engine.init with
    table := e.table, tablePend := e.tablePend, violators := e.violators, lastIssue := e.lastIssue, peak := e.peak }) s
  if e.running then
    let s2 := { s1 with xfers := s1.xfers.filter (fun x => x.engine ≠ n), car := { s1.car with ports := tset s1.car.ports n [] } }
    e.table.foldl (fun s x => if x.2.valid then markBad x.2.tid s else s) s2
  else s1

/-- A soft reset of the Carafe (spec/08_carafe_publication.md R222): its ports empty, and a lane that lost a block publishes invalid. -/
def carSoftReset (s : State) : State :=
  let lost := s.car.ports.flatMap (fun p => p.2.filterMap (·.block))
  let s1 := { s with car := { s.car with ports := [] } }
  lost.foldl (fun s b => badLane (laneIdx s b) s) s1

/-- A soft reset of the Time unit (spec/15_time_unit.md): time bases and tick generator stop, compare units disarm. -/
def timeSoftReset (s : State) : State :=
  let s1 := (List.range 5).foldl (fun s d => if (tbOf s d).state = .stopped then s else stopTb d s) s
  let s2 := stopTicks (clearReg s1 pgTime0 Off.TICK_CFG 1)
  (List.range 16).foldl (fun s k => clearReg s pgTime3 (Off.CMP_CFG + 0x10 * k) 1) s2

/-- What the soft reset of the block of page `pg` does besides its headers: every block-specific field keeps its value but where a chapter
names an effect (spec/01_register_pages.md R458; assumption 43). -/
def blockSoftReset (pg : Nat) (s : State) : State :=
  match pageAt pg with
  | some (.me, n) => holdCleared n (meSoftReset n s)
  | some (.hop0, _) | some (.hop1, _) | some (.hop2, _) | some (.hop3, _) => hopSoftReset s
  | some (.dec0, _) | some (.dec1, _) => decSoftReset s
  | some (.car0, _) | some (.car1, _) => carSoftReset s
  | some (.gse0, _) | some (.gse1, _) => gooseSoftReset s
  | some (.pul, _) => pulSoftReset s
  | some (.lgr0, _) | some (.lgr1, _) => lgrSoftReset s
  | some (.ten, t) => dropTenPend t 7 s
  | some (.tens, _) => tenSoftReset s
  | some (.port, p) => portSoftReset p s
  | some (.time0, _) | some (.time1, _) | some (.time2, _) | some (.time3, _) => timeSoftReset s
  | _ => s

/-- ABORTED of an engine whose string a soft reset has stopped (spec/03 R99). -/
def noteAborted (pg : Nat) (was : Bool) (s : State) : State :=
  match pageAt pg with
  | some (.me, _) => if was then setIrq pg 1 (orReg s pg Off.FAULT_STAT 0x800) else s
  | _ => s

/-- Whether page `pg` is that of an engine whose string runs. -/
def stringRuns (s : State) (pg : Nat) : Bool :=
  match pageAt pg with
  | some (.me, n) => (engOf s n).running
  | _ => false

/-- A soft reset of the block of page `pg` begins: SRST_BUSY until SOFT_RESET_COMPLETE. -/
def startSoftReset (pg : Nat) (s : State) : State :=
  let s1 := (blockPages pg).foldl (fun s q => resetPage q s) (blockSoftReset pg s)
  noteAborted pg (stringRuns s pg) ((blockPages pg).foldl (fun s q => orReg s q Off.STAT 2) s1)

/-- SOFT_RESET (R20). -/
def softReset (tid pg : Nat) (s : State) : State :=
  access tid pg Off.CTRL (reg s pg Off.CTRL ||| 2) (startSoftReset pg) s

/-- SOFT_RESET. -/
def execSoftReset (tid page : Nat) (s : State) : Host.Outcome State Fault Refusal := .next (softReset tid page s)

/-! ### CTRL (R19) -/

/-- The bits of CTRL that a page stores. -/
def ctrlStored (pg : Nat) : Word :=
  match pageAt pg with
  | some (k, _) => 1 ||| (headerBits k).ctrlRw
  | none => 1

/-- The command that bit 2 of CTRL starts on the pages that have one. -/
def ctrlBit2 (tid pg : Nat) (s : State) : State :=
  match pageAt pg with
  | some (.car0, _) => slackClr tid s
  | some (.hop3, _) => arrClr tid s
  | some (.lgr0, _) => idleClear tid s
  | _ => s

/-- HOLD of an engine that a write of CTRL has cleared. -/
def ctrlHold (pg : Nat) (old new : Word) (s : State) : State :=
  match pageAt pg with
  | some (.me, n) => if bit old 2 && !(bit new 2) then holdCleared n s else s
  | _ => s

/-- A write of CTRL that is in order: SRST resets; otherwise the stored bits, a change of EN and a command. -/
def ctrlBody (tid pg : Nat) (data : Word) (s : State) : State :=
  if bit data 1 then startSoftReset pg s
  else
    let old := reg s pg Off.CTRL
    let new := (old &&& ~~~(ctrlStored pg)) ||| (data &&& ctrlStored pg)
    let s1 := ctrlHold pg old new (setReg s pg Off.CTRL new)
    let s2 := if bit old 0 = bit new 0 then s1 else enChanged pg (bit new 0) s1
    if bit data 2 then ctrlBit2 tid pg s2 else s2

/-- A write of CTRL. A recorder judges its own enable (spec/10_capture_unit.md R260, R262). -/
def ctrlWrite (tid pg : Nat) (data : Word) (s : State) : State :=
  match pageAt pg with
  | some (.cap, k) => if bit data 1 then access tid pg Off.CTRL data (startSoftReset pg) s else recCtrl tid k data s
  | _ => access tid pg Off.CTRL data (ctrlBody tid pg data) s

/-- BLOCK_ENABLE (R19): a write of CTRL that starts no soft reset. -/
def execBlockEnable (tid page : Nat) (data : Word) (s : State) : Host.Outcome State Fault Refusal :=
  .next (ctrlWrite tid page (data &&& ~~~(2 : Word)) s)

/-! ### IRQ_FORCE and LOCK (R19, R27) -/

/-- The header descriptor of page `pg`. -/
def headerOf (pg : Nat) : HeaderBits :=
  match pageAt pg with
  | some (k, _) => headerBits k
  | none => ⟨0, 0, 0, 0, 0, 0⟩

/-- A write of IRQ_FORCE: implemented flags set. -/
def irqForce (tid pg : Nat) (data : Word) (s : State) : State :=
  access tid pg Off.IRQ_FORCE data (setIrq pg (data &&& (0x80000000 ||| (headerOf pg).irq))) s

/-- IRQ_FORCE. -/
def execIrqForce (tid page : Nat) (data : Word) (s : State) : Host.Outcome State Fault Refusal := .next (irqForce tid page data s)

/-- A write of LOCK: the groups that the block defines. -/
def groupLock (tid pg : Nat) (data : Word) (s : State) : State :=
  access tid pg Off.LOCK data (fun s => orReg s pg Off.LOCK (data &&& (headerOf pg).lock)) s

/-- GROUP_LOCK. -/
def execGroupLock (tid page : Nat) (data : Word) (s : State) : Host.Outcome State Fault Refusal := .next (groupLock tid page data s)

/-! ### The mailbox (R29, R30, R42) -/

/-- Whether page `pg` defines the selector with this code and index. -/
def selDefined (pg code index : Nat) : Bool :=
  match pageAt pg with
  | some (.irq1, _) => code = 1 && index < 68
  | some (.str3, _) => code = 1 && index < 3
  | some (.hop3, _) => code = 0x10 || code = 0x11 || (code = 0x20 && index < 3)
  | some (.gse0, _) => code = 0x10
  | some (.gse1, _) => 0x10 ≤ code && code ≤ 0x13
  | some (.qe1, _) => 0x100 ≤ code && code ≤ 0x105 && index < 128
  | some (.pul, _) => code = 1 && index < 8
  | some (.cap, _) => code = 1 && index < 16
  | some (.lgr1, _) => code = 1 && index = 0
  | some (.ten, _) => code = 1 && index = 0
  | some (.pair1, _) => (code = 1 && index < 16) || (code = 2 && index = 0)
  | some (.red, _) => code = 0x10 || code = 0x11
  | some (.time0, _) => (code = 2 && index = 0) || (code = 3 && index < 2)
  | some (.time1, _) => code = 1 && index < 5
  | some (.vlt, _) => (code = 1 && index < 24) || code = 2
  | _ => false

/-- A write of MBX_SEL. -/
def mbxSelWrite (tid pg : Nat) (sel : Word) (s : State) : State :=
  selectMailbox tid pg sel (selDefined pg (fld sel 0 16) (fld sel 16 8)) s

/-- MAILBOX_RELEASE (R30). -/
def execMailboxRelease (tid page index : Nat) (s : State) : Host.Outcome State Fault Refusal :=
  .next (mbxSelWrite tid page (selWord 0 index) s)

/-- UNDEFINED_SELECTOR (R30). -/
def execUndefinedSelector (tid page : Nat) (sel : Word) (s : State) : Host.Outcome State Fault Refusal := .next (mbxSelWrite tid page sel s)

/-- A write of MBX_CTRL: DONE of the owner releases the snapshot; of another TID it has no effect (R42; assumption 44). -/
def mbxDone (tid pg : Nat) (data : Word) (s : State) : State :=
  access tid pg Off.MBX_CTRL data (fun s =>
    if bit data 1 && (mailbox s pg).owner = tid && (mailbox s pg).valid then releaseMailbox pg s else s) s

/-- MAILBOX_DONE (R29). -/
def execMailboxDone (tid page : Nat) (s : State) : Host.Outcome State Fault Refusal := .next (mbxDone tid page 2 s)

/-- EVENT_STAMP_SNAPSHOT (R42). -/
def execEventStampSnapshot (tid ctx : Nat) (s : State) : Host.Outcome State Fault Refusal := .next (mbxSelWrite tid pgIrq1 (selWord 1 ctx) s)

/-- IMAGE_DIGEST_SNAPSHOT (spec/05 R160). -/
def execImageDigestSnapshot (tid index : Nat) (s : State) : Host.Outcome State Fault Refusal :=
  .next (mbxSelWrite tid pgStr3 (selWord 1 index) s)

/-- DIGEST_SNAPSHOT (spec/13_redundant_pair.md R342). -/
def execDigestSnapshot (tid tenant : Nat) (s : State) : Host.Outcome State Fault Refusal :=
  .next (mbxSelWrite tid pgPair1 (selWord 1 tenant) s)

/-- PEER_SNAPSHOT (spec/13 R342). -/
def execPeerSnapshot (tid : Nat) (s : State) : Host.Outcome State Fault Refusal := .next (mbxSelWrite tid pgPair1 (selWord 2 0) s)

/-- TICK_SNAPSHOT (spec/15_time_unit.md R387). -/
def execTickSnapshot (tid : Nat) (s : State) : Host.Outcome State Fault Refusal := .next (mbxSelWrite tid pgTime0 (selWord 2 0) s)

/-- PPS_IN_SNAPSHOT (spec/15 R387). -/
def execPpsInSnapshot (tid input : Nat) (s : State) : Host.Outcome State Fault Refusal := .next (mbxSelWrite tid pgTime0 (selWord 3 input) s)

/-- TIME_BASE_SNAPSHOT (spec/15 R388). -/
def execTimeBaseSnapshot (tid tb : Nat) (s : State) : Host.Outcome State Fault Refusal := .next (mbxSelWrite tid pgTime1 (selWord 1 tb) s)

/-- MEASUREMENT_SNAPSHOT (spec/16_vault_and_boot.md R420). -/
def execMeasurementSnapshot (tid index : Nat) (s : State) : Host.Outcome State Fault Refusal :=
  .next (mbxSelWrite tid pgVlt (selWord 1 index) s)

/-- SLOT_SNAPSHOT (spec/16 R420). -/
def execSlotSnapshot (tid slot : Nat) (s : State) : Host.Outcome State Fault Refusal := .next (mbxSelWrite tid pgVlt (selWord 2 slot) s)

end Sys2Proof.Machine
end

