-- ==== Sys2Proof/Machine/EngineAlu.lean ====
section
/-!
DEFINITION. The operations of the ALU slot (spec/04_engine_instruction_set.md R114-R120, R130-R134). Every one
completes in one ME cycle (R52).
-/
namespace Sys2Proof.Machine

/-- AOP: AD = AA op AB (R116). -/
def issueAop (n : Nat) (qp : BitVec 3) (ad aa ab fn : BitVec 5) (s : State) : State :=
  issueOp n 2 (.aop qp ad aa ab fn) (fun e l _ s =>
    match aopFn fn.toNat (regA e aa.toNat) (regA e ab.toNat) with
    | some r => addScalar n (l.tm + 1) (.a ad.toNat) (wide r) (predOn e qp) l 2 s
    | none => s) s

/-- An immediate operation of opcode `op`: AD = AA op IMM13 (R115). -/
def issueImm (op n : Nat) (qp : BitVec 3) (ad aa : BitVec 5) (imm : BitVec 13) (s : State) : State :=
  issueOp n 2 (.aluImm op qp ad aa imm) (fun e l _ s =>
    addScalar n (l.tm + 1) (.a ad.toNat) (wide (immFn op (regA e aa.toNat) imm)) (predOn e qp) l 2 s) s

/-- LI: the kept half is read from AD in the issue cycle (R117). -/
def issueLi (n : Nat) (qp : BitVec 3) (ad : BitVec 5) (sel : BitVec 2) (imm : BitVec 16) (s : State) : State :=
  issueOp n 2 (.li qp ad sel imm) (fun e l _ s =>
    addScalar n (l.tm + 1) (.a ad.toNat) (wide (liFn sel (regA e ad.toNat) imm)) (predOn e qp) l 2 s) s

/-- An operation of format VR: `f` gives the destination and the value from the engine's registers; a V or Q destination is
written in the lanes that the predicate allows, an A destination where bit 0 allows it (R114). -/
def issueVr (op n : Nat) (qp : BitVec 3) (fd fa fb : BitVec 6) (fn : BitVec 5)
    (f : Engine → RegDest × BitVec 128) (s : State) : State :=
  issueOp n 2 (.vr op qp fd fa fb fn) (fun e l _ s =>
    match f e with
    | (.a d, v) => addScalar n (l.tm + 1) (.a d) v (predOn e qp) l 2 s
    | (d, v) => addWrite n (l.tm + 1) d (predMask e qp) v l 2 s) s

/-- A predicate as a value to write. -/
def qVal (q : BitVec 4) : BitVec 128 := q.setWidth 128

/-- VOP: V[FD] = V[FA] op V[FB] per lane (R118). -/
def issueVop (n : Nat) (qp : BitVec 3) (fd fa fb : BitVec 6) (fn : BitVec 5) (s : State) : State :=
  issueVr 0x10 n qp fd fa fb fn (fun e =>
    (.v fd.toNat, (vopFn fn.toNat (regV e fa.toNat) (regV e fb.toNat)).getD 0)) s

/-- VCMP: bit i of Q[FD] is the comparison of lane i (R119). -/
def issueVcmp (n : Nat) (qp : BitVec 3) (fd fa fb : BitVec 6) (fn : BitVec 5) (s : State) : State :=
  issueVr 0x11 n qp fd fa fb fn (fun e =>
    (.q (qOf fd), qVal (lanesQ (fun i => (vcmpFn fn.toNat (lane (regV e fa.toNat) i) (lane (regV e fb.toNat) i)).getD false)))) s

/-- VSEL: lane i from V[FA] where bit i of Q[FN[2:0]] is set, else from V[FB] (R115). -/
def issueVsel (n : Nat) (qp : BitVec 3) (fd fa fb : BitVec 6) (fn : BitVec 5) (s : State) : State :=
  issueVr 0x12 n qp fd fa fb fn (fun e =>
    (.v fd.toNat, mergeLanes (regQ e (fn.toNat % 8)) (regV e fb.toNat) (regV e fa.toNat))) s

/-- VSPLAT: every lane of V[FD] = A[FA] (R115). -/
def issueVsplat (n : Nat) (qp : BitVec 3) (fd fa fb : BitVec 6) (fn : BitVec 5) (s : State) : State :=
  issueVr 0x13 n qp fd fa fb fn (fun e => (.v fd.toNat, splat (regA e (aOf fa)))) s

/-- VEXT: A[FD] = lane FN[1:0] of V[FA] (R115). -/
def issueVext (n : Nat) (qp : BitVec 3) (fd fa fb : BitVec 6) (fn : BitVec 5) (s : State) : State :=
  issueVr 0x14 n qp fd fa fb fn (fun e => (.a (aOf fd), wide (lane (regV e fa.toNat) (fn.toNat % 4)))) s

/-- TLU: V[FD] = table function FN of V[FA], per lane (R130). -/
def issueTlu (n : Nat) (qp : BitVec 3) (fd fa fb : BitVec 6) (fn : BitVec 5) (s : State) : State :=
  issueVr 0x15 n qp fd fa fb fn (fun e =>
    (.v fd.toNat, mkV (fun i => (tluFn fn.toNat (lane (regV e fa.toNat) i)).getD 0))) s

/-- QOP: Q[FD] = function FN of Q[FA] and Q[FB] (R120). -/
def issueQop (n : Nat) (qp : BitVec 3) (fd fa fb : BitVec 6) (fn : BitVec 5) (s : State) : State :=
  issueVr 0x18 n qp fd fa fb fn (fun e => (.q (qOf fd), qVal (qopFn fn.toNat (regQ e (qOf fa)) (regQ e (qOf fb))))) s

/-- QSET: Q[FD] = FN[3:0] (R115). -/
def issueQset (n : Nat) (qp : BitVec 3) (fd fa fb : BitVec 6) (fn : BitVec 5) (s : State) : State :=
  issueVr 0x19 n qp fd fa fb fn (fun _ => (.q (qOf fd), qVal (fn.setWidth 4))) s

/-- QFROMA: Q[FD] = A[FA][3:0] (R115). -/
def issueQfroma (n : Nat) (qp : BitVec 3) (fd fa fb : BitVec 6) (fn : BitVec 5) (s : State) : State :=
  issueVr 0x1A n qp fd fa fb fn (fun e => (.q (qOf fd), qVal ((regA e (aOf fa)).setWidth 4))) s

/-- AFROMQ: A[FD] = Q[FA] zero-extended (R115). -/
def issueAfromq (n : Nat) (qp : BitVec 3) (fd fa fb : BitVec 6) (fn : BitVec 5) (s : State) : State :=
  issueVr 0x1B n qp fd fa fb fn (fun e => (.a (aOf fd), qVal (regQ e (qOf fa)))) s

/-- ACMP: every bit of Q[FD] is the comparison of A[FA] with A[FB] (R119). -/
def issueAcmp (n : Nat) (qp : BitVec 3) (fd fa fb : BitVec 6) (fn : BitVec 5) (s : State) : State :=
  issueVr 0x1C n qp fd fa fb fn (fun e =>
    (.q (qOf fd), qVal (lanesQ (fun _ => (acmpFn fn.toNat (regA e (aOf fa)) (regA e (aOf fb))).getD false)))) s

/-- AOP (R116). -/
def execAop (engine : Nat) (qp : BitVec 3) (ad aa ab fn : BitVec 5) (s : State) : Host.Outcome State Fault Refusal :=
  .next (issueAop engine qp ad aa ab fn s)

/-- LI (R117). -/
def execLi (engine : Nat) (qp : BitVec 3) (ad : BitVec 5) (sel : BitVec 2) (imm : BitVec 16) (s : State) :
    Host.Outcome State Fault Refusal :=
  .next (issueLi engine qp ad sel imm s)

/-- ADDI: AD = AA + IMM13 (R115). -/
def execAddi (engine : Nat) (qp : BitVec 3) (ad aa : BitVec 5) (imm : BitVec 13) (s : State) : Host.Outcome State Fault Refusal :=
  .next (issueImm 0x02 engine qp ad aa imm s)

/-- ANDI (R115). -/
def execAndi (engine : Nat) (qp : BitVec 3) (ad aa : BitVec 5) (imm : BitVec 13) (s : State) : Host.Outcome State Fault Refusal :=
  .next (issueImm 0x03 engine qp ad aa imm s)

/-- ORI (R115). -/
def execOri (engine : Nat) (qp : BitVec 3) (ad aa : BitVec 5) (imm : BitVec 13) (s : State) : Host.Outcome State Fault Refusal :=
  .next (issueImm 0x04 engine qp ad aa imm s)

/-- XORI (R115). -/
def execXori (engine : Nat) (qp : BitVec 3) (ad aa : BitVec 5) (imm : BitVec 13) (s : State) : Host.Outcome State Fault Refusal :=
  .next (issueImm 0x05 engine qp ad aa imm s)

/-- SHLI: by IMM13[4:0] (R115). -/
def execShli (engine : Nat) (qp : BitVec 3) (ad aa : BitVec 5) (imm : BitVec 13) (s : State) : Host.Outcome State Fault Refusal :=
  .next (issueImm 0x06 engine qp ad aa imm s)

/-- SHRI, logical (R115). -/
def execShri (engine : Nat) (qp : BitVec 3) (ad aa : BitVec 5) (imm : BitVec 13) (s : State) : Host.Outcome State Fault Refusal :=
  .next (issueImm 0x07 engine qp ad aa imm s)

/-- SARI, arithmetic (R115). -/
def execSari (engine : Nat) (qp : BitVec 3) (ad aa : BitVec 5) (imm : BitVec 13) (s : State) : Host.Outcome State Fault Refusal :=
  .next (issueImm 0x08 engine qp ad aa imm s)

/-- SLTI: 1 if (s32)AA < IMM13 (R115). -/
def execSlti (engine : Nat) (qp : BitVec 3) (ad aa : BitVec 5) (imm : BitVec 13) (s : State) : Host.Outcome State Fault Refusal :=
  .next (issueImm 0x09 engine qp ad aa imm s)

/-- VOP (R118). -/
def execVop (engine : Nat) (qp : BitVec 3) (fd fa fb : BitVec 6) (fn : BitVec 5) (s : State) : Host.Outcome State Fault Refusal :=
  .next (issueVop engine qp fd fa fb fn s)

/-- VCMP (R119). -/
def execVcmp (engine : Nat) (qp : BitVec 3) (fd fa fb : BitVec 6) (fn : BitVec 5) (s : State) : Host.Outcome State Fault Refusal :=
  .next (issueVcmp engine qp fd fa fb fn s)

/-- VSEL (R115). -/
def execVsel (engine : Nat) (qp : BitVec 3) (fd fa fb : BitVec 6) (fn : BitVec 5) (s : State) : Host.Outcome State Fault Refusal :=
  .next (issueVsel engine qp fd fa fb fn s)

/-- VSPLAT (R115). -/
def execVsplat (engine : Nat) (qp : BitVec 3) (fd fa fb : BitVec 6) (fn : BitVec 5) (s : State) : Host.Outcome State Fault Refusal :=
  .next (issueVsplat engine qp fd fa fb fn s)

/-- VEXT (R115). -/
def execVext (engine : Nat) (qp : BitVec 3) (fd fa fb : BitVec 6) (fn : BitVec 5) (s : State) : Host.Outcome State Fault Refusal :=
  .next (issueVext engine qp fd fa fb fn s)

/-- TLU (R130). -/
def execTlu (engine : Nat) (qp : BitVec 3) (fd fa fb : BitVec 6) (fn : BitVec 5) (s : State) : Host.Outcome State Fault Refusal :=
  .next (issueTlu engine qp fd fa fb fn s)

/-- QOP (R120). -/
def execQop (engine : Nat) (qp : BitVec 3) (fd fa fb : BitVec 6) (fn : BitVec 5) (s : State) : Host.Outcome State Fault Refusal :=
  .next (issueQop engine qp fd fa fb fn s)

/-- QSET (R115). -/
def execQset (engine : Nat) (qp : BitVec 3) (fd fa fb : BitVec 6) (fn : BitVec 5) (s : State) : Host.Outcome State Fault Refusal :=
  .next (issueQset engine qp fd fa fb fn s)

/-- QFROMA (R115). -/
def execQfroma (engine : Nat) (qp : BitVec 3) (fd fa fb : BitVec 6) (fn : BitVec 5) (s : State) : Host.Outcome State Fault Refusal :=
  .next (issueQfroma engine qp fd fa fb fn s)

/-- AFROMQ (R115). -/
def execAfromq (engine : Nat) (qp : BitVec 3) (fd fa fb : BitVec 6) (fn : BitVec 5) (s : State) : Host.Outcome State Fault Refusal :=
  .next (issueAfromq engine qp fd fa fb fn s)

/-- ACMP (R119). -/
def execAcmp (engine : Nat) (qp : BitVec 3) (fd fa fb : BitVec 6) (fn : BitVec 5) (s : State) : Host.Outcome State Fault Refusal :=
  .next (issueAcmp engine qp fd fa fb fn s)

end Sys2Proof.Machine
end

