-- ==== Sys2Proof/Machine/EngineLsu.lean ====
section
/-!
DEFINITION. The operations of the LSU slot (spec/04_engine_instruction_set.md R121-R123; spec/02_tick_contract.md R55;
spec/03_marionette_engines.md R82, R83, R93, R96).
-/
namespace Sys2Proof.Machine

/-- What the checks of an LSU access of `size` bytes at `ea` leave: whether the access takes place, and the state with
the bank occupied and the violations flagged. `touch` says that the predicate lets it access anything. -/
def lsuChecks (n ea size : Nat) (touch : Bool) (l : Latch) (p : PartEntry) (s : State) : Bool × State :=
  let e := engOf s n
  let bank := dmemBank ea
  let busy := e.uses.contains ⟨l.tm, bank⟩
  let inside := inDmem p ea size
  let s1 := updEng n (fun e => { e with uses := e.uses ++ [⟨l.tm, bank⟩] }) s
  let s2 := if busy then violate n l.part p.tid l.pc 2 l.tm s1 else s1
  let s3 := if touch && !inside then violate n l.part p.tid l.pc 6 l.tm s2 else s2
  (touch && inside && !busy, s3)

/-- The word of DMEM at `a` as loads of instant `tm` see it. -/
def dmemWord (s : State) (n a : Nat) : Word := word (readNat s (dmemPhys n a) 4)

/-- A load takes its data in the issue cycle: ECC is checked, and the data is zero where the access does not take place
(R55, R93). -/
def loadData (n ea size : Nat) (touch : Bool) (l : Latch) (p : PartEntry) (s : State) : BitVec 128 × State :=
  let c := lsuChecks n ea size touch l p s
  let a := dmemPhys n ea
  if c.1 then
    let s1 := countCe (pgMe n) Off.ME_CE_COUNT a size c.2
    let s2 := if hasUe s a size then engineUe n l.part p.tid l.pc a size l.tm s1 else s1
    (if size = 4 then splat (dmemWord s n ea) else mkV (fun i => dmemWord s n (ea + 4 * i)), s2)
  else (0, c.2)

/-- A store of the words of `cells` waits two ME cycles to become visible (R83); a 64-bit word that it writes in part and
that holds an uncorrectable error is flagged (R96). -/
def storeData (n ea size : Nat) (cells : List (Nat × Word)) (l : Latch) (p : PartEntry) (s : State) : State :=
  let c := lsuChecks n ea size (cells ≠ []) l p s
  if c.1 then
    let partly := cells.filter (fun d =>
      s.eccUe.contains (d.1 / 8) && !(cells.any (fun x => x.1 = d.1 / 8 * 8) && cells.any (fun x => x.1 = d.1 / 8 * 8 + 4)))
    let s1 := updEng n (fun e => { e with stores := e.stores ++ [⟨l.tm + 2, cells⟩] }) c.2
    match partly.getLast? with
    | some d => engineUe n l.part p.tid l.pc (d.1 / 8 * 8) 8 l.tm s1
    | none => s1
  else c.2

/-- The pointer update of LDVP and STVP: A[AB] = A[AB] + IMM12·16 at issue + 1, governed by bit 0 (R122). -/
def bumpPointer (n : Nat) (e : Engine) (qp : BitVec 3) (ab : BitVec 5) (imm : BitVec 12) (l : Latch) (s : State) : State :=
  addScalar n (l.tm + 1) (.a ab.toNat) (wide (regA e ab.toNat + imm.signExtend 32 * 16)) (predOn e qp) l 3 s

/-- A load of opcode `op`: LDA 1, LDV 2, LDB 3, LDVP 6 (R121). It is in flight to m + 3 and writes at m + 4. -/
def issueLoad (op n : Nat) (qp : BitVec 3) (rg : BitVec 6) (ab : BitVec 5) (imm : BitVec 12) (s : State) : State :=
  issueOp n 3 (.ls op qp rg ab imm) (fun e l p s =>
    let size := if op = 1 ∨ op = 3 then 4 else 16
    let ea := lsuAddr (regA e ab.toNat) (if op = 6 then 0 else imm) size
    let touch := if op = 1 then predOn e qp else predMask e qp ≠ 0
    let d := loadData n ea size touch l p (addFlight n (l.tm + 3) s)
    let s1 := if op = 6 then bumpPointer n e qp ab imm l d.2 else d.2
    if op = 1 then addScalar n (l.tm + 4) (.a (aOf rg)) d.1 (predOn e qp) l 3 s1
    else addWrite n (l.tm + 4) (.v rg.toNat) (predMask e qp) d.1 l 3 s1) s

/-- A store of opcode `op`: STA 4, STV 5, STVP 7 (R121). It is in flight to m + 1. -/
def issueStore (op n : Nat) (qp : BitVec 3) (rg : BitVec 6) (ab : BitVec 5) (imm : BitVec 12) (s : State) : State :=
  issueOp n 3 (.ls op qp rg ab imm) (fun e l p s =>
    let size := if op = 4 then 4 else 16
    let ea := lsuAddr (regA e ab.toNat) (if op = 7 then 0 else imm) size
    let cells :=
      if op = 4 then (if predOn e qp then [(dmemPhys n ea, regA e (aOf rg))] else [])
      else ((List.range 4).filter (fun i => (predMask e qp).getLsbD i)).map
        (fun i => (dmemPhys n (ea + 4 * i), lane (regV e rg.toNat) i))
    let s1 := storeData n ea size cells l p (addFlight n (l.tm + 1) s)
    if op = 7 then bumpPointer n e qp ab imm l s1 else s1) s

/-- LDA: A[RG] = word at EA (R121, R122). -/
def execLda (engine : Nat) (qp : BitVec 3) (rg : BitVec 6) (ab : BitVec 5) (imm : BitVec 12) (s : State) :
    Host.Outcome State Fault Refusal :=
  .next (issueLoad 0x01 engine qp rg ab imm s)

/-- LDV: V[RG] = 16 bytes at EA (R121, R122). -/
def execLdv (engine : Nat) (qp : BitVec 3) (rg : BitVec 6) (ab : BitVec 5) (imm : BitVec 12) (s : State) :
    Host.Outcome State Fault Refusal :=
  .next (issueLoad 0x02 engine qp rg ab imm s)

/-- LDB: every lane of V[RG] = word at EA (R121, R122). -/
def execLdb (engine : Nat) (qp : BitVec 3) (rg : BitVec 6) (ab : BitVec 5) (imm : BitVec 12) (s : State) :
    Host.Outcome State Fault Refusal :=
  .next (issueLoad 0x03 engine qp rg ab imm s)

/-- STA: word at EA = A[RG] (R121, R122). -/
def execSta (engine : Nat) (qp : BitVec 3) (rg : BitVec 6) (ab : BitVec 5) (imm : BitVec 12) (s : State) :
    Host.Outcome State Fault Refusal :=
  .next (issueStore 0x04 engine qp rg ab imm s)

/-- STV: words at EA = lanes of V[RG] (R121, R122). -/
def execStv (engine : Nat) (qp : BitVec 3) (rg : BitVec 6) (ab : BitVec 5) (imm : BitVec 12) (s : State) :
    Host.Outcome State Fault Refusal :=
  .next (issueStore 0x05 engine qp rg ab imm s)

/-- LDVP: as LDV, then the pointer update (R121, R122). -/
def execLdvp (engine : Nat) (qp : BitVec 3) (rg : BitVec 6) (ab : BitVec 5) (imm : BitVec 12) (s : State) :
    Host.Outcome State Fault Refusal :=
  .next (issueLoad 0x06 engine qp rg ab imm s)

/-- STVP: as STV, then the pointer update (R121, R122). -/
def execStvp (engine : Nat) (qp : BitVec 3) (rg : BitVec 6) (ab : BitVec 5) (imm : BitVec 12) (s : State) :
    Host.Outcome State Fault Refusal :=
  .next (issueStore 0x07 engine qp rg ab imm s)

end Sys2Proof.Machine
end

