-- ==== Sys2Proof/Machine/EngineMac.lean ====
section
/-!
DEFINITION. The operations of the MAC slots (spec/04_engine_instruction_set.md R112, R113) and NOP (R104).
-/
namespace Sys2Proof.Machine

/-- A MAC operation of opcode `op` in slot 0 or 1, with latency 6 (R52, R112): it is in flight to m + 5 (R79) and writes
the lanes that its predicate allows. -/
def issueMac (op n slot : Nat) (qp : BitVec 3) (vd va vb vc : BitVec 6) (s : State) : State :=
  if slot < 2 then
    issueOp n slot (.mac op qp vd va vb vc) (fun e l _ s =>
      let a := regV e va.toNat
      let b := regV e vb.toNat
      let c := regV e vc.toNat
      let r := if op = 7 then splat (hsum a)
        else mkV (fun i => (macLane op (lane a i) (lane b i) (lane c i)).getD 0)
      addWrite n (l.tm + 6) (.v vd.toNat) (predMask e qp) r l slot (addFlight n (l.tm + 5) s)) s
  else s

/-- NOP (R104): the slot's operation issues and does nothing. -/
def issueNop (n slot : Nat) (qp : BitVec 3) (s : State) : State :=
  issueOp n slot (.nop qp) (fun _ _ _ s => s) s

/-- NOP in any slot. -/
def execNop (engine slot : Nat) (qp : BitVec 3) (s : State) : Host.Outcome State Fault Refusal :=
  .next (issueNop engine slot qp s)

/-- FADD: a + b (R112). -/
def execFadd (engine slot : Nat) (qp : BitVec 3) (vd va vb vc : BitVec 6) (s : State) : Host.Outcome State Fault Refusal :=
  .next (issueMac 0x01 engine slot qp vd va vb vc s)

/-- FSUB: a − b (R112). -/
def execFsub (engine slot : Nat) (qp : BitVec 3) (vd va vb vc : BitVec 6) (s : State) : Host.Outcome State Fault Refusal :=
  .next (issueMac 0x02 engine slot qp vd va vb vc s)

/-- FMUL: a × b (R112). -/
def execFmul (engine slot : Nat) (qp : BitVec 3) (vd va vb vc : BitVec 6) (s : State) : Host.Outcome State Fault Refusal :=
  .next (issueMac 0x03 engine slot qp vd va vb vc s)

/-- FMA: a × b + c, one rounding (R112). -/
def execFma (engine slot : Nat) (qp : BitVec 3) (vd va vb vc : BitVec 6) (s : State) : Host.Outcome State Fault Refusal :=
  .next (issueMac 0x04 engine slot qp vd va vb vc s)

/-- FMS: a × b − c, one rounding (R112). -/
def execFms (engine slot : Nat) (qp : BitVec 3) (vd va vb vc : BitVec 6) (s : State) : Host.Outcome State Fault Refusal :=
  .next (issueMac 0x05 engine slot qp vd va vb vc s)

/-- FNMA: c − a × b, one rounding (R112). -/
def execFnma (engine slot : Nat) (qp : BitVec 3) (vd va vb vc : BitVec 6) (s : State) : Host.Outcome State Fault Refusal :=
  .next (issueMac 0x06 engine slot qp vd va vb vc s)

/-- FHSUM: (a0 + a1) + (a2 + a3) in every lane (R112). -/
def execFhsum (engine slot : Nat) (qp : BitVec 3) (vd va vb vc : BitVec 6) (s : State) : Host.Outcome State Fault Refusal :=
  .next (issueMac 0x07 engine slot qp vd va vb vc s)

/-- CVTF: fp32 of int32 a (R112). -/
def execCvtf (engine slot : Nat) (qp : BitVec 3) (vd va vb vc : BitVec 6) (s : State) : Host.Outcome State Fault Refusal :=
  .next (issueMac 0x08 engine slot qp vd va vb vc s)

/-- CVTI: int32 of fp32 a (R113) (R112). -/
def execCvti (engine slot : Nat) (qp : BitVec 3) (vd va vb vc : BitVec 6) (s : State) : Host.Outcome State Fault Refusal :=
  .next (issueMac 0x09 engine slot qp vd va vb vc s)

/-- IMUL: bits [31:0] of a × b (R112). -/
def execImul (engine slot : Nat) (qp : BitVec 3) (vd va vb vc : BitVec 6) (s : State) : Host.Outcome State Fault Refusal :=
  .next (issueMac 0x10 engine slot qp vd va vb vc s)

/-- IMADD: bits [31:0] of a × b + c (R112). -/
def execImadd (engine slot : Nat) (qp : BitVec 3) (vd va vb vc : BitVec 6) (s : State) : Host.Outcome State Fault Refusal :=
  .next (issueMac 0x11 engine slot qp vd va vb vc s)

/-- IMULH: bits [63:32] of the signed product (R112). -/
def execImulh (engine slot : Nat) (qp : BitVec 3) (vd va vb vc : BitVec 6) (s : State) : Host.Outcome State Fault Refusal :=
  .next (issueMac 0x12 engine slot qp vd va vb vc s)

/-- QMUL: the Q31 product (R113) (R112). -/
def execQmul (engine slot : Nat) (qp : BitVec 3) (vd va vb vc : BitVec 6) (s : State) : Host.Outcome State Fault Refusal :=
  .next (issueMac 0x13 engine slot qp vd va vb vc s)

end Sys2Proof.Machine
end

