-- ==== Sys2Proof/Machine/Indirect.lean ====
section
/-!
DEFINITION. The indirect pair of a page and the slow domains behind it: the SerDes PMA of a port, the LPDDR4X PHY and the VBAT domain
(spec/01_register_pages.md R31, R32, spec/14_network_ports.md R367, spec/16_vault_and_boot.md R418).
-/
namespace Sys2Proof.Machine

/-! ### Starting an access (R31, R32) -/

/-- A slow-domain access of page `pg` starts: BUSY until INDIRECT_DONE. -/
def startInd (pg : Nat) (a : IndAccess) (s : State) : State :=
  orReg { s with ind := tset s.ind pg a } pg Off.IND_CTRL 0x200

/-- A write of IND_DATA. -/
def indDataWrite (tid pg : Nat) (data : Word) (s : State) : State :=
  access tid pg Off.IND_DATA data (fun s => startInd pg (.write data) (setReg s pg Off.IND_DATA data)) s

/-- INDIRECT_WRITE (R31). -/
def execIndirectWrite (tid page : Nat) (data : Word) (s : State) : Host.Outcome State Fault Refusal := .next (indDataWrite tid page data s)

/-- A write of IND_CTRL: STEP is stored, and RD starts a read. -/
def indCtrlWrite (tid pg : Nat) (data : Word) (s : State) : State :=
  access tid pg Off.IND_CTRL data (fun s =>
    let s1 := setRegFld s pg Off.IND_CTRL 0 4 (fld data 0 4)
    if bit data 8 then startInd pg .read s1 else s1) s

/-- INDIRECT_READ (R31): a write of IND_CTRL with RD = 1. -/
def execIndirectRead (tid page : Nat) (data : Word) (s : State) : Host.Outcome State Fault Refusal :=
  .next (indCtrlWrite tid page (data ||| 0x100) s)

/-! ### The SerDes PMA (R367) -/

/-- The bits of a PMA register that a write stores, and its reset value; none at an address that the PMA does not implement. -/
def pmaRow (a : Nat) : Option (Word × Word) :=
  match a with
  | 0x00 => some (0x1FFF, 8)
  | 0x04 => some (0x1F, 0x14)
  | 0x08 => some (0x33, 0)
  | 0x0C => some (0xFFFFFFFF, 0)
  | 0x10 => some (3, 0)
  | 0x14 => some (0, 0)
  | _ => none

/-- PMA register `a` of port `p`. -/
def pmaReg (s : State) (p a : Nat) : Word := tget ((pmaRow a).getD (0, 0)).2 s.pma (0x100 * p + a)

/-- PMA register `a` of port `p` set. -/
def setPma (p a : Nat) (w : Word) (s : State) : State := { s with pma := tset s.pma (0x100 * p + a) w }

/-- A write to the PMA of port `p`. While the checker of the bit pattern runs the bit errors that it counts are free values
(assumption 45). -/
def pmaWrite (p a : Nat) (v : Word) (s : State) : Option State :=
  match pmaRow a with
  | none => none
  | some r =>
    let s1 := if a = 0x08 && bit (pmaReg s p 0x08) 5 then (let f := fresh s; setPma p 0x0C f.1 f.2) else s
    some (setPma p a (v &&& r.1) s1)

/-- A read of the PMA of port `p`: the receiver state is that of the link where it is up, and free where it is down (assumption 45). -/
def pmaRead (p a : Nat) (s : State) : Option (Word × State) :=
  match pmaRow a with
  | none => none
  | some _ =>
    if a = 0x0C && bit (pmaReg s p 0x08) 5 then some (fresh s)
    else if a = 0x14 then
      if linkUp s p then some (3, s) else (let f := fresh s; some (f.1 &&& 3, f.2))
    else some (pmaReg s p a, s)

/-! ### The VBAT domain (R418) -/

/-- A read of the VBAT domain; the present levels of the tamper balls and VBAT_LOW are free values (assumption 46). -/
def vbatRead (a : Nat) (s : State) : Option (Word × State) :=
  let b := s.vlt.vbat
  let t := rtcTicks s s.now
  let f := fresh s
  if a = 0x00 then some (word (t / 32768), s)
  else if a = 0x04 then some (word (t / 32768 / 2 ^ 32 % 65536), s)
  else if a = 0x08 then some (word (t % 32768), s)
  else if a = 0x0C then some (0, s)
  else if a = 0x10 || a = 0x14 then some (tget 0 b.regs a, s)
  else if a = 0x20 then some (word (b2n b.retLost + b2n b.retained * 4) ||| (f.1 &&& 2), f.2)
  else if a % 4 = 0 && 0x30 ≤ a && a < 0x40 then some (tget 0 b.regs a, s)
  else if a = 0x40 then some (word (b.latch % 16) ||| (f.1 &&& 0xF0), f.2)
  else if a % 4 = 0 && 0x44 ≤ a && a < 0x54 then some (word (tget 0 b.times ((a - 0x44) / 4)), s)
  else if a = 0x60 then some (word b.boots, s)
  else if a = 0x64 then some (word b.tampers, s)
  else if a = 0x68 || a = 0x6C then some (0, s)
  else none

/-- The VBAT domain changed. -/
def updVbat (f : Vbat → Vbat) (s : State) : State := updVlt (fun v => { v with vbat := f v.vbat }) s

/-- A write to the VBAT domain, refused for TAMP_CFG outside PROVISION. -/
def vbatWrite (a : Nat) (v : Word) (s : State) : Option State :=
  if a = 0x0C then some (if bit v 0 then rtcLoad s.now s else s)
  else if a = 0x10 then some (updVbat (fun b => { b with regs := tset b.regs a v }) s)
  else if a = 0x14 then some (updVbat (fun b => { b with regs := tset b.regs a (v &&& 0xFFFF) }) s)
  else if a = 0x20 then some (if bit v 0 then showVault (updVbat (fun b => { b with retLost := false }) s) else s)
  else if a % 4 = 0 && 0x30 ≤ a && a < 0x40 then
    if mode s = mProvision then some (updVbat (fun b => { b with regs := tset b.regs a (v &&& 0xFFF) }) s) else none
  else (vbatRead a s).map (fun _ => s)

/-! ### Completion (R31, R32) -/

/-- A slow-domain write of page `pg`, none where its domain does not implement the address. The registers of the LPDDR4X PHY are not
described: a write to it changes nothing that the model holds (assumption 47). -/
def indWrite (pg a : Nat) (v : Word) (s : State) : Option State :=
  match pageAt pg with
  | some (.port, p) => pmaWrite p a v s
  | some (.mode, _) => vbatWrite a v s
  | some (.ddr, _) => some s
  | _ => none

/-- A slow-domain read of page `pg`; one of the LPDDR4X PHY returns a free value (assumption 47). -/
def indRead (pg a : Nat) (s : State) : Option (Word × State) :=
  match pageAt pg with
  | some (.port, p) => pmaRead p a s
  | some (.mode, _) => vbatRead a s
  | some (.ddr, _) => some (fresh s)
  | _ => none

/-- What the access does to the slow domain and to IND_DATA. -/
def indEffect (pg : Nat) (x : IndAccess) (s : State) : State :=
  let a := (reg s pg Off.IND_ADDR).toNat
  match x with
  | .write v => (indWrite pg a v s).getD (hwErr pg 6 s)
  | .read =>
    match indRead pg a s with
    | some r => setReg r.2 pg Off.IND_DATA r.1
    | none => setReg (hwErr pg 6 s) pg Off.IND_DATA 0

/-- INDIRECT_DONE (R31): the access in progress completes, and IND_ADDR advances by STEP words. -/
def indirectDone (pg tm : Nat) (s : State) : State :=
  let s0 := advance s tm
  match s0.ind.find? (fun x => x.1 = pg) with
  | none => s0
  | some x =>
    let s1 := clearReg (indEffect pg x.2 { s0 with ind := tdel s0.ind pg }) pg Off.IND_CTRL 0x200
    setReg s1 pg Off.IND_ADDR (reg s1 pg Off.IND_ADDR + word (4 * regFld s1 pg Off.IND_CTRL 0 4))

/-- INDIRECT_DONE. -/
def execIndirectDone (page tm : Nat) (s : State) : Host.Outcome State Fault Refusal := .next (indirectDone page tm s)

end Sys2Proof.Machine
end

