-- ==== Sys2Proof/Machine/RegisterWrite.lean ====
section
/-!
DEFINITION. Register writes by address: which operation of which block a write of each register is (spec/01_register_pages.md R14, R15, R24
and the register tables of each chapter), and the end of a soft reset, which performs the accesses that it held (R20).
-/
namespace Sys2Proof.Machine

/-! ### Shared forms of a write -/

/-- A write that the types of the register's fields describe wholly (R24). -/
def plainAccess (tid pg off : Nat) (data : Word) (s : State) : State := access tid pg off data (plainWrite pg off data) s

/-- A plain write of an event flag or enable register, after which tenant source `cls` of tenant `t` is looked at (R35). -/
def evtAccess (t cls tid pg off : Nat) (data : Word) (s : State) : State :=
  access tid pg off data (fun s => noteSource (128 + 8 * t + cls) (plainWrite pg off data s)) s

/-- A plain write of IRQ_STAT or IRQ_EN; a recorder's flags are a source of its owner too (R34, R35). -/
def irqAccess (tid pg off : Nat) (data : Word) (s : State) : State :=
  access tid pg off data (fun s =>
    let s1 := noteSource (srcOfPage pg) (plainWrite pg off data s)
    match pageAt pg with
    | some (.cap, _) => noteSource (128 + 8 * regFld s pg Off.TID_OWNER 0 4 + 5) s1
    | _ => s1) s

/-- A plain write that is refused with error flag `i` where `bad` holds. -/
def guarded (i : Nat) (bad : Bool) (tid pg off : Nat) (data : Word) (s : State) : State :=
  access tid pg off data (fun s => if bad then refuse pg i off tid s else plainWrite pg off data s) s

/-- Whether `n` lies outside a register's range. -/
def outside (lo hi n : Nat) : Bool := n < lo || hi < n

/-- The bits of a command register, each with its command, in rising order of the bits (assumption 48). -/
def bitCommands (tid pg off : Nat) (data : Word) (ops : List (Nat × (State → State))) (s : State) : State :=
  match ops.filter (fun o => bit data o.1) with
  | [o] => o.2 s
  | l => access tid pg off data (fun s => l.foldl (fun s o => o.2 s) s) s

/-- Number of command bits set. -/
def bitsSet (data : Word) (n : Nat) : Nat := ((List.range n).filter (fun i => bit data i)).length

/-- Command registers whose rule drops a write of several bits with error flag `i`. -/
def oneCommand (i tid pg off : Nat) (data : Word) (ops : List (Nat × (State → State))) (s : State) : State :=
  if 1 < (ops.filter (fun o => bit data o.1)).length then access tid pg off data (refuse pg i off tid) s
  else bitCommands tid pg off data ops s

/-! ### The header (R19) -/

/-- A write of a header register. -/
def headerWrite (tid pg off : Nat) (data : Word) (s : State) : State :=
  match off with
  | 0x010 => ctrlWrite tid pg data s
  | 0x018 | 0x01C => irqAccess tid pg off data s
  | 0x020 => irqForce tid pg data s
  | 0x028 => groupLock tid pg data s
  | 0x02C => writeOwner tid pg data s
  | 0x030 => mbxSelWrite tid pg data s
  | 0x034 => mbxDone tid pg data s
  | 0x054 => indDataWrite tid pg data s
  | 0x058 => indCtrlWrite tid pg data s
  | _ => plainAccess tid pg off data s

/-! ### Modes, clocks and interrupts -/

/-- The MODE page (spec/17_modes_clocks_power.md R436). -/
def modePageWrite (tid off : Nat) (data : Word) (s : State) : State :=
  match off with
  | 0x064 => modeCmdWrite tid data s
  | 0x07C => hartRelease tid data s
  | 0x0A0 => wdogCfgWrite tid data s
  | 0x0A4 => if bit data 0 then wdogKick tid s else plainAccess tid pgMode off data s
  | _ => plainAccess tid pgMode off data s

/-- IRQ page 1: THRESH and CLAIM of the contexts (R36). -/
def contextWrite (tid off : Nat) (data : Word) (s : State) : State :=
  match findRow rowsIrq1 off with
  | some (r, i) => if r.off = Off.CLAIM then completeClaim tid i data s else plainAccess tid pgIrq1 off data s
  | none => plainAccess tid pgIrq1 off data s

/-! ### Engines, clusters and strings -/

/-- An engine's page: a write of the partition table waits for the next tick edge, and applies at once on an engine that runs no string
(spec/03_marionette_engines.md R94). -/
def engineWrite (n tid off : Nat) (data : Word) (s : State) : State :=
  if 0x200 ≤ off then
    access tid (pgMe n) off data (fun s =>
      let s1 := updEng n (fun e => { e with tablePend := true }) (plainWrite (pgMe n) off data s)
      if stringIdle s1 n then partitionTableApply n s1.now s1 else s1) s
  else plainAccess tid (pgMe n) off data s

/-- A cluster's page: a write of a slot table waits for the next tick edge, and applies at once while the cluster is quiet
(spec/02_tick_contract.md R60). -/
def clusterWrite (c tid off : Nat) (data : Word) (s : State) : State :=
  if 0x060 ≤ off && off < 0x080 then
    access tid (pgClu c) off data (fun s =>
      let s1 := plainWrite (pgClu c) off data s
      slotTableApply c s1.now { s1 with clu := tset s1.clu c { (tget Cluster.init s1.clu c) with tabPend := true } }) s
  else plainAccess tid (pgClu c) off data s

/-- STR page 0 (spec/05_string_images.md R160). -/
def loaderWrite (tid off : Nat) (data : Word) (s : State) : State :=
  if off = Off.LD_CMD then bitCommands tid pgStr0 off data [(0, stringLoad tid), (1, ldVerify tid), (2, ldAbort tid)] s
  else plainAccess tid pgStr0 off data s

/-- STR page 1 (spec/05 R160). -/
def reshapeWrite (tid off : Nat) (data : Word) (s : State) : State :=
  if off = Off.RS_CMD then bitCommands tid pgStr1 off data [(0, reshapeRequest tid), (1, rsCancel tid)] s
  else plainAccess tid pgStr1 off data s

/-! ### The sampled-value path and publication -/

/-- HOP page 1: the subscription window (spec/06_hopper_ingest.md R168). -/
def subscriptionWrite (tid off : Nat) (data : Word) (s : State) : State :=
  if off = Off.HSUB_CMD then
    (if bitsSet data 2 = 2 then access tid pgHop1 off data (fun s => deny (flagErr pgHop0 9 off tid true s)) s
     else bitCommands tid pgHop1 off data [(0, hopSubRead tid), (1, hopSubWrite tid)] s)
  else plainAccess tid pgHop1 off data s

/-- A page of event registers of the tenants: flags from `evt`, enables from `en`, of tenant sources of class `cls`. -/
def eventsWrite (evt en cls tid pg off : Nat) (data : Word) (s : State) : State :=
  if evt ≤ off && off < evt + 0x40 then evtAccess ((off - evt) / 4) cls tid pg off data s
  else if en ≤ off && off < en + 0x40 then evtAccess ((off - en) / 4) cls tid pg off data s
  else plainAccess tid pg off data s

/-- HOP page 2 (spec/06 R185). -/
def rangeWrite (tid off : Nat) (data : Word) (s : State) : State :=
  if Off.FRANGE ≤ off && off < Off.FRANGE + 0x40 then frangeWrite tid ((off - Off.FRANGE) / 4) data s
  else eventsWrite Off.HTEN_EVT Off.HTEN_EVT_EN 2 tid pgHop2 off data s

/-- DEC page 0 (spec/07_decimation_chain.md R200). -/
def chainWrite (tid off : Nat) (data : Word) (s : State) : State :=
  match findRow rowsDec0 off with
  | some (r, c) =>
    if r.off = Off.DCH_CTRL then dchCtrlWrite tid c data s
    else if r.off = Off.DCH_SRC || r.off = Off.DCH_OUT || r.off = Off.BANK_CFG0 || r.off = Off.BANK_CFG1 then dchWrite tid off data s
    else plainAccess tid pgDec0 off data s
  | none => plainAccess tid pgDec0 off data s

/-- DEC page 1 (spec/07 R200). -/
def coefPageWrite (tid off : Nat) (data : Word) (s : State) : State :=
  if Off.COEF ≤ off && off < Off.COEF + 0x200 then coefWrite tid off data s
  else eventsWrite Off.DTEN_EVT Off.DTEN_EVT_EN 2 tid pgDec1 off data s

/-- CAR page 0 (spec/08_carafe_publication.md R222). -/
def carafeWrite (tid off : Nat) (data : Word) (s : State) : State :=
  if off = Off.PUB_POINT then pubPointWrite tid data s
  else if 0x800 ≤ off then laneWrite tid off data s
  else plainAccess tid pgCar0 off data s

/-- GSE page 0: the publisher window (spec/08 R223). -/
def publisherWrite (tid off : Nat) (data : Word) (s : State) : State :=
  if off = Off.PUB_CMD then oneCommand 8 tid pgGse0 off data [(0, gsePubRead tid), (1, gsePubWrite tid)] s
  else plainAccess tid pgGse0 off data s

/-- GSE page 1: the subscription window (spec/08 R225). -/
def gooseSubWrite (tid off : Nat) (data : Word) (s : State) : State :=
  if off = Off.GSUB_CMD then oneCommand 8 tid pgGse1 off data [(0, gseSubRead tid), (1, gseSubWrite tid)] s
  else eventsWrite Off.GTEN_EVT Off.GTEN_EVT_EN 3 tid pgGse1 off data s

/-! ### Metering, capture and logic -/

/-- QE page 1: the point window (spec/09_quantity_engine.md R247). -/
def pointWrite (tid off : Nat) (data : Word) (s : State) : State :=
  if off = Off.PT_CMD then bitCommands tid pgQe1 off data [(0, ptRead tid), (1, ptWrite tid), (2, energyClear tid)] s
  else plainAccess tid pgQe1 off data s

/-- The pulse outputs (spec/09 R248). -/
def pulseWrite (tid off : Nat) (data : Word) (s : State) : State :=
  match findRow rowsPul off with
  | some (r, o) =>
    if r.off = Off.PO_CFG then poCfgWrite tid o data s
    else if r.off = Off.PO_KH || r.off = Off.PO_WIDTH || r.off = Off.PO_SRC then poFieldWrite tid off data s
    else plainAccess tid pgPul off data s
  | none => plainAccess tid pgPul off data s

/-- A recorder's page (spec/10_capture_unit.md R262). -/
def recorderWrite (k tid off : Nat) (data : Word) (s : State) : State :=
  match findRow rowsCap off with
  | some (r, _) =>
    if off = Off.REC_CMD then
      bitCommands tid (pgCap k) off data [(0, recStart tid k), (1, recStop tid k), (2, manualTrig tid k), (3, recRelease tid k)] s
    else if off < Off.REC_CMD || r.off = Off.CH_SRC then recFieldWrite tid k off data s
    else if r.off = Off.TRG_CFG then trgCfgWrite tid k off data s
    else plainAccess tid (pgCap k) off data s
  | none => plainAccess tid (pgCap k) off data s

/-- LGR page 0: the logic partitions (spec/11_logic_runner.md R285). -/
def logicWrite (tid off : Nat) (data : Word) (s : State) : State :=
  match findRow rowsLgr0 off with
  | some (r, t) =>
    if r.off = Off.LP_CTRL then lpCtrlWrite tid t data s
    else if Off.LP_ELEM ≤ r.off && r.off ≤ Off.LP_GPIO then lpFieldWrite tid off data s
    else plainAccess tid pgLgr0 off data s
  | none => plainAccess tid pgLgr0 off data s

/-- LGR page 1: loading, online changes and forces (spec/11 R285). -/
def logicLoadWrite (tid off : Nat) (data : Word) (s : State) : State :=
  if off = Off.LLD_CMD then logicLoad tid data s
  else if off = Off.ONL_CMD then bitCommands tid pgLgr1 off data [(0, applyOnline tid)] s
  else if off = Off.FRC_CMD then bitCommands tid pgLgr1 off data [(0, forceSet tid), (1, forceRelease tid)] s
  else eventsWrite Off.LTEN_EVT Off.LTEN_EVT_EN 6 tid pgLgr1 off data s

/-! ### Tenants and the pair -/

/-- The register that word `i` of EVT_MIRROR shows for tenant `t`, and its source class (spec/12_tenants.md R311). -/
def mirrored (t i : Nat) : Nat × Nat × Nat :=
  match i with
  | 0 => (pgHop2, Off.HTEN_EVT + 4 * t, 2)
  | 1 => (pgDec1, Off.DTEN_EVT + 4 * t, 2)
  | 2 => (pgCar1, Off.CTEN_EVT + 4 * t, 3)
  | 3 => (pgGse1, Off.GTEN_EVT + 4 * t, 3)
  | 4 => (pgQe0, Off.QTEN_EVT + 4 * t, 4)
  | _ => (pgLgr1, Off.LTEN_EVT + 4 * t, 6)

/-- A write of word `i` of EVT_MIRROR: a 1 clears the flag in the block (spec/12 R311). -/
def mirrorWrite (t i tid off : Nat) (data : Word) (s : State) : State :=
  access tid (pgTen t) off data (fun s =>
    let m := mirrored t i
    noteSource (128 + 8 * t + m.2.2) (clearReg s m.1 m.2.1 (data &&& 0xF))) s

/-- The commands of TEN_CMD for tenant `t` (spec/12 R290). -/
def tenantCommands (tid t : Nat) : List (Nat × (State → State)) :=
  [(0, admitTenant tid t), (1, tickCommand tid t 1 .loaded), (2, tickCommand tid t 2 .running), (3, tickCommand tid t 3 .frozen),
   (4, tenReset stopJob tid t), (5, tenSave tid t), (6, tenRestore tid t), (7, tenReload tid t), (8, evictTenant tid t),
   (9, tenFault tid t), (10, tenCancel tid t)]

/-- A tenant's page (spec/12 R311). -/
def tenantWrite (t tid off : Nat) (data : Word) (s : State) : State :=
  let pg := pgTen t
  if off = Off.TEN_CMD then oneCommand (if tid = 0 then 10 else 2) tid pg off data (tenantCommands tid t) s
  else if Off.SHARE ≤ off && off < Off.SHARE + 0x10 then shareWrite tid t ((off - Off.SHARE) / 4) data s
  else if Off.DDR_WIN ≤ off && off < Off.DDR_WIN + 0x10 then ddrWinWrite tid t ((off - Off.DDR_WIN) / 4) data s
  else if off = Off.TEVT || off = Off.TEVT_EN then evtAccess t 7 tid pg off data s
  else if Off.EVT_MIRROR ≤ off && off < Off.EVT_MIRROR + 0x18 then mirrorWrite t ((off - Off.EVT_MIRROR) / 4) tid off data s
  else plainAccess tid pg off data s

/-- PAIR page 0 (spec/13_redundant_pair.md R342). -/
def pairWrite (tid off : Nat) (data : Word) (s : State) : State :=
  if off = Off.PAIR_CMD then
    oneCommand 9 tid pgPair0 off data
      [(0, joinPair tid), (1, leavePair tid), (2, soloPair tid), (3, handoverPair tid), (4, drillPair tid), (5, hoAbortPair tid), (6, fitSetPair tid)] s
  else if off < Off.PAIR_CMD then pairCfgWrite tid off data s
  else plainAccess tid pgPair0 off data s

/-! ### Ports -/

/-- A write of PCFG (spec/14_network_ports.md R343, R344, R360, R367). The String link port keeps MODE and the pause fields. -/
def pcfgWrite (p tid : Nat) (data0 : Word) (s : State) : State :=
  let pg := pgPort p
  let off := Off.PCFG
  let old := reg s pg off
  let data := if p = 4 then (data0 &&& ~~~(0x703 : Word)) ||| (old &&& 0x703) else data0
  access tid pg off data0 (fun s =>
    if regBit s pg Off.CTRL 0 && (old ^^^ data) &&& 0xF013 ≠ 0 then refuse pg 8 off tid s
    else if fld data 0 2 = 3 || fld data 8 2 = 3 then refuse pg 9 off tid s
    else if !tidExists s (fld data 20 4) then refuse pg 2 off tid s
    else plainWrite pg off data s) s

/-- Whether some PCP of a QMAP word names no queue. -/
def qmapBad (w : Word) : Bool := (List.range 8).any (fun k => 5 < fld w (3 * k) 3)

/-- Whether a word names an absent TID among bits 0 to 15. -/
def absentTids (s : State) (w : Word) : Bool := (List.range 16).any (fun t => bit w t && !tidExists s t)

/-- A write of a ring's base, which an enabled ring refuses with flag `i` (spec/14 R350). -/
def ringBaseWrite (r : Ring) (i tid off : Nat) (data : Word) (s : State) : State := guarded i (ringEn s r) tid r.page off data s

/-- A doorbell block of tenant `t` (spec/14 R368). -/
def doorbellWrite (p t tid off : Nat) (data : Word) (s : State) : State :=
  let pg := pgPort p
  match off % 0x10 with
  | 0x0 => txTail tid p t data s
  | 0x4 => rxTail tid p t data s
  | _ => access tid pg off data (fun s =>
      noteSource (128 + 8 * t + 1) (noteSource (128 + 8 * t) (plainWrite pg off data s))) s

/-- A port's page (spec/14 R367). -/
def portWrite (p tid off : Nat) (data : Word) (s : State) : State :=
  let pg := pgPort p
  match findRow rowsPort off with
  | some (r, i) =>
    match r.off with
    | 0x060 => pcfgWrite p tid data s
    | 0x064 => guarded 8 (regBit s pg Off.CTRL 0 && data ≠ reg s pg off) tid pg off data s
    | 0x068 => guarded 8 (regBit s pg Off.CTRL 0 && data &&& 0xFFFF ≠ reg s pg off) tid pg off data s
    | 0x06C => guarded 9 (outside 1518 2048 (fld data 0 12)) tid pg off data s
    | 0x070 => guarded 9 (fld data 16 8 ≤ fld data 24 8) tid pg off data s
    | 0x07C => guarded 9 (qmapBad data) tid pg off data s
    | 0x100 | 0x104 => ringBaseWrite (txRing p i) 8 tid off data s
    | 0x10C | 0x110 => ringBaseWrite (rxRing p i) 8 tid off data s
    | 0x108 | 0x114 => if p < 4 then ringWrite tid pg off data s else plainAccess tid pg off data s
    | 0x400 | 0x404 | 0x40C => if p < 4 then doorbellWrite p i tid off data s else plainAccess tid pg off data s
    | 0x604 => guarded 9 (48 < fld data 16 6) tid pg off data s
    | 0x60C => guarded 2 (absentTids s data) tid pg off data s
    | _ => plainAccess tid pg off data s
  | none => plainAccess tid pg off data s

/-- The RED page (spec/14 R369). -/
def redWrite (tid off : Nat) (data : Word) (s : State) : State :=
  match findRow rowsRed off with
  | some (r, g) =>
    if r.off = Off.RED_CFG then redCfgWrite tid g data s
    else if r.off = Off.SUP_CFG then guarded 8 (outside 1 600 (fld data 16 10)) tid pgRed off data s
    else if r.off = Off.NODE_CFG then guarded 8 (outside 1 3600 (fld data 0 12)) tid pgRed off data s
    else plainAccess tid pgRed off data s
  | none => plainAccess tid pgRed off data s

/-! ### Time and the Vault -/

/-- A write of PPS_OUT_CFG: in MODE 0 the output is low (spec/15_time_unit.md R386, R387). -/
def ppsOutWrite (o tid off : Nat) (data : Word) (s : State) : State :=
  access tid pgTime0 off data (fun s =>
    if 4 < fld data 2 3 || 1000 < fld data 16 10 then refuse pgTime0 9 off tid s
    else
      let s1 := plainWrite pgTime0 off data s
      if fld data 0 2 = 0 && (tget PpsOut.init s.tim.ppsOut o).high then setPpsOut o ⟨false, s.now⟩ s1 else s1) s

/-- TIME page 0 (spec/15 R387). -/
def time0Write (tid off : Nat) (data : Word) (s : State) : State :=
  match findRow rowsTime0 off with
  | some (r, i) =>
    match r.off with
    | 0x060 => tickCfgWrite tid data s
    | 0x070 => guarded 9 (4 < fld data 1 3) tid pgTime0 off data s
    | 0x080 => ppsOutWrite i tid off data s
    | 0x084 => guarded 9 (outside 1 500000 (fld data 0 19)) tid pgTime0 off data s
    | _ => plainAccess tid pgTime0 off data s
  | none => plainAccess tid pgTime0 off data s

/-- A write of TB_CFG of time base `d` (spec/15 R388); AUTO_SW lies in the TB0 block only. -/
def tbCfgWrite (d tid off : Nat) (data0 : Word) (s : State) : State :=
  let data := if d = 0 then data0 else data0 &&& ~~~(0x4000 : Word)
  access tid pgTime1 off data0 (fun s =>
    if (tbOf s d).state ≠ .stopped && (tbReg s d Off.TB_CFG ^^^ data) &&& 0xFFF ≠ 0 then refuse pgTime1 9 off tid s
    else if 3 < fld data 0 3 || fld data 24 4 = 0 || fld data 28 4 < 2 then refuse pgTime1 10 off tid s
    else plainWrite pgTime1 off data s) s

/-- The commands of TB_CMD of time base `d`; SWITCH lies in the TB0 block only (spec/15 R378, R388). -/
def tbCommands (tid d : Nat) : List (Nat × (State → State)) :=
  [(0, tbStart tid d), (1, tbStop tid d), (2, tbSet tid d), (3, slew tid d)] ++ (if d = 0 then [(4, switchRef tid)] else [])

/-- TIME page 1 (spec/15 R388). -/
def time1Write (tid off : Nat) (data : Word) (s : State) : State :=
  match findRow rowsTime1 off with
  | some (r, d) =>
    match r.off with
    | 0x100 => tbCfgWrite d tid off data s
    | 0x104 => oneCommand 10 tid pgTime1 off data (tbCommands tid d) s
    | 0x114 => guarded 10 (outside 1 1000000 (fld data 0 20)) tid pgTime1 off data s
    | 0x118 => guarded 10 (fld data 0 16 = 0) tid pgTime1 off data s
    | 0x120 => guarded 10 (999999999 < fld data 0 30) tid pgTime1 off data s
    | _ => plainAccess tid pgTime1 off data s
  | none => plainAccess tid pgTime1 off data s

/-- Whether a signed field of 4 bits lies outside −4 to 4. -/
def logBad (n : Nat) : Bool := 4 < n && n < 12

/-- TIME page 2 (spec/15 R389). -/
def time2Write (tid off : Nat) (data : Word) (s : State) : State :=
  match findRow rowsTime2 off with
  | some (r, _) =>
    match r.off with
    | 0x060 | 0x064 => ringBaseWrite ptpRxRing 10 tid off data s
    | 0x06C | 0x070 => ringBaseWrite ptpTxRing 10 tid off data s
    | 0x068 | 0x074 => ringWrite tid pgTime2 off data s
    | 0x078 => ptpTail tid data s
    | 0x100 => guarded 10 (logBad (fld data 16 4) || logBad (fld data 20 4)) tid pgTime2 off data s
    | _ => plainAccess tid pgTime2 off data s
  | none => plainAccess tid pgTime2 off data s

/-- TIME page 3 (spec/15 R390). -/
def time3Write (tid off : Nat) (data : Word) (s : State) : State :=
  match findRow rowsTime3 off with
  | some (r, k) => if r.off = Off.CMP_CFG then armCompare tid k data s else plainAccess tid pgTime3 off data s
  | none => plainAccess tid pgTime3 off data s

/-- The Vault's page (spec/16_vault_and_boot.md R419). -/
def vaultWrite (tid off : Nat) (data : Word) (s : State) : State :=
  match findRow rowsVlt off with
  | some (r, t) =>
    if r.off = Off.VQ_BASE_LO || r.off = Off.VQ_BASE_HI then vqCfgWrite tid off data s
    else if r.off = Off.VQ_PTR then vqTail tid t data s
    else if r.off = Off.VQ_EVT then evtAccess t 7 tid pgVlt off data s
    else plainAccess tid pgVlt off data s
  | none => plainAccess tid pgVlt off data s

/-! ### REGISTER_WRITE -/

/-- A write at a block-specific offset. -/
def blockWrite (k : PageKind) (n tid pg off : Nat) (data : Word) (s : State) : State :=
  match k with
  | .mode => modePageWrite tid off data s
  | .clk => if off = Off.CLU_PD then cluPdWrite tid data s else plainAccess tid pg off data s
  | .irq0 => if 0x400 ≤ off && off % 4 = 0 then writeSrcCfg tid ((off - 0x400) / 4) data s else plainAccess tid pg off data s
  | .irq1 => contextWrite tid off data s
  | .me => engineWrite n tid off data s
  | .clu => clusterWrite n tid off data s
  | .str0 => loaderWrite tid off data s
  | .str1 => reshapeWrite tid off data s
  | .hop0 => if off = Off.HOP_CFG then hopCfgWrite tid data s else plainAccess tid pg off data s
  | .hop1 => subscriptionWrite tid off data s
  | .hop2 => rangeWrite tid off data s
  | .dec0 => chainWrite tid off data s
  | .dec1 => coefPageWrite tid off data s
  | .car0 => carafeWrite tid off data s
  | .car1 => eventsWrite Off.CTEN_EVT Off.CTEN_EVT_EN 3 tid pg off data s
  | .gse0 => publisherWrite tid off data s
  | .gse1 => gooseSubWrite tid off data s
  | .qe0 => eventsWrite Off.QTEN_EVT Off.QTEN_EVT_EN 4 tid pg off data s
  | .qe1 => pointWrite tid off data s
  | .pul => pulseWrite tid off data s
  | .cap => recorderWrite n tid off data s
  | .lgr0 => logicWrite tid off data s
  | .lgr1 => logicLoadWrite tid off data s
  | .ten => tenantWrite n tid off data s
  | .pair0 => pairWrite tid off data s
  | .port => portWrite n tid off data s
  | .red => redWrite tid off data s
  | .time0 => time0Write tid off data s
  | .time1 => time1Write tid off data s
  | .time2 => time2Write tid off data s
  | .time3 => time3Write tid off data s
  | .vlt => vaultWrite tid off data s
  | .dir | .tens | .str2 | .str3 | .hop3 | .pair1 | .ddr | .gio => plainAccess tid pg off data s

/-- A 32-bit write at offset `off` of page `pg`. -/
def pageWrite (tid pg off : Nat) (data : Word) (s : State) : State :=
  match pageAt pg with
  | some (k, n) =>
    if !pagePresent s.variant pg then deny s
    else if off < 0x60 then headerWrite tid pg off data s
    else blockWrite k n tid pg off data s
  | none => deny s

/-- A 32-bit write at physical address `addr`; what lies outside the register pages is no register (R13, R14). -/
def writeAt (tid addr : Nat) (data : Word) (s : State) : State :=
  if addr < 0x10000000 then deny s else pageWrite tid ((addr - 0x10000000) / 0x1000) ((addr - 0x10000000) % 0x1000) data s

/-- The answer to a 64-bit access: an error if either half is one. -/
def joinResp (first : Resp) (s : State) : State := if first = .error then { s with resp := .error } else s

/-- A register write of `size` bytes (R15): 4, or 8 as two writes of 32 bits, the lower address first, each naturally aligned; every other
is answered with an access error. -/
def registerWrite (tid size addr : Nat) (data : BitVec 64) (s : State) : State :=
  let lo := BitVec.truncate 32 data
  let hi := BitVec.truncate 32 (data >>> 32)
  if size = 4 && addr % 4 = 0 then writeAt tid addr lo s
  else if size = 8 && addr % 8 = 0 then
    let s1 := writeAt tid addr lo s
    joinResp s1.resp (writeAt tid (addr + 4) hi s1)
  else deny s

/-- Whether a write touches a block-specific register of the DDR or the GIO page, whose registers the spec does not give. -/
def undescribed (s : State) (tid size addr : Nat) : Bool :=
  let pg := (addr - 0x10000000) / 0x1000
  0x10000000 ≤ addr && (size = 4 || size = 8) && addr % size = 0 && (pg = pgDdr || pg = pgGio)
  && 0x60 ≤ (addr - 0x10000000) % 0x1000 + size - 4 && (tid = 0 || (regFld s pg Off.TID_OWNER 0 4 = tid && (tenOf s tid).state ≠ .resetting))

/-- REGISTER_WRITE (R15, R24). -/
def execRegisterWrite (tid size addr : Nat) (data : BitVec 64) (s : State) : Host.Outcome State Fault Refusal :=
  if undescribed s tid size addr then .fault (.deviceUndescribed addr) else .next (registerWrite tid size addr data s)

/-! ### SOFT_RESET_COMPLETE (R20) -/

/-- A held access performed. -/
def performHeld (h : HeldWrite) (s : State) : State :=
  if h.read then claimRead ((h.off - 0x104) / 8) s else pageWrite h.tid h.page h.off h.data s

/-- SOFT_RESET_COMPLETE: SRST_BUSY clears on the pages of the block, and the accesses that it held are performed in their order. -/
def softResetComplete (pg tm : Nat) (s : State) : State :=
  let s0 := advance s tm
  if regBit s0 pg Off.STAT 1 then
    let pgs := blockPages pg
    let mine := s0.held.filter (fun h => pgs.contains h.page)
    let s1 := pgs.foldl (fun s q => clearReg s q Off.STAT 2) { s0 with held := s0.held.filter (fun h => !pgs.contains h.page) }
    mine.foldl (fun s h => performHeld h s) s1
  else s0

/-- SOFT_RESET_COMPLETE. -/
def execSoftResetComplete (page tm : Nat) (s : State) : Host.Outcome State Fault Refusal := .next (softResetComplete page tm s)

end Sys2Proof.Machine
end

