-- ==== Sys2Proof/Machine/View.lean ====
section
/-!
DEFINITION. What a register reads (spec/01_register_pages.md R24): the words that the device keeps as it goes, and the live registers, whose
value follows from the rest of the state at the instant of the read; and what the read-only windows hold.
-/
namespace Sys2Proof.Machine

/-- A word from bits, by place. -/
def bitsWord (l : List (Nat × Bool)) : Word := word (l.foldl (fun a x => a + b2n x.2 * 2 ^ x.1) 0)

/-- A signed value in two's complement of 32 bits. -/
def wordInt (i : Int) : Word := BitVec.ofInt 32 i

/-! ### STAT -/

/-- Whether tables of a reshape wait for their edge in cluster `c` (spec/05_string_images.md R153). -/
def stagedFor (s : State) (c : Nat) : Bool :=
  match s.str.reshape with | some r => r.staged && (changedClusters s r.alt).contains c | none => false

/-- The block bits of STAT of page `pg`. -/
def statBits (s : State) (k : PageKind) (n : Nat) : Word :=
  match k with
  | .me =>
    let e := engOf s n
    word (b2n e.running * 4 + b2n (e.tablePend || stagedFor s (n / 4)) * 8 + (if stringIdle s n then 15 else match e.part with | some p => p % 16 | none => 15) * 16)
  | .clu => word (b2n ((tget Cluster.init s.clu n).tabPend || stagedFor s n) * 4 + b2n (clusterQuiet s n s.now) * 8)
  | .hop0 => word (b2n s.hop.bufOdd * 4)
  | .car0 => word (b2n s.car.front1 * 4)
  | _ => 0

/-! ### The mailbox (R29, R30) -/

/-- MBX_CTRL and MBX_DATA as TID `tid` reads them: VALID and the words are those of the OWNER alone. -/
def mailboxView (s : State) (tid pg off : Nat) : Word :=
  let m := mailbox s pg
  let on := m.valid && m.owner = tid
  if off = Off.MBX_CTRL then word (b2n on + m.owner % 16 * 16)
  else if on then m.data.getD ((off - Off.MBX_DATA) / 4) 0 else 0

/-! ### Time bases (spec/15_time_unit.md R388, R389) -/

/-- TB_STAT of time base `d`. -/
def tbStat (s : State) (d : Nat) : Word :=
  let b := tbOf s d
  let st := match b.state with | .stopped => 0 | .freerun => 1 | .locking => 2 | .locked => 3 | .holdover => 4
  word (st + b2n (synced s d) * 8 + b2n b.refS * 16 + b2n b.switching * 32 + b2n b.slewing * 64 + b2n b.stepArmed * 128 + b.swResult % 8 * 256)

/-- OFFSET of time base `d`: ns, saturating. -/
def tbOffset (s : State) (d : Nat) : Word := wordInt (max (-2147483648) (min 2147483647 ((tbOf s d).offset.fdiv 65536)))

/-- The live registers of TIME page 1. -/
def time1View (s : State) (off : Nat) : Word :=
  match findRow rowsTime1 off with
  | some (r, d) =>
    if r.off = Off.TB_STAT then tbStat s d
    else if r.off = Off.TB_RATE then wordInt (tbOf s d).rate
    else if r.off = Off.TB_OFFSET then tbOffset s d
    else reg s pgTime1 off
  | none => 0

/-- The live registers of TIME page 2. -/
def time2View (s : State) (off : Nat) : Word :=
  match findRow rowsTime2 off with
  | some (r, p) =>
    let x := tget PtpPort.init s.tim.ports p
    if r.off = Off.PD_STAT_P then word (b2n x.valid)
    else if r.off = Off.MEAN_DELAY then wordInt x.meanDelay
    else if r.off = Off.NRR then wordInt x.nrr
    else reg s pgTime2 off
  | none => 0

/-! ### Tenants (spec/12_tenants.md R311, R312) -/

/-- TEN_STATE of tenant `t`. -/
def tenStateWord (s : State) (t : Nat) : Word :=
  let x := tenOf s t
  let pend := match x.pend with | some c => c.kind % 8 | none => 0
  let sharePend := (List.range 4).any (fun r => shareWritten s t r ≠ shareOf s t r)
  word (tenStateCode s t + pend * 16 + b2n x.dirty * 0x100 + b2n x.restored * 0x200 + b2n x.job.isSome * 0x400 + x.fcause % 16 * 0x1000
    + b2n sharePend * 0x10000)

/-- The live registers of TEN page `t`. -/
def tenantView (s : State) (t off : Nat) : Word :=
  if off = Off.TEN_STATE then tenStateWord s t
  else if Off.OCC ≤ off && off < Off.OCC + 0x10 then word (tenOcc s t ((off - Off.OCC) / 4))
  else if Off.EVT_MIRROR ≤ off && off < Off.EVT_MIRROR + 0x18 then
    (let m := mirrored t ((off - Off.EVT_MIRROR) / 4); reg s m.1 m.2.1)
  else reg s (pgTen t) off

/-- FREE(r). -/
def shareFree (s : State) (r : Nat) : Nat := shareTotal r - (List.range (numTids s.variant)).foldl (fun a t => a + shareWritten s t r) 0

/-- The live registers of the TEN shared page. -/
def sharedView (s : State) (off : Nat) : Word :=
  if off = Off.STATES_LO then tenStates s 0
  else if off = Off.STATES_HI then tenStates s 1
  else if off = Off.RESET_BUSY then bitsWord ((List.range (numTids s.variant)).map (fun t => (t, decide ((tenOf s t).state = .resetting))))
  else if Off.FREE ≤ off && off < Off.FREE + 0x10 then word (shareFree s ((off - Off.FREE) / 4))
  else reg s pgTens off

/-! ### The pair (spec/13_redundant_pair.md R341) -/

/-- PAIR_STAT. -/
def pairStat (s : State) : Word :=
  let p := s.pair
  let role := match p.role with | .none => 0 | .standby => 1 | .leased => 2 | .solo => 3
  word (p.link % 4 + role * 4 + ownUnit s * 16 + p.peerMode % 16 * 0x10000)
    ||| bitsWord [(8, p.stringDown), (9, p.backupDown), (10, p.fit), (11, peerFit s), (12, skewOk s), (13, cfgDiff s), (14, peerHasTop s)]

/-- COPY_LEFT: the copy counts down by one a cycle, and EXPIRED shows while the guard runs. -/
def copyLeft (s : State) : Word :=
  match s.pair.copyAt with
  | some c => word ((c - s.now) % 2 ^ 23 + b2n s.pair.copyOut * 2 ^ 24)
  | none => 0

/-- HO_STAT. -/
def hoStat (s : State) : Word :=
  let h := s.pair.ho
  word (h.state % 8 + h.kind % 4 * 16 + h.result % 16 * 0x100 + h.drill % 16 * 0x1000)

/-- The live registers of PAIR page 0. -/
def pairView (s : State) (off : Nat) : Word :=
  if off = Off.PAIR_STAT then pairStat s
  else if off = Off.LEASE_LEFT then (if s.pair.role = .leased then word ((s.pair.expiry - s.tick.count) % 32) else 0)
  else if off = Off.COPY_LEFT then copyLeft s
  else if off = Off.HO_STAT then hoStat s
  else reg s pgPair0 off

/-! ### All pages -/

/-- A word of SRC_PEND or SRC_CLAIMED (R36). -/
def sourceWord (f : Nat → Bool) (i : Nat) : Word := bitsWord ((List.range 32).map (fun b => (b, f (32 * i + b))))

/-- The live registers of IRQ page 0. -/
def routerView (s : State) (off : Nat) : Word :=
  if Off.SRC_PEND ≤ off && off < Off.SRC_PEND + 0x20 then sourceWord (pendingSrc s) ((off - Off.SRC_PEND) / 4)
  else if Off.SRC_CLAIMED ≤ off && off < Off.SRC_CLAIMED + 0x20 then
    sourceWord (fun n => s.irq.claimed.any (fun p => p.1 = n)) ((off - Off.SRC_CLAIMED) / 4)
  else reg s pgIrq0 off

/-- WDOG_LEFT: the ms that remain, a part of one counted as a whole (spec/17_modes_clocks_power.md R428). -/
def wdogLeft (s : State) : Word :=
  match s.mod.wdogAt with
  | some e => word ((e - s.now + msCycles - 1) / msCycles)
  | none => 0

/-- COEF(i) of the bank that COEF_SEL names (spec/07_decimation_chain.md R200). -/
def coefView (s : State) (off : Nat) : Word :=
  if Off.COEF ≤ off && off < Off.COEF + 0x200 then
    tget 0 s.dec.coef (128 * (2 * regFld s pgDec1 Off.COEF_SEL 0 6 + regFld s pgDec1 Off.COEF_SEL 8 1) + (off - Off.COEF) / 4)
  else reg s pgDec1 off

/-- A block-specific register as it reads. -/
def blockView (s : State) (k : PageKind) (n pg off : Nat) : Word :=
  match k with
  | .mode => if off = Off.WDOG_LEFT then wdogLeft s else reg s pg off
  | .irq0 => routerView s off
  | .me => if off = Off.ME_CYCLE then word (meCycle s) else reg s pg off
  | .dec1 => coefView s off
  | .ten => tenantView s n off
  | .tens => sharedView s off
  | .pair0 => pairView s off
  | .time0 => if off = Off.TICK_STAT then word (b2n s.tick.running) else reg s pg off
  | .time1 => time1View s off
  | .time2 => time2View s off
  | _ => reg s pg off

/-- The SC bits of a register whose command has not ended, which read 1 (R24). -/
def runningBits (s : State) (k : PageKind) (n pg off : Nat) : Word :=
  if off = Off.CTRL then (if regBit s pg Off.STAT 1 then 2 else 0)
  else if off = Off.IND_CTRL then (if s.ind.any (fun p => p.1 = pg && p.2 = .read) then 0x100 else 0)
  else
    match k with
    | .mode => if off = Off.MODE_CMD then (match s.mod.pend with | some c => 1 <<< c.kind | none => 0) else 0
    | .str0 => if off = Off.LD_CMD && s.str.load.isSome then 1 else 0
    | .str1 => if off = Off.RS_CMD && s.str.reshape.isSome then 1 else 0
    | .time1 =>
      let d := (off - Off.TB_CMD) / 0x40
      if Off.TB_CMD ≤ off && (off - Off.TB_CMD) % 0x40 = 0 then
        bitsWord [(3, (tbOf s d).slewing), (4, d = 0 && ((tbOf s d).switching || (tbOf s d).swPend))]
      else 0
    | .ten =>
      let x := tenOf s n
      if off = Off.TEN_CMD then
        (match x.pend with | some c => 1 <<< c.kind | none => 0) ||| (match x.job with | some j => 1 <<< j.op | none => 0)
          ||| bitsWord [(4, decide (x.state = .resetting)), (9, x.faultPend)]
      else 0
    | _ => 0

/-- The register at offset `off` of page `pg` as TID `tid` reads it. A read of CLAIM is CLAIM_READ. -/
def view (s : State) (tid pg off : Nat) : Word :=
  match pageAt pg with
  | none => 0
  | some (k, n) =>
    if runningBits s k n pg off ≠ 0 then reg s pg off ||| runningBits s k n pg off
    else if off = Off.STAT then (reg s pg off &&& 3) ||| statBits s k n
    else if off = Off.MBX_CTRL || (Off.MBX_DATA ≤ off && off < Off.IND_ADDR) then mailboxView s tid pg off
    else if off < 0x60 then reg s pg off
    else blockView s k n pg off

/-! ### The answer of a read -/

/-- Whether `tid` may read offset `off` of page `pg` (spec/01_register_pages.md R22 and its exceptions). -/
def mayRead (s : State) (tid pg off : Nat) : Bool :=
  match pageAt pg with
  | none => false
  | some (k, _) =>
    tid = 0 || k = .dir || k = .tens || blockTenant k off = some tid || (k = .irq1 && 0x30 ≤ off && off < 0x50)
      || regFld s pg Off.TID_OWNER 0 4 = tid

/-- How the device answers a read of 32 bits at offset `off` of page `pg` by `tid`, in the order in which a write is judged; a read that
R22 forbids sets TID_VIOL. One that a soft reset holds is answered when the reset completes (R20), and has no answer yet. -/
def readRegister (tid pg off : Nat) (s : State) : State :=
  match pageAt pg with
  | none => deny s
  | some (k, n) =>
    if tid ≠ 0 ∧ (tenOf s tid).state = .resetting then deny s
    else if !pagePresent s.variant pg || !implemented k n off then deny s
    else if 0x60 ≤ off ∧ poweredDown s k n then deny s
    else if 0x60 ≤ off ∧ regBit s pg Off.STAT 1 then { s with resp := .none }
    else if !mayRead s tid pg off then deny (flagErr pg 2 off tid false s)
    else { s with resp := .value (view s tid pg off) }

/-! ### The read-only windows (spec/01_register_pages.md R13) -/

/-- The first word of an arrival record (spec/06_hopper_ingest.md R181). -/
def recordWord (r : HopRec) : Nat :=
  r.tick % 65536 + b2n r.present * 2 ^ 16 + b2n r.unsync * 2 ^ 17 + b2n r.sim * 2 ^ 18 + r.port % 8 * 2 ^ 19 + r.lan % 4 * 2 ^ 22
    + r.synch % 256 * 2 ^ 24

/-- The byte at offset `o` of the Hopper sample store, as a fabric read takes it (spec/06_hopper_ingest.md R181). -/
def storeWindow (s : State) (o : Nat) : Byte :=
  if o < 0x600000 then
    let i := 64 * (o / 12288) + o % 12288 / 192
    let c := (tget [] s.hop.ring i).getD (o % 192 / 8) (0, 0)
    (leBytes 4 c.1.toNat ++ leBytes 4 c.2.toNat).getD (o % 8) 0
  else if o < 0x640000 then (frameBlock s.hop.even ((o - 0x600000) / 64)).getD (o % 64) 0
  else if o < 0x680000 then (frameBlock s.hop.odd ((o - 0x640000) / 64)).getD (o % 64) 0
  else if o < 0x6C0000 then
    match s.hop.recs.find? (fun r => r.1 = (o - 0x680000) / 8) with
    | some (_, r) => (leBytes 4 (recordWord r) ++ leBytes 4 r.delay).getD (o % 8) 0
    | none => 0
  else 0

/-- The byte at offset `o` of the publish tables: the front buffer holds the table of the latest flip, and the back buffer for each block the
deposit drained so far or the latest publication (spec/08_carafe_publication.md R206, R207). -/
def tableWindow (s : State) (o : Nat) : Byte :=
  let b := o % 0x40000 / 64
  match (if decide (0x40000 ≤ o) = s.car.front1 then none else s.car.drained.find? (fun x => x.1 = b)) with
  | some x => x.2.getD (o % 64) 0
  | none => (blockBytes (published s b)).getD (o % 64) 0

/-! ### The level of the output balls (spec/17_modes_clocks_power.md R429) -/

/-- PULSEn is high. -/
def pulseBall (s : State) (o : Nat) : Bool := poHigh s o

/-- PPS_OUTn is high. -/
def ppsBall (s : State) (o : Nat) : Bool := (tget PpsOut.init s.tim.ppsOut o).high

/-- RSTOUT_N is high: from the entry into PROVISION, where hart 0 is released, to the next RESET. -/
def rstoutBall (s : State) : Bool := s.mod.harts.any (fun h => h.1 = 0)

end Sys2Proof.Machine
end

