-- ==== Sys2Proof/Machine/MailboxCapture.lean ====
section
/-!
DEFINITION. The capture of a wide value into a mailbox (spec/01_register_pages.md R29), and what each page's selectors show (R42; spec/05 R160,
spec/06 R185, spec/08 R224 and R225, spec/09 R247 and R248, spec/10 R263, spec/11 R285, spec/12 R311, spec/13 R342, spec/14 R369, spec/15
R387 and R388, spec/16 R420).
-/
namespace Sys2Proof.Machine

/-- Word `i` of a number. -/
def wordOf (n i : Nat) : Word := word (n / 2 ^ (32 * i))

/-- The six words of 192 bits of a 512-bit value from bit 192 `k` on. -/
def sixWords (n k : Nat) : List Word := (List.range 6).map (fun i => wordOf (n % 2 ^ 512) (6 * k + i))

/-- A TB0 value in 2^−16 ns as ns, seconds, and the high seconds beside the sub-ns. -/
def timeWords (v : Nat) : List Word :=
  let sec := v / 65536 / 10 ^ 9
  [word (v / 65536 % 10 ^ 9), word sec, word (sec / 2 ^ 32 % 65536 + v % 65536 * 65536)]

/-- The event stamp of a context (R42); a context without one shows zeros. -/
def stampWords (s : State) (ctx : Nat) : List Word :=
  match tget none (s.irq.stamps.map (fun p => (p.1, some p.2))) ctx with
  | none => []
  | some x =>
    let time := if x.notime then [0, 0, 0] else [word x.ns, word x.sec, word (x.sec / 2 ^ 32 % 65536 + x.sub % 65536 * 65536)]
    time ++ [word (x.source % 256 + x.tid % 16 * 0x100 + x.hart % 4 * 0x1000 + b2n x.overwritten * 2 ^ 30 + b2n x.notime * 2 ^ 31),
      word x.waitNs, word x.tick]

/-- HOP page 3 (R185): the counters of an entry, or the substitution map of the latest seal. -/
def hopWords (s : State) (code index : Nat) : List Word :=
  if code = 0x20 then sixWords ((latestFrame s.hop).map.foldl (fun a sl => a ||| 2 ^ sl) 0) index
  else (subOf s ((code - 0x10) * 256 + index)).counters.map word

/-- GSE page 0 (R224). -/
def pubWords (s : State) (p : Nat) : List Word :=
  let x := pubOf s p
  [word x.stNum, word x.sqNum, word (x.next.getD 0), word x.sent, word x.gated, word x.keyErrs]

/-- GSE page 1 (R225). -/
def gsubWords (s : State) (k : Nat) : List Word :=
  let x := gsubOf s k
  let st := match x.state with | .never => 0 | .valid => 1 | .expired => 2
  [word x.stNum, word x.sqNum, word (st + b2n x.seqBack * 0x100), word x.accepted, word x.failed, word x.expiries]

/-- QE page 1 (R247): accumulator `a` of point `m`. -/
def energyWords (s : State) (a m : Nat) : List Word :=
  let x := pointOf s m
  let e := tget ⟨0, 0, 0⟩ x.accs a
  [wordOf e.value 0, wordOf e.value 1, word (e.wraps % 65536), word x.lastStep, word x.missed, 0]

/-- The PUL page (R248). -/
def pulseWords (s : State) (o : Nat) : List Word :=
  let x := outOf s o
  let n := if poResidue s o then (residueTo x (s.now / 2)).1 else x.pcnt
  [wordOf n 0, wordOf n 1, wordOf x.inc 0, wordOf x.inc 1, wordOf x.kres.toNat 0, wordOf x.kres.toNat 1]

/-- A recorder's page (R263). -/
def recordWords (s : State) (k i : Nat) : List Word :=
  match (recOf s k).table[i]? with
  | none => []
  | some e =>
    [word e.start, word e.stop, word e.primary, word (e.frac % 256 + e.unit % 8 * 0x100 + b2n e.trunc * 0x10000 + b2n e.preShort * 0x20000),
      word e.samples, word e.first]

/-- LGR page 1 (R285): the element that ONL_SEL names. E, PT and the expiry are those of the timer that a timer element uses; another
element has none (assumption 31). -/
def elementWords (s : State) : List Word :=
  let p := partOf s (regFld s pgLgr1 Off.ONL_SEL 0 4)
  let e := regFld s pgLgr1 Off.ONL_SEL 16 16
  let x := p.points.getD e LPoint.init
  let el := p.elems.getD e 0
  let t := if 0x10 ≤ eOp el && eOp el ≤ 0x12 then tget LTimer.init p.timers (eC el) else LTimer.init
  [x.u, x.v, word (b2n x.invU + b2n x.invV * 2 + b2n x.frc * 4), word t.e, word t.pt, word (t.expiry.getD 0xFFFFFFFF)]

/-- A tenant's page (R311). -/
def tenantWords (s : State) (t : Nat) : List Word :=
  let x := tenOf s t
  [wordOf x.freezeTick 0, wordOf x.freezeTick 1, wordOf x.thawTick 0, wordOf x.thawTick 1, wordOf x.lastStamp 0, wordOf x.lastStamp 1]

/-- PAIR page 1 (R342). -/
def pairWords (s : State) (code t : Nat) : List Word :=
  if code = 1 then
    let c := s.pair.cmp
    let own := c.own.getD t 0
    let peer := c.peer.getD t 0
    [wordOf own 0, wordOf own 1, wordOf peer 0, wordOf peer 1, word c.tick,
      bitsWord [(0, c.compared.testBit t), (1, c.mismatch.testBit t), (2, c.incomp.testBit t), (3, c.stringDown)]]
  else [word (s.pair.peerCfg.getD 0), word s.pair.peerRun, word s.pair.peerFlags, word s.pair.peerTick]

/-- The RED page (R369): node `n` of pair `g`. -/
def nodeWords (s : State) (g n : Nat) : List Word :=
  match (redOf s g).nodes.find? (fun p => p.1 = n) with
  | none => []
  | some (_, x) => [wordOf x.addr 0, wordOf x.addr 1, word x.tickA, word x.tickB, word (1 + b2n x.proxied * 2), 0]

/-- TIME page 0 (R387). -/
def tickWords (s : State) (code i : Nat) : List Word :=
  if code = 2 then
    [wordOf s.tick.count 0, wordOf s.tick.count 1, word s.tick.ns, word s.tick.sec, word (s.tick.sec / 2 ^ 32 % 65536 + s.tick.sub % 65536 * 65536),
      word s.tick.interval]
  else
    let p := tget PpsIn.init s.tim.ppsIn i
    timeWords (p.stamp * 65536) ++ [wordInt p.offset, word p.tb, word p.count]

/-- TIME page 1 (R388), all of one fabric cycle. -/
def timeBaseWords (s : State) (d : Nat) : List Word :=
  timeWords (tbSub s d s.now) ++ [tbStat s d, wordInt (tbOf s d).rate, word s.tick.count]

/-- The VLT page (R420) for the TID that wrote the selector. The spec numbers no KIND (assumption 21). -/
def vaultWords (s : State) (tid code i : Nat) : List Word :=
  if code = 1 then sixWords (s.vlt.meas.getD (i / 3) 0) (i % 3)
  else
    let x := slotInfoOf s.vlt i
    if tid ≠ 0 && x.tid ≠ tid then []
    else
      let stale := slotStale s.vlt 10 i
      let n := if x.counted then x.count else if x.kind = .verify then x.keyId else 0
      [word (kindCode x.kind + x.use % 256 * 0x100 + x.tid % 16 * 0x10000 + x.depth % 16 * 0x100000 + b2n x.persist * 2 ^ 24 + b2n x.counted * 2 ^ 25
        + b2n stale * 2 ^ 26), word x.parent, word x.gen, word x.pgen, wordOf n 0, wordOf n 1]

/-- What the selector of page `pg` with this code and index shows to TID `tid`; words behind the last read 0. -/
def snapshotWords (s : State) (tid pg code index : Nat) : List Word :=
  match pageAt pg with
  | some (.irq1, _) => stampWords s index
  | some (.str3, _) => sixWords s.str.digest index
  | some (.hop3, _) => hopWords s code index
  | some (.gse0, _) => pubWords s index
  | some (.gse1, _) => gsubWords s ((code - 0x10) * 256 + index)
  | some (.qe1, _) => energyWords s (code - 0x100) index
  | some (.pul, _) => pulseWords s index
  | some (.cap, k) => recordWords s k index
  | some (.lgr1, _) => elementWords s
  | some (.ten, t) => tenantWords s t
  | some (.pair1, _) => pairWords s code index
  | some (.red, _) => nodeWords s (code - 0x10) index
  | some (.time0, _) => tickWords s code index
  | some (.time1, _) => timeBaseWords s index
  | some (.vlt, _) => vaultWords s tid code index
  | _ => []

/-- An event stamp of which a snapshot has been taken (R42). -/
def noteTaken (pg index : Nat) (s : State) : State :=
  if pg = pgIrq1 then { s with irq := { s.irq with stamps := s.irq.stamps.map (fun p => if p.1 = index then (p.1, { p.2 with taken := true }) else p) } }
  else s

/-- MAILBOX_CAPTURE (R29): the selected value is held, and VALID is set. -/
def mailboxCapture (pg tm : Nat) (s : State) : State :=
  let s0 := advance s tm
  let m := mailbox s0 pg
  match m.waiting with
  | none => s0
  | some sel =>
    let code := fld sel 0 16
    let index := fld sel 16 8
    let ws := snapshotWords s0 m.owner pg code index
    noteTaken pg index (setMailbox s0 pg { m with waiting := none, valid := true, data := (List.range 6).map (fun i => ws.getD i 0) })

/-- MAILBOX_CAPTURE. -/
def execMailboxCapture (page tm : Nat) (s : State) : Host.Outcome State Fault Refusal := .next (mailboxCapture page tm s)

end Sys2Proof.Machine
end

