-- ==== Sys2Proof/Machine/Dispatch.lean ====
section
/-!
DEFINITION. The dispatch of every command to its meaning.
-/
namespace Sys2Proof.Machine

/-- The effect of a command on everything but the queue. -/
def exec (i : Instr) (s : State) : Host.Outcome State Fault Refusal :=
  match i with
  | .registerWrite tid size addr data => Sys2Proof.Machine.execRegisterWrite tid size addr data s
  | .softReset tid page => Sys2Proof.Machine.execSoftReset tid page s
  | .softResetComplete page tm => Sys2Proof.Machine.execSoftResetComplete page tm s
  | .blockEnable tid page data => Sys2Proof.Machine.execBlockEnable tid page data s
  | .irqForce tid page data => Sys2Proof.Machine.execIrqForce tid page data s
  | .groupLock tid page data => Sys2Proof.Machine.execGroupLock tid page data s
  | .tidOwnerWrite tid page data => Sys2Proof.Machine.execTidOwnerWrite tid page data s
  | .srcCfgWrite tid src data => Sys2Proof.Machine.execSrcCfgWrite tid src data s
  | .interruptLineUpdate tm => Sys2Proof.Machine.execInterruptLineUpdate tm s
  | .claimRead tid ctx => Sys2Proof.Machine.execClaimRead tid ctx s
  | .claimComplete tid ctx data => Sys2Proof.Machine.execClaimComplete tid ctx data s
  | .mailboxRelease tid page index => Sys2Proof.Machine.execMailboxRelease tid page index s
  | .mailboxDone tid page => Sys2Proof.Machine.execMailboxDone tid page s
  | .mailboxCapture page tm => Sys2Proof.Machine.execMailboxCapture page tm s
  | .undefinedSelector tid page sel => Sys2Proof.Machine.execUndefinedSelector tid page sel s
  | .eventStampSnapshot tid ctx => Sys2Proof.Machine.execEventStampSnapshot tid ctx s
  | .imageDigestSnapshot tid index => Sys2Proof.Machine.execImageDigestSnapshot tid index s
  | .subscriptionCountersSnapshot tid entry => Sys2Proof.Machine.execSubscriptionCountersSnapshot tid entry s
  | .substitutionMapSnapshot tid index => Sys2Proof.Machine.execSubstitutionMapSnapshot tid index s
  | .publicationSnapshot tid pub => Sys2Proof.Machine.execPublicationSnapshot tid pub s
  | .subscriptionStateSnapshot tid sub => Sys2Proof.Machine.execSubscriptionStateSnapshot tid sub s
  | .energySnapshot tid acc point => Sys2Proof.Machine.execEnergySnapshot tid acc point s
  | .pulseSnapshot tid output => Sys2Proof.Machine.execPulseSnapshot tid output s
  | .recordTableSnapshot tid rec index => Sys2Proof.Machine.execRecordTableSnapshot tid rec index s
  | .elementSnapshot tid => Sys2Proof.Machine.execElementSnapshot tid s
  | .migrationTicksSnapshot tid tenant => Sys2Proof.Machine.execMigrationTicksSnapshot tid tenant s
  | .digestSnapshot tid tenant => Sys2Proof.Machine.execDigestSnapshot tid tenant s
  | .peerSnapshot tid => Sys2Proof.Machine.execPeerSnapshot tid s
  | .nodeSnapshot tid pair node => Sys2Proof.Machine.execNodeSnapshot tid pair node s
  | .tickSnapshot tid => Sys2Proof.Machine.execTickSnapshot tid s
  | .ppsInSnapshot tid input => Sys2Proof.Machine.execPpsInSnapshot tid input s
  | .timeBaseSnapshot tid tb => Sys2Proof.Machine.execTimeBaseSnapshot tid tb s
  | .measurementSnapshot tid index => Sys2Proof.Machine.execMeasurementSnapshot tid index s
  | .slotSnapshot tid slot => Sys2Proof.Machine.execSlotSnapshot tid slot s
  | .indirectWrite tid page data => Sys2Proof.Machine.execIndirectWrite tid page data s
  | .indirectRead tid page data => Sys2Proof.Machine.execIndirectRead tid page data s
  | .indirectDone page tm => Sys2Proof.Machine.execIndirectDone page tm s
  | .fabricEngineAccess tid addr len write tm => Sys2Proof.Machine.execFabricEngineAccess tid addr len write tm s
  | .fabricAccessServed index tm => Sys2Proof.Machine.execFabricAccessServed index tm s
  | .ddrAccess tid addr len write => Sys2Proof.Machine.execDdrAccess tid addr len write s
  | .tickEdge tm => Sys2Proof.Machine.execTickEdge tm s
  | .partitionTableApply engine tm => Sys2Proof.Machine.execPartitionTableApply engine tm s
  | .slotTableApply cluster tm => Sys2Proof.Machine.execSlotTableApply cluster tm s
  | .pubPointWrite tid data => Sys2Proof.Machine.execPubPointWrite tid data s
  | .pubPointApply tm => Sys2Proof.Machine.execPubPointApply tm s
  | .partitionWindowOpen engine tm => Sys2Proof.Machine.execPartitionWindowOpen engine tm s
  | .windowFence engine tm => Sys2Proof.Machine.execWindowFence engine tm s
  | .sealPoint tm => Sys2Proof.Machine.execSealPoint tm s
  | .sealComplete tm => Sys2Proof.Machine.execSealComplete tm s
  | .flip tm => Sys2Proof.Machine.execFlip tm s
  | .bundleFetch engine tm => Sys2Proof.Machine.execBundleFetch engine tm s
  | .nop engine slot qp => Sys2Proof.Machine.execNop engine slot qp s
  | .fadd engine slot qp vd va vb vc => Sys2Proof.Machine.execFadd engine slot qp vd va vb vc s
  | .fsub engine slot qp vd va vb vc => Sys2Proof.Machine.execFsub engine slot qp vd va vb vc s
  | .fmul engine slot qp vd va vb vc => Sys2Proof.Machine.execFmul engine slot qp vd va vb vc s
  | .fma engine slot qp vd va vb vc => Sys2Proof.Machine.execFma engine slot qp vd va vb vc s
  | .fms engine slot qp vd va vb vc => Sys2Proof.Machine.execFms engine slot qp vd va vb vc s
  | .fnma engine slot qp vd va vb vc => Sys2Proof.Machine.execFnma engine slot qp vd va vb vc s
  | .fhsum engine slot qp vd va vb vc => Sys2Proof.Machine.execFhsum engine slot qp vd va vb vc s
  | .cvtf engine slot qp vd va vb vc => Sys2Proof.Machine.execCvtf engine slot qp vd va vb vc s
  | .cvti engine slot qp vd va vb vc => Sys2Proof.Machine.execCvti engine slot qp vd va vb vc s
  | .imul engine slot qp vd va vb vc => Sys2Proof.Machine.execImul engine slot qp vd va vb vc s
  | .imadd engine slot qp vd va vb vc => Sys2Proof.Machine.execImadd engine slot qp vd va vb vc s
  | .imulh engine slot qp vd va vb vc => Sys2Proof.Machine.execImulh engine slot qp vd va vb vc s
  | .qmul engine slot qp vd va vb vc => Sys2Proof.Machine.execQmul engine slot qp vd va vb vc s
  | .aop engine qp ad aa ab fn => Sys2Proof.Machine.execAop engine qp ad aa ab fn s
  | .addi engine qp ad aa imm => Sys2Proof.Machine.execAddi engine qp ad aa imm s
  | .andi engine qp ad aa imm => Sys2Proof.Machine.execAndi engine qp ad aa imm s
  | .ori engine qp ad aa imm => Sys2Proof.Machine.execOri engine qp ad aa imm s
  | .xori engine qp ad aa imm => Sys2Proof.Machine.execXori engine qp ad aa imm s
  | .shli engine qp ad aa imm => Sys2Proof.Machine.execShli engine qp ad aa imm s
  | .shri engine qp ad aa imm => Sys2Proof.Machine.execShri engine qp ad aa imm s
  | .sari engine qp ad aa imm => Sys2Proof.Machine.execSari engine qp ad aa imm s
  | .slti engine qp ad aa imm => Sys2Proof.Machine.execSlti engine qp ad aa imm s
  | .li engine qp ad sel imm => Sys2Proof.Machine.execLi engine qp ad sel imm s
  | .vop engine qp fd fa fb fn => Sys2Proof.Machine.execVop engine qp fd fa fb fn s
  | .vcmp engine qp fd fa fb fn => Sys2Proof.Machine.execVcmp engine qp fd fa fb fn s
  | .vsel engine qp fd fa fb fn => Sys2Proof.Machine.execVsel engine qp fd fa fb fn s
  | .vsplat engine qp fd fa fb fn => Sys2Proof.Machine.execVsplat engine qp fd fa fb fn s
  | .vext engine qp fd fa fb fn => Sys2Proof.Machine.execVext engine qp fd fa fb fn s
  | .tlu engine qp fd fa fb fn => Sys2Proof.Machine.execTlu engine qp fd fa fb fn s
  | .qop engine qp fd fa fb fn => Sys2Proof.Machine.execQop engine qp fd fa fb fn s
  | .qset engine qp fd fa fb fn => Sys2Proof.Machine.execQset engine qp fd fa fb fn s
  | .qfroma engine qp fd fa fb fn => Sys2Proof.Machine.execQfroma engine qp fd fa fb fn s
  | .afromq engine qp fd fa fb fn => Sys2Proof.Machine.execAfromq engine qp fd fa fb fn s
  | .acmp engine qp fd fa fb fn => Sys2Proof.Machine.execAcmp engine qp fd fa fb fn s
  | .lda engine qp rg ab imm => Sys2Proof.Machine.execLda engine qp rg ab imm s
  | .ldv engine qp rg ab imm => Sys2Proof.Machine.execLdv engine qp rg ab imm s
  | .ldb engine qp rg ab imm => Sys2Proof.Machine.execLdb engine qp rg ab imm s
  | .sta engine qp rg ab imm => Sys2Proof.Machine.execSta engine qp rg ab imm s
  | .stv engine qp rg ab imm => Sys2Proof.Machine.execStv engine qp rg ab imm s
  | .ldvp engine qp rg ab imm => Sys2Proof.Machine.execLdvp engine qp rg ab imm s
  | .stvp engine qp rg ab imm => Sys2Proof.Machine.execStvp engine qp rg ab imm s
  | .clrd engine qp al ar imm7 imm6 => Sys2Proof.Machine.execClrd engine qp al ar imm7 imm6 s
  | .clwr engine qp al ar imm7 imm6 => Sys2Proof.Machine.execClwr engine qp al ar imm7 imm6 s
  | .ovl engine qp al ar imm7 imm6 => Sys2Proof.Machine.execOvl engine qp al ar imm7 imm6 s
  | .hrd engine qp al ar imm7 imm6 => Sys2Proof.Machine.execHrd engine qp al ar imm7 imm6 s
  | .dep engine qp al ar imm7 imm6 => Sys2Proof.Machine.execDep engine qp al ar imm7 imm6 s
  | .br engine qp tgt => Sys2Proof.Machine.execBr engine qp tgt s
  | .bra engine qp aa => Sys2Proof.Machine.execBra engine qp aa s
  | .waitUntil engine qp n => Sys2Proof.Machine.execWaitUntil engine qp n s
  | .waita engine qp aa => Sys2Proof.Machine.execWaita engine qp aa s
  | .loopOpen engine qp cm1 len => Sys2Proof.Machine.execLoopOpen engine qp cm1 len s
  | .pend engine qp => Sys2Proof.Machine.execPend engine qp s
  | .illegalOperation engine slot w => Sys2Proof.Machine.execIllegalOperation engine slot w s
  | .registerWriteback engine tm => Sys2Proof.Machine.execRegisterWriteback engine tm s
  | .branchRedirect engine tm => Sys2Proof.Machine.execBranchRedirect engine tm s
  | .waitEnd engine tm => Sys2Proof.Machine.execWaitEnd engine tm s
  | .clusterBankAccess cluster tm => Sys2Proof.Machine.execClusterBankAccess cluster tm s
  | .clrdLanding engine tm => Sys2Proof.Machine.execClrdLanding engine tm s
  | .hrdLanding engine tm => Sys2Proof.Machine.execHrdLanding engine tm s
  | .overlayLanding engine tm => Sys2Proof.Machine.execOverlayLanding engine tm s
  | .depositAccept engine tm => Sys2Proof.Machine.execDepositAccept engine tm s
  | .carafeDrain tm => Sys2Proof.Machine.execCarafeDrain tm s
  | .scrubRow unit row tm => Sys2Proof.Machine.execScrubRow unit row tm s
  | .stringLoad tid => Sys2Proof.Machine.execStringLoad tid s
  | .ldVerify tid => Sys2Proof.Machine.execLdVerify tid s
  | .ldAbort tid => Sys2Proof.Machine.execLdAbort tid s
  | .loadDone tm => Sys2Proof.Machine.execLoadDone tm s
  | .reshapeRequest tid => Sys2Proof.Machine.execReshapeRequest tid s
  | .rsCancel tid => Sys2Proof.Machine.execRsCancel tid s
  | .reshapeStage tm => Sys2Proof.Machine.execReshapeStage tm s
  | .reshapeApply tm => Sys2Proof.Machine.execReshapeApply tm s
  | .hopCfgWrite tid data => Sys2Proof.Machine.execHopCfgWrite tid data s
  | .frangeWrite tid tenant data => Sys2Proof.Machine.execFrangeWrite tid tenant data s
  | .hopSubRead tid => Sys2Proof.Machine.execHopSubRead tid s
  | .hopSubWrite tid => Sys2Proof.Machine.execHopSubWrite tid s
  | .arrClr tid => Sys2Proof.Machine.execArrClr tid s
  | .svFrame port frame tm => Sys2Proof.Machine.execSvFrame port frame tm s
  | .chainEnable tid chain data => Sys2Proof.Machine.execChainEnable tid chain data s
  | .chainSync tid chain => Sys2Proof.Machine.execChainSync tid chain s
  | .swap tid chain => Sys2Proof.Machine.execSwap tid chain s
  | .swapStart chain tm => Sys2Proof.Machine.execSwapStart chain tm s
  | .fadeEnd chain tm => Sys2Proof.Machine.execFadeEnd chain tm s
  | .ptRead tid => Sys2Proof.Machine.execPtRead tid s
  | .ptWrite tid => Sys2Proof.Machine.execPtWrite tid s
  | .eclr tid => Sys2Proof.Machine.execEclr tid s
  | .freqTimeout point tm => Sys2Proof.Machine.execFreqTimeout point tm s
  | .residueCarry output tm => Sys2Proof.Machine.execResidueCarry output tm s
  | .pulseEnable tid output data => Sys2Proof.Machine.execPulseEnable tid output data s
  | .pulseDisable tid output data => Sys2Proof.Machine.execPulseDisable tid output data s
  | .pulseStart output tm => Sys2Proof.Machine.execPulseStart output tm s
  | .pulseEnd output tm => Sys2Proof.Machine.execPulseEnd output tm s
  | .pulseLowEnd output tm => Sys2Proof.Machine.execPulseLowEnd output tm s
  | .recorderEnable tid rec data => Sys2Proof.Machine.execRecorderEnable tid rec data s
  | .recorderDisable tid rec data => Sys2Proof.Machine.execRecorderDisable tid rec data s
  | .recStart tid rec => Sys2Proof.Machine.execRecStart tid rec s
  | .recStop tid rec => Sys2Proof.Machine.execRecStop tid rec s
  | .mtrig tid rec => Sys2Proof.Machine.execMtrig tid rec s
  | .recRelease tid rec => Sys2Proof.Machine.execRecRelease tid rec s
  | .logicLoad tid data => Sys2Proof.Machine.execLogicLoad tid data s
  | .logicLoadDone tm => Sys2Proof.Machine.execLogicLoadDone tm s
  | .logicPartitionEnable tid tenant data => Sys2Proof.Machine.execLogicPartitionEnable tid tenant data s
  | .applyChange tid => Sys2Proof.Machine.execApplyChange tid s
  | .forceSet tid => Sys2Proof.Machine.execForceSet tid s
  | .forceRelease tid => Sys2Proof.Machine.execForceRelease tid s
  | .idleClr tid => Sys2Proof.Machine.execIdleClr tid s
  | .scanComplete tenant tm => Sys2Proof.Machine.execScanComplete tenant tm s
  | .laneWrite tid offset data => Sys2Proof.Machine.execLaneWrite tid offset data s
  | .laneApply tm => Sys2Proof.Machine.execLaneApply tm s
  | .slackClr tid => Sys2Proof.Machine.execSlackClr tid s
  | .gsePubRead tid => Sys2Proof.Machine.execGsePubRead tid s
  | .gsePubWrite tid => Sys2Proof.Machine.execGsePubWrite tid s
  | .gseSubRead tid => Sys2Proof.Machine.execGseSubRead tid s
  | .gseSubWrite tid => Sys2Proof.Machine.execGseSubWrite tid s
  | .gooseRetransmit pub tm => Sys2Proof.Machine.execGooseRetransmit pub tm s
  | .gooseFrame port frame tm => Sys2Proof.Machine.execGooseFrame port frame tm s
  | .talExpiry sub tm => Sys2Proof.Machine.execTalExpiry sub tm s
  | .portPowerUp port tm => Sys2Proof.Machine.execPortPowerUp port tm s
  | .linkUp port tm => Sys2Proof.Machine.execLinkUp port tm s
  | .linkDown port tm => Sys2Proof.Machine.execLinkDown port tm s
  | .frameReceived port frame err tm => Sys2Proof.Machine.execFrameReceived port frame err tm s
  | .pauseTimerExpiry port tm => Sys2Proof.Machine.execPauseTimerExpiry port tm s
  | .pauseRepeat port tm => Sys2Proof.Machine.execPauseRepeat port tm s
  | .rxDescriptorComplete port tm => Sys2Proof.Machine.execRxDescriptorComplete port tm s
  | .txTail tid port tenant data => Sys2Proof.Machine.execTxTail tid port tenant data s
  | .rxTail tid port tenant data => Sys2Proof.Machine.execRxTail tid port tenant data s
  | .txFrameEnd port tm => Sys2Proof.Machine.execTxFrameEnd port tm s
  | .verifyTimer port tm => Sys2Proof.Machine.execVerifyTimer port tm s
  | .ringEnable tid page offset data => Sys2Proof.Machine.execRingEnable tid page offset data s
  | .ringDisable tid page offset data => Sys2Proof.Machine.execRingDisable tid page offset data s
  | .ringDisableDone page offset tm => Sys2Proof.Machine.execRingDisableDone page offset tm s
  | .redCfgWrite tid pair data => Sys2Proof.Machine.execRedCfgWrite tid pair data s
  | .supervisionTimer pair tm => Sys2Proof.Machine.execSupervisionTimer pair tm s
  | .nodeForget pair node proxy tm => Sys2Proof.Machine.execNodeForget pair node proxy tm s
  | .tbStart tid tb => Sys2Proof.Machine.execTbStart tid tb s
  | .tbStop tid tb => Sys2Proof.Machine.execTbStop tid tb s
  | .tbSet tid tb => Sys2Proof.Machine.execTbSet tid tb s
  | .slew tid tb => Sys2Proof.Machine.execSlew tid tb s
  | .switchRef tid => Sys2Proof.Machine.execSwitchRef tid s
  | .switchStart tm => Sys2Proof.Machine.execSwitchStart tm s
  | .syncReceived port frame tm => Sys2Proof.Machine.execSyncReceived port frame tm s
  | .followUpReceived port frame tm => Sys2Proof.Machine.execFollowUpReceived port frame tm s
  | .pdelayReqReceived port frame tm => Sys2Proof.Machine.execPdelayReqReceived port frame tm s
  | .pdelayRespReceived port frame tm => Sys2Proof.Machine.execPdelayRespReceived port frame tm s
  | .pdelayRespFollowUpReceived port frame tm => Sys2Proof.Machine.execPdelayRespFollowUpReceived port frame tm s
  | .pdelayReqSend port tm => Sys2Proof.Machine.execPdelayReqSend port tm s
  | .syncSend port tb tm => Sys2Proof.Machine.execSyncSend port tb tm s
  | .ptpTail tid data => Sys2Proof.Machine.execPtpTail tid data s
  | .holdoverEntry tb tm => Sys2Proof.Machine.execHoldoverEntry tb tm s
  | .holdMaxExpiry tb tm => Sys2Proof.Machine.execHoldMaxExpiry tb tm s
  | .tickCfgWrite tid data => Sys2Proof.Machine.execTickCfgWrite tid data s
  | .ppsInEdge input tm => Sys2Proof.Machine.execPpsInEdge input tm s
  | .ppsOutPulse output tm => Sys2Proof.Machine.execPpsOutPulse output tm s
  | .compareFire k tm => Sys2Proof.Machine.execCompareFire k tm s
  | .arm tid k data => Sys2Proof.Machine.execArm tid k data s
  | .tenAdmit tid tenant => Sys2Proof.Machine.execTenAdmit tid tenant s
  | .tenantStart tid tenant => Sys2Proof.Machine.execTenantStart tid tenant s
  | .tenantStartApply tenant tm => Sys2Proof.Machine.execTenantStartApply tenant tm s
  | .freeze tid tenant => Sys2Proof.Machine.execFreeze tid tenant s
  | .freezeApply tenant tm => Sys2Proof.Machine.execFreezeApply tenant tm s
  | .thaw tid tenant => Sys2Proof.Machine.execThaw tid tenant s
  | .thawApply tenant tm => Sys2Proof.Machine.execThawApply tenant tm s
  | .tenantCancel tid tenant => Sys2Proof.Machine.execTenantCancel tid tenant s
  | .tenantReset tid tenant => Sys2Proof.Machine.execTenantReset tid tenant s
  | .engineDrainComplete tenant engine tm => Sys2Proof.Machine.execEngineDrainComplete tenant engine tm s
  | .save tid tenant => Sys2Proof.Machine.execSave tid tenant s
  | .saveDone tenant tm => Sys2Proof.Machine.execSaveDone tenant tm s
  | .restore tid tenant => Sys2Proof.Machine.execRestore tid tenant s
  | .restoreDone tenant tm => Sys2Proof.Machine.execRestoreDone tenant tm s
  | .reload tid tenant => Sys2Proof.Machine.execReload tid tenant s
  | .reloadDone tenant tm => Sys2Proof.Machine.execReloadDone tenant tm s
  | .evict tid tenant => Sys2Proof.Machine.execEvict tid tenant s
  | .faultTenant tid tenant => Sys2Proof.Machine.execFaultTenant tid tenant s
  | .faultApply tenant tm => Sys2Proof.Machine.execFaultApply tenant tm s
  | .faultLimitReached tenant tm => Sys2Proof.Machine.execFaultLimitReached tenant tm s
  | .shareWrite tid tenant r data => Sys2Proof.Machine.execShareWrite tid tenant r data s
  | .shareIncreaseApply tenant r tm => Sys2Proof.Machine.execShareIncreaseApply tenant r tm s
  | .ddrWinWrite tid tenant w data => Sys2Proof.Machine.execDdrWinWrite tid tenant w data s
  | .join tid => Sys2Proof.Machine.execJoin tid s
  | .leave tid => Sys2Proof.Machine.execLeave tid s
  | .solo tid => Sys2Proof.Machine.execSolo tid s
  | .soloTake tm => Sys2Proof.Machine.execSoloTake tm s
  | .handover tid => Sys2Proof.Machine.execHandover tid s
  | .drill tid => Sys2Proof.Machine.execDrill tid s
  | .hoAbort tid => Sys2Proof.Machine.execHoAbort tid s
  | .fitSet tid => Sys2Proof.Machine.execFitSet tid s
  | .hello path msg tm => Sys2Proof.Machine.execHello path msg tm s
  | .response path msg tm => Sys2Proof.Machine.execResponse path msg tm s
  | .admissionTimeout tm => Sys2Proof.Machine.execAdmissionTimeout tm s
  | .admissionEnd tm => Sys2Proof.Machine.execAdmissionEnd tm s
  | .pathDown backup tm => Sys2Proof.Machine.execPathDown backup tm s
  | .digest path msg tm => Sys2Proof.Machine.execDigest path msg tm s
  | .heartbeat path msg tm => Sys2Proof.Machine.execHeartbeat path msg tm s
  | .grant path msg tm => Sys2Proof.Machine.execGrant path msg tm s
  | .handoverMessage path msg tm => Sys2Proof.Machine.execHandoverMessage path msg tm s
  | .handoverAck path msg tm => Sys2Proof.Machine.execHandoverAck path msg tm s
  | .releaseMessage path msg tm => Sys2Proof.Machine.execReleaseMessage path msg tm s
  | .abortMessage path msg tm => Sys2Proof.Machine.execAbortMessage path msg tm s
  | .resign path msg tm => Sys2Proof.Machine.execResign path msg tm s
  | .resignClaim tm => Sys2Proof.Machine.execResignClaim tm s
  | .handoverPrecheck tm => Sys2Proof.Machine.execHandoverPrecheck tm s
  | .handoverRelease tm => Sys2Proof.Machine.execHandoverRelease tm s
  | .revert tm => Sys2Proof.Machine.execRevert tm s
  | .leaseExpiry tm => Sys2Proof.Machine.execLeaseExpiry tm s
  | .tickLoss tm => Sys2Proof.Machine.execTickLoss tm s
  | .gateSense sense tm => Sys2Proof.Machine.execGateSense sense tm s
  | .copyExpiry tm => Sys2Proof.Machine.execCopyExpiry tm s
  | .claim tm => Sys2Proof.Machine.execClaim tm s
  | .vqTail tid tenant data => Sys2Proof.Machine.execVqTail tid tenant data s
  | .deriveKey tm => Sys2Proof.Machine.execDeriveKey tm s
  | .invalidate tm => Sys2Proof.Machine.execInvalidate tm s
  | .delete tm => Sys2Proof.Machine.execDelete tm s
  | .sign tm => Sys2Proof.Machine.execSign tm s
  | .verify tm => Sys2Proof.Machine.execVerify tm s
  | .mac tm => Sys2Proof.Machine.execMac tm s
  | .sealBlob tm => Sys2Proof.Machine.execSealBlob tm s
  | .unsealBlob tm => Sys2Proof.Machine.execUnsealBlob tm s
  | .importKey tm => Sys2Proof.Machine.execImportKey tm s
  | .regVk tm => Sys2Proof.Machine.execRegVk tm s
  | .quote tm => Sys2Proof.Machine.execQuote tm s
  | .exportPub tm => Sys2Proof.Machine.execExportPub tm s
  | .randomBytes tm => Sys2Proof.Machine.execRandomBytes tm s
  | .extendMeas tm => Sys2Proof.Machine.execExtendMeas tm s
  | .otp tm => Sys2Proof.Machine.execOtp tm s
  | .provImport tm => Sys2Proof.Machine.execProvImport tm s
  | .clrTamper tm => Sys2Proof.Machine.execClrTamper tm s
  | .slotInfo tm => Sys2Proof.Machine.execSlotInfo tm s
  | .tamperEvent input tm => Sys2Proof.Machine.execTamperEvent input tm s
  | .entropyFail tm => Sys2Proof.Machine.execEntropyFail tm s
  | .rtcLoad tm => Sys2Proof.Machine.execRtcLoad tm s
  | .configure tid data => Sys2Proof.Machine.execConfigure tid data s
  | .testMode tid data => Sys2Proof.Machine.execTestMode tid data s
  | .testEntry tm => Sys2Proof.Machine.execTestEntry tm s
  | .testEnd tid data => Sys2Proof.Machine.execTestEnd tid data s
  | .testExit tm => Sys2Proof.Machine.execTestExit tm s
  | .maintain tid data => Sys2Proof.Machine.execMaintain tid data s
  | .maintEnd tid data => Sys2Proof.Machine.execMaintEnd tid data s
  | .safeMode tid data => Sys2Proof.Machine.execSafeMode tid data s
  | .sysRst tid data => Sys2Proof.Machine.execSysRst tid data s
  | .mainPowerOn tm => Sys2Proof.Machine.execMainPowerOn tm s
  | .mainPowerOff tm => Sys2Proof.Machine.execMainPowerOff tm s
  | .vbatRise tm => Sys2Proof.Machine.execVbatRise tm s
  | .vbatFall tm => Sys2Proof.Machine.execVbatFall tm s
  | .porstLow tm => Sys2Proof.Machine.execPorstLow tm s
  | .porstRelease pairPref mfgTest tm => Sys2Proof.Machine.execPorstRelease pairPref mfgTest tm s
  | .sysrstLow tm => Sys2Proof.Machine.execSysrstLow tm s
  | .supplyMonitorTrip tm => Sys2Proof.Machine.execSupplyMonitorTrip tm s
  | .rootPllLoss tm => Sys2Proof.Machine.execRootPllLoss tm s
  | .ddrPllLoss tm => Sys2Proof.Machine.execDdrPllLoss tm s
  | .serdesPllLoss pll tm => Sys2Proof.Machine.execSerdesPllLoss pll tm s
  | .powerFailWarning tm => Sys2Proof.Machine.execPowerFailWarning tm s
  | .powerFailReset tm => Sys2Proof.Machine.execPowerFailReset tm s
  | .powerFailReturn tm => Sys2Proof.Machine.execPowerFailReturn tm s
  | .tapReset tm => Sys2Proof.Machine.execTapReset tm s
  | .resetRelease flash tm => Sys2Proof.Machine.execResetRelease flash tm s
  | .bootComplete ddrOk plat tm => Sys2Proof.Machine.execBootComplete ddrOk plat tm s
  | .hartRelease tid data => Sys2Proof.Machine.execHartRelease tid data s
  | .wdogCfgWrite tid data => Sys2Proof.Machine.execWdogCfgWrite tid data s
  | .kick tid => Sys2Proof.Machine.execKick tid s
  | .watchdogExpiry tm => Sys2Proof.Machine.execWatchdogExpiry tm s
  | .clockMonitorWindow cycles tm => Sys2Proof.Machine.execClockMonitorWindow cycles tm s
  | .rtcLost tm => Sys2Proof.Machine.execRtcLost tm s
  | .cluPdWrite tid data => Sys2Proof.Machine.execCluPdWrite tid data s
  | .clusterReady cluster tm => Sys2Proof.Machine.execClusterReady cluster tm s
  | .ppsOutEnd output tm => Sys2Proof.Machine.execPpsOutEnd output tm s
  | .vaultFault tm => Sys2Proof.Machine.execVaultFault tm s
  | .entropyOk tm => Sys2Proof.Machine.execEntropyOk tm s
  | .respondMpacket port tm => Sys2Proof.Machine.execRespondMpacket port tm s

end Sys2Proof.Machine
end

