-- ==== Sys2Proof/Machine/Idle.lean ====
section
/-!
DEFINITION. What the block does while no command waits.
-/
namespace Sys2Proof.Machine

/-- An idle step: one ME cycle of 1.2 GHz passes (spec/00_scope.md R11, assumption 1). -/
def idle (s : State) : State := { s with now := s.now + 1 }

end Sys2Proof.Machine
end

