-- ==== Sys2Proof/Machine/EngineEncode.lean ====
section
/-!
DEFINITION. The encoder of bundle slots, written from the formats of spec/04_engine_instruction_set.md R104-R107 and the operation tables of
R112-R128: the word of an operation that may stand in a slot.
-/
namespace Sys2Proof.Machine

/-- A word from fields, each at its place. -/
def packWord (l : List (Nat × Nat)) : Word := word (l.foldl (fun a x => a + x.2 * 2 ^ x.1) 0)

/-- QP and an operation number of six bits (formats AR, AI, LI, VR, LS, X and C). -/
def headSix (op : Nat) (qp : BitVec 3) : List (Nat × Nat) := [(29, qp.toNat), (23, op)]

/-- The word of an operation. -/
def encodeOp (o : EngOp) : Word :=
  match o with
  | .nop qp => packWord [(29, qp.toNat)]
  | .mac op qp vd va vb vc => packWord [(29, qp.toNat), (24, op), (18, vd.toNat), (12, va.toNat), (6, vb.toNat), (0, vc.toNat)]
  | .aop qp ad aa ab fn => packWord (headSix 1 qp ++ [(18, ad.toNat), (13, aa.toNat), (8, ab.toNat), (0, fn.toNat)])
  | .aluImm op qp ad aa imm => packWord (headSix op qp ++ [(18, ad.toNat), (13, aa.toNat), (0, imm.toNat)])
  | .li qp ad sel imm => packWord (headSix 0x0A qp ++ [(18, ad.toNat), (16, sel.toNat), (0, imm.toNat)])
  | .vr op qp fd fa fb fn => packWord (headSix op qp ++ [(17, fd.toNat), (11, fa.toNat), (5, fb.toNat), (0, fn.toNat)])
  | .ls op qp rg ab imm => packWord (headSix op qp ++ [(17, rg.toNat), (12, ab.toNat), (0, imm.toNat)])
  | .xfer op qp al ar imm7 imm6 => packWord (headSix op qp ++ [(18, al.toNat), (13, ar.toNat), (6, imm7.toNat), (0, imm6.toNat)])
  | .br qp tgt => packWord (headSix 1 qp ++ [(0, tgt.toNat)])
  | .bra qp aa => packWord (headSix 2 qp ++ [(18, aa.toNat)])
  | .wait qp n => packWord (headSix 3 qp ++ [(0, n.toNat)])
  | .waita qp aa => packWord (headSix 4 qp ++ [(18, aa.toNat)])
  | .loop qp cm1 len => packWord (headSix 5 qp ++ [(11, cm1.toNat), (0, len.toNat)])
  | .pend qp => packWord (headSix 6 qp)
  | .illegal _ w => w

/-- Whether an operation is one of those that slot `slot` (MAC0 0, MAC1 1, ALU 2, LSU 3, XFER 4, CTL 5) of the bundle at address `pc` can
hold: its number, its function number and, for a loop, its end lie among those that the tables of the slot list. -/
def slotHolds (slot pc : Nat) (o : EngOp) : Bool :=
  match slot, o with
  | _, .nop _ => slot < 6
  | 0, .mac op .. | 1, .mac op .. => (1 ≤ op && op ≤ 9) || (0x10 ≤ op && op ≤ 0x13)
  | 2, .aop _ _ _ _ fn => (aopFn fn.toNat 0 0).isSome
  | 2, .aluImm op .. => 2 ≤ op && op ≤ 9
  | 2, .li .. => true
  | 2, .vr op _ _ _ _ fn =>
    (op = 0x10 && (vopFn fn.toNat 0 0).isSome) || (op = 0x11 && (vcmpFn fn.toNat 0 0).isSome) || (op = 0x15 && fn.toNat ≤ 4)
    || (op = 0x1C && (acmpFn fn.toNat 0 0).isSome) || (0x12 ≤ op && op ≤ 0x14) || (0x18 ≤ op && op ≤ 0x1B)
  | 3, .ls op .. => 1 ≤ op && op ≤ 7
  | 4, .xfer op .. => 1 ≤ op && op ≤ 5
  | 5, .br .. | 5, .bra .. | 5, .wait .. | 5, .waita .. | 5, .pend .. => true
  | 5, .loop _ _ len => pc + 1 + len.toNat ≤ 8191
  | _, _ => false

end Sys2Proof.Machine
end

