-- ==== Sys2Proof/Safety.lean ====
section
/-!
DEFINITION. What counts as a safe state and a safe step, in the terms in which claims are stated.
-/
namespace Sys2Proof.Machine

/-- The invariant of the state: the memory is in its canonical form, so that equal memories are equal data. -/
def StateInv (s : State) : Prop := Memory.wf s.mem = true

/-- A step that ends in a next state. -/
def Completes (o : Host.Outcome State Fault Refusal) : Prop := ∃ t, o = .next t

/-- A command ends in a next state of which `post` holds. -/
def Reaches (o : Host.Outcome State Fault Refusal) (post : State → Prop) : Prop := ∃ t, o = .next t ∧ post t

/-- The two states agree in every register outside the pages `pgs`, a register being named by its physical address. -/
def RegsOutside (pgs : List Nat) (s t : State) : Prop :=
  ∀ pg off, off < 0x1000 → pg ∉ pgs → reg t pg off = reg s pg off

/-- The two states agree in every register but the listed ones, each named by its page and offset. -/
def OnlyRegs (l : List (Nat × Nat)) (s t : State) : Prop :=
  ∀ pg off, off < 0x1000 → (pg, off) ∉ l → reg t pg off = reg s pg off

/-- Every byte of memory outside the `n` bytes from `a` reads as before. -/
def MemOutside (a n : Nat) (s t : State) : Prop :=
  ∀ x, (x < a ∨ a + n ≤ x) → Memory.read t.mem x = Memory.read s.mem x

/-- Every byte of memory reads as before. -/
def MemSame (s t : State) : Prop := ∀ x, Memory.read t.mem x = Memory.read s.mem x

/-- A snapshot command of page `pg`: its selector waits, VALID is clear, and the writer owns what will be captured. -/
def Selects (o : Host.Outcome State Fault Refusal) (tid pg : Nat) (sel : Word) (s : State) : Prop :=
  Reaches o (fun t => mailbox t pg = ⟨some sel, tid, false, []⟩ ∧ OnlyRegs [(pg, Off.MBX_SEL)] s t ∧ MemSame s t)

/-! ### Operations of an engine -/

/-- Operation `op` of slot `slot` is one that the bundle `l`, which engine `n` executes, still has to issue, and no register lane that it
reads holds a parity error. -/
def InBundle (s : State) (n slot : Nat) (op : EngOp) (l : Latch) : Prop :=
  (engOf s n).latch = some l ∧ (slot, op) ∈ l.ops ∧ ∀ k ∈ readsOf op, k ∉ (engOf s n).parity

/-- The operation of slot `slot` of bundle `l` of engine `n` has issued: it has left the bundle, and no V, A or Q register of the engine,
no other engine, no register of a page and no byte of memory has changed by it yet. -/
def Issued (n slot : Nat) (l : Latch) (s t : State) : Prop :=
  (engOf t n).latch = some { l with ops := l.ops.filter (fun o => o.1 ≠ slot) }
  ∧ (engOf t n).v = (engOf s n).v ∧ (engOf t n).a = (engOf s n).a ∧ (engOf t n).q = (engOf s n).q
  ∧ (∀ m, m ≠ n → engOf t m = engOf s m) ∧ OnlyRegs [] s t ∧ MemSame s t

/-- A list of waiting register writes with one put in its place, unless no lane of it is written. -/
def queued (w : PendWrite) (ws : List PendWrite) : List PendWrite := if w.lanes = 0 then ws else insertWrite w ws

/-- An operation has issued whose result `value` waits to be written into the lanes `lanes` of register `dest` at instant `due`; a predicate
that allows no lane leaves no write. -/
def Writing (n due : Nat) (dest : RegDest) (lanes : BitVec 4) (value : BitVec 128) (l : Latch) (slot : Nat) (s t : State) : Prop :=
  Issued n slot l s t
  ∧ (engOf t n).writes = queued ⟨due, dest, lanes, value, l.tm, slot⟩ (engOf s n).writes

/-- An access of `size` bytes at DMEM address `ea` by the bundle `l` of engine `n` meets no earlier access of its bank in the same ME cycle
and no stored error, and, where the predicate lets it touch memory, lies in the partition's regions. -/
def DmemClear (s : State) (n ea size : Nat) (touch : Bool) (l : Latch) : Prop :=
  ⟨l.tm, dmemBank ea⟩ ∉ (engOf s n).uses ∧ (∀ w ∈ eccWords (dmemPhys n ea) size, w ∉ s.eccUe ∧ w ∉ s.eccCe)
  ∧ (touch = true → inDmem (partEntry s n l.part) ea size = true)

/-- The lanes of a scalar result: all where bit 0 of the predicate is set, otherwise none. -/
def scalarLanes (s : State) (n : Nat) (qp : BitVec 3) : BitVec 4 := if predOn (engOf s n) qp then 0xF else 0

/-! ### Ports -/

/-- Port `p` has nothing to send: no frame waits, stands on the wire or is preempted. -/
def Silent (s : State) (p : Nat) : Prop :=
  (portOf s p).queue = [] ∧ (portOf s p).pauses = [] ∧ (portOf s p).wire = none ∧ (portOf s p).preempted = none

/-- The frame `f` of port `p` stands on the wire from now on, and no other waits. -/
def OnWire (t : State) (p : Nat) (f : TxFrame) : Prop := (portOf t p).wire.map TxWire.frame = some f ∧ (portOf t p).queue = []

/-- The end of a pause of `quanta` that begins at instant `at25` on a port whose octets last `oct`; a pause of zero quanta ends it. -/
def pauseEnd (quanta at25 oct : Nat) : Option Nat := if quanta = 0 then none else some (at25 + quanta * 64 * oct)

/-- Port `p` can take a frame at instant `tm`: it is silent and not paused, or a frame stands on its wire beyond `tm`. -/
def Ready (s : State) (p tm : Nat) : Prop :=
  s.now ≤ tm ∧ ((Silent s p ∧ (portOf s p).pauseUntil = none) ∨ ∃ w, (portOf s p).wire = some w ∧ 25 * tm < w.endAt)

/-- Frame `f` has entered a queue of port `p` at instant `tm`: behind those that wait, or at once onto the wire of a silent port. -/
def Sent (p tm : Nat) (f : TxFrame) (s t : State) : Prop :=
  ((portOf s p).wire.isSome = true → (portOf t p).queue = (portOf s p).queue ++ [f])
  ∧ ((portOf s p).wire.isSome = false →
      (portOf t p).wire.map (fun w => (w.frame.src, w.frame.queue, w.first)) = some (f.src, f.queue, 25 * tm))

/-! ### Time bases -/

/-- Time base `d` is one that takes a measurement of its own source by the servo: neither stopped nor in FREERUN, with no slew or switch in
progress, and not a TB0 that follows TB0S. -/
def Servoed (s : State) (d : Nat) : Prop :=
  d < 5 ∧ (tbOf s d).state ∈ [.locking, .locked, .holdover] ∧ (tbOf s d).slewing = false ∧ (tbOf s d).switching = false
  ∧ (d = 0 → (tbOf s 0).refS = false)

/-- Time base `d` has used the measurement `o` with the nominal interval `tns` (spec/15_time_unit.md R377): OFFSET, I, RATE and ACCEPTED. -/
def Measured (d : Nat) (o : Int) (tns : Nat) (s t : State) : Prop :=
  (tbOf t d).offset = o
  ∧ (tbOf t d).integ = clampRate ((tbOf s d).integ - sarInt ((o * 2 ^ 16).tdiv tns) (fld (tbReg s d Off.TB_CFG) 20 4))
  ∧ (tbOf t d).rate = clampRate ((tbOf t d).integ - sarInt ((o * 2 ^ 16).tdiv tns) (fld (tbReg s d Off.TB_CFG) 16 4))
  ∧ reg t pgTime1 (Off.TB_ACCEPTED + 0x40 * d) = reg s pgTime1 (Off.TB_ACCEPTED + 0x40 * d) + 1
  ∧ (∀ e, e ≠ d → tbOf t e = tbOf s e)

/-- Time base `d` has refused a measurement (R379): RATE and I stand, REFUSED counts it, JUMP_REFUSED(d) is raised. -/
def Refused (d : Nat) (s t : State) : Prop :=
  (tbOf t d).integ = (tbOf s d).integ ∧ (tbOf t d).rate = (tbOf s d).rate ∧ regBit t pgTime1 Off.IRQ_STAT (8 + d) = true
  ∧ reg t pgTime1 (Off.TB_REFUSED + 0x40 * d) = reg s pgTime1 (Off.TB_REFUSED + 0x40 * d) + 1 ∧ (∀ e, e ≠ d → tbOf t e = tbOf s e)

/-- The message `m` is the timed PTP message of type `ty` in a frame that port `p` takes (R373). -/
def Timed (s : State) (p ty : Nat) (frame : List Byte) (m : PtpMsg) : Prop :=
  p < numPorts s.variant ∧ p < 4 ∧ (etherHeader frame).2.2.2.1 = 0x88F7 ∧ ppEn s p = true ∧ ptpAddress s p (etherHeader frame).1 = true
  ∧ parsePtp (etherHeader frame).2.2.2.2 = some m ∧ m.type = ty

/-- A peer-delay exchange with t4 and turnaround `turn` has completed on port `p` (R375). -/
def Exchanged (p : Nat) (t4 turn : Int) (s t : State) : Prop :=
  (ptpOf t p).waiting = false ∧ (ptpOf t p).exchanges = (ptpOf s p).exchanges + 1 ∧ (ptpOf t p).missed = 0
  ∧ (2 ≤ (ptpOf s p).good + 1 → (ptpOf t p).valid = true)
  ∧ (ptpOf t p).meanDelay = (if (ptpOf s p).exchanges = 0
      then ((t4 - (ptpOf s p).t1) * (2 ^ 32 + (ptpOf t p).nrr) / 2 ^ 32 - turn) / 2
      else (ptpOf s p).meanDelay + (((t4 - (ptpOf s p).t1) * (2 ^ 32 + (ptpOf t p).nrr) / 2 ^ 32 - turn) / 2 - (ptpOf s p).meanDelay) / 8)
  ∧ (∀ q, q ≠ p → ptpOf t q = ptpOf s q) ∧ t.tim.tbs = s.tim.tbs

/-! ### Vault commands -/

/-- The descriptor at the head of the ring of command `c`. -/
def headDesc (s : State) (c : VqCmd) : Nat := vqDesc s c.tid (vqHead s c.tid)

/-- The next command that the vault takes from its rings is `c`, an operation `op`, and no refused descriptor stands before it. -/
def Serves (s : State) (tm op : Nat) (c : VqCmd) : Prop :=
  vqTake 4096 (advance s tm) = (some c, advance s tm) ∧ c.op = op ∧ c.tid < 16 ∧ inWindow s c.tid (headDesc s c) 64 = true
  ∧ vqSize s c.tid ≤ 256 ∧ StateInv s

/-- The registers of the VLT page in which a command of ring `t` may show: VQ_PTR, VQ_EVT and the status registers. -/
def vqRegs (t : Nat) : List (Nat × Nat) :=
  [(pgVlt, Off.VQ_PTR + 0x10 * t), (pgVlt, Off.VQ_EVT + 0x10 * t), (pgVlt, Off.VLT_STAT), (pgVlt, Off.CNT_OTP), (pgVlt, Off.CNT_OTP + 4),
    (pgVlt, Off.CNT_OTP + 8), (pgVlt, Off.REC_GEN), (pgVlt, Off.SLOTS_USED)]

/-- Command `c` has completed with `status` (R407, R408): STATUS, HEAD and the event of its ring. -/
def VqEnds (c : VqCmd) (status : Nat) (s t : State) : Prop :=
  Memory.read t.mem (headDesc s c + 3) = some (BitVec.ofNat 8 status) ∧ vqHead t c.tid = (vqHead s c.tid + 1) % vqSize s c.tid
  ∧ regBit t pgVlt (Off.VQ_EVT + 0x10 * c.tid) (if status = 1 then 0 else 1) = true ∧ OnlyRegs (vqRegs c.tid) s t

/-- Command `c` has failed with `status`: it has changed no slot, no count and no OTP bit (R410). -/
def VqFails (c : VqCmd) (status : Nat) (s t : State) : Prop :=
  VqEnds c status s t ∧ t.vlt = { s.vlt with lastTid := c.tid } ∧ MemOutside (headDesc s c + 3) 1 s t

/-- Command `c` has completed with OK and no output. -/
def VqDone (c : VqCmd) (s t : State) : Prop := VqEnds c 1 s t ∧ MemOutside (headDesc s c + 3) 1 s t

/-- Command `c` has answered `out`, after which `post` holds; or the capacity is too small, or the buffer is refused. -/
def VqOut (c : VqCmd) (out : List Byte) (post : State → Prop) (s t : State) : Prop :=
  if out = [] then VqDone c s t ∧ post t
  else if c.outLen < out.length then VqFails c 0xC s t
  else if inWindow s c.tid c.outAddr out.length = false then VqFails c 0xD s t
  else VqEnds c 1 s t ∧ post t
    ∧ (c.outAddr + out.length ≤ headDesc s c ∨ headDesc s c + 64 ≤ c.outAddr → ∀ i < out.length, Memory.read t.mem (c.outAddr + i) = out[i]?)
    ∧ ∀ x, (x < headDesc s c ∨ headDesc s c + 64 ≤ x) → (x < c.outAddr ∨ c.outAddr + out.length ≤ x) → Memory.read t.mem x = Memory.read s.mem x

/-- A use of slot `k` has been counted where it is COUNTED (R406), and nothing else of the key store has changed. -/
def Spent (k : Nat) (s t : State) : Prop :=
  slotOf t.vlt k = { slotOf s.vlt k with count := if (slotOf s.vlt k).counted then (slotOf s.vlt k).count - 1 else (slotOf s.vlt k).count }
  ∧ (∀ j, j ≠ k → slotOf t.vlt j = slotOf s.vlt j) ∧ t.vlt.otp = s.vlt.otp ∧ t.vlt.meas = s.vlt.meas ∧ t.vlt.gen = s.vlt.gen

/-- A slot that DERIVE or IMPORT creates from `x` below the slot of `c` (R403). -/
def belowSlot (s : State) (c : VqCmd) (x : KeySlot) : KeySlot :=
  { x with
    use := c.use % 128, tid := (slotInfoOf s.vlt c.slot).tid, depth := (slotInfoOf s.vlt c.slot).depth + 1, parent := c.slot
    pgen := (slotInfoOf s.vlt c.slot).gen, gen := (slotOf s.vlt c.slot2).gen, persist := c.flags % 2 = 1, counted := c.flags / 2 % 2 = 1
    count := c.outLen }

/-- Slot `c.slot2` has been created as `y`, with a new record where it persists, and a use of slot `c.slot` counted. -/
def Created (c : VqCmd) (y : KeySlot) (s t : State) : Prop :=
  slotOf t.vlt c.slot2 = y
  ∧ slotOf t.vlt c.slot = { slotOf s.vlt c.slot with
      count := if (slotOf s.vlt c.slot).counted then (slotOf s.vlt c.slot).count - 1 else (slotOf s.vlt c.slot).count }
  ∧ (∀ j, j ≠ c.slot → j ≠ c.slot2 → slotOf t.vlt j = slotOf s.vlt j) ∧ t.vlt.gen = s.vlt.gen + (if y.persist then 1 else 0)
  ∧ t.vlt.epoch = (if y.persist then max s.vlt.epoch s.vlt.otp.recEpoch else s.vlt.epoch) ∧ t.vlt.otp = s.vlt.otp

/-! ### Modes and resets -/

/-- The device has entered SAFE with a cause, its publish gate closed (spec/17_modes_clocks_power.md R425). -/
def Safed (cause : Nat) (t : State) : Prop := mode t = mSafe ∧ reg t pgMode Off.SAFE_CAUSE = word cause ∧ gateOpen t = false

/-- The mode is one from which SAFE is entered. -/
def canSafe (s : State) : Prop := mVerify ≤ mode s ∧ mode s ≠ mSafe

/-- Every unit is as after a reset (R434): the vault keeps OTP, flash areas and VBAT domain, memory the flash alone. -/
def Cleared (s t : State) : Prop :=
  t.vlt = resetVault s.vlt ∧ t.eng = [] ∧ t.net = [] ∧ t.red = [] ∧ t.ten = State.reset.ten ∧ t.pair = Pair.init ∧ t.tim = TimeUnit.init ∧ t.tick = Tick.init
  ∧ t.mbx = [] ∧ t.held = [] ∧ t.car = Carafe.init ∧ t.hop = Hopper.init ∧ t.variant = s.variant ∧ t.pending = s.pending
  ∧ ∀ x, Memory.read t.mem x = (if 0x60000000 ≤ x ∧ x < 0x70000000 then Memory.read s.mem x else unlisted x)

/-- A SYS reset by the source of RST_CAUSE bit `i` has acted (R426). -/
def SysReset (i : Nat) (s t : State) : Prop :=
  mode t = mReset ∧ regFld t pgMode Off.MODE_STAT 4 4 = (if mode s = mReset then regFld s pgMode Off.MODE_STAT 4 4 else mode s)
  ∧ reg t pgMode Off.RST_CAUSE = reg s pgMode Off.RST_CAUSE ||| ((1 : Word) <<< i) ∧ reg t pgMode Off.SAFE_CAUSE = reg s pgMode Off.SAFE_CAUSE
  ∧ reg t pgMode Off.STRAPS = reg s pgMode Off.STRAPS ∧ reg t pgClk Off.PLL_STAT = (if i = 5 then 0 else reg s pgClk Off.PLL_STAT &&& 1)
  ∧ (∀ pg off, off < 0x1000 → (pg, off) ∉ [(pgMode, Off.MODE_STAT), (pgMode, Off.RST_CAUSE), (pgMode, Off.SAFE_CAUSE), (pgMode, Off.STRAPS), (pgClk, Off.PLL_STAT)] →
      reg t pg off = resetWord s.variant pg off)
  ∧ Cleared s t

/-- A POR has acted: every register outside the VBAT domain at its reset value, RST_CAUSE with POR alone. -/
def PorReset (s t : State) : Prop :=
  mode t = mReset ∧ reg t pgMode Off.RST_CAUSE = 1 ∧ (∀ pg off, off < 0x1000 → reg t pg off = resetWord s.variant pg off) ∧ Cleared s t

/-- A write of MODE_CMD has ended with `code` and left the mode and what waits as they were. -/
def ModeRefused (code : Nat) (s t : State) : Prop :=
  reg t pgMode Off.MODE_RESULT = word code ∧ regBit t pgMode Off.IRQ_STAT 1 = true ∧ mode t = mode s ∧ t.mod = s.mod
  ∧ OnlyRegs [(pgMode, Off.MODE_CMD), (pgMode, Off.MODE_RESULT), (pgMode, Off.IRQ_STAT)] s t ∧ MemSame s t

/-! ### Messages of the peer -/

/-- Octets `msg` after the EtherType are a message of TYPE `type` that an admitted unit accepts, unless it is a copy (spec/13_redundant_pair.md
R320). -/
def PairValid (s : State) (type : Nat) (msg : List Byte) : Prop :=
  s.pair.link = 2 ∧ pairMode s = true ∧ (parsePair msg).type = type ∧ (parsePair msg).ver = 1 ∧ (parsePair msg).lenOk = true
  ∧ (parsePair msg).unit ≠ ownUnit s ∧ (parsePair msg).tag = pairTag (keyOf s.vlt 8) (parsePair msg).body

end Sys2Proof.Machine
end

