-- ==== Sys2Proof/WellFormed.lean ====
section
/-!
DEFINITION. The well-formed commands: every operand that numbers a unit, a page, an entry or a register lies in the range that the spec gives
that unit (spec/00_scope.md R2-R7, spec/01_register_pages.md R13-R18, R34, R42 and the register tables of each chapter). Operands held in bit
vectors have no other values. The machine gives a command outside these ranges no effect or an access error; well-formedness is no condition
of a step.
-/
namespace Sys2Proof

/-- Whether the operands of a command lie in their ranges. -/
def Instr.wf (i : Instr) : Bool :=
  match i with
  | .registerWrite tid size addr _ => tid < 16 && (size = 4 || size = 8) && addr < 0x1000000000000 && addr % size = 0
  | .softReset tid page => tid < 16 && page < 256
  | .softResetComplete page _ => page < 256
  | .blockEnable tid page _ => tid < 16 && page < 256
  | .irqForce tid page _ => tid < 16 && page < 256
  | .groupLock tid page _ => tid < 16 && page < 256
  | .tidOwnerWrite tid page _ => tid < 16 && page < 256
  | .srcCfgWrite tid src _ => tid < 16 && src < 256
  | .interruptLineUpdate _ => true
  | .claimRead tid ctx => tid < 16 && ctx < 68
  | .claimComplete tid ctx _ => tid < 16 && ctx < 68
  | .mailboxRelease tid page index => tid < 16 && page < 256 && index < 256
  | .mailboxDone tid page => tid < 16 && page < 256
  | .mailboxCapture page _ => page < 256
  | .undefinedSelector tid page _ => tid < 16 && page < 256
  | .eventStampSnapshot tid ctx => tid < 16 && ctx < 68
  | .imageDigestSnapshot tid index => tid < 16 && index < 3
  | .subscriptionCountersSnapshot tid entry => tid < 16 && entry < 512
  | .substitutionMapSnapshot tid index => tid < 16 && index < 3
  | .publicationSnapshot tid pub => tid < 16 && pub < 256
  | .subscriptionStateSnapshot tid sub => tid < 16 && sub < 1024
  | .energySnapshot tid acc point => tid < 16 && acc < 6 && point < 128
  | .pulseSnapshot tid output => tid < 16 && output < 8
  | .recordTableSnapshot tid rec index => tid < 16 && rec < 8 && index < 16
  | .elementSnapshot tid => tid < 16
  | .migrationTicksSnapshot tid tenant => tid < 16 && tenant < 16
  | .digestSnapshot tid tenant => tid < 16 && tenant < 16
  | .peerSnapshot tid => tid < 16
  | .nodeSnapshot tid pair node => tid < 16 && pair < 2 && node < 256
  | .tickSnapshot tid => tid < 16
  | .ppsInSnapshot tid input => tid < 16 && input < 2
  | .timeBaseSnapshot tid tb => tid < 16 && tb < 5
  | .measurementSnapshot tid index => tid < 16 && index < 24
  | .slotSnapshot tid slot => tid < 16 && slot < 256
  | .indirectWrite tid page _ => tid < 16 && page < 256
  | .indirectRead tid page _ => tid < 16 && page < 256
  | .indirectDone page _ => page < 256
  | .fabricEngineAccess tid addr _ _ _ => tid < 16 && addr < 0x1000000000000
  | .fabricAccessServed _ _ => true
  | .ddrAccess tid addr _ _ => tid < 16 && addr < 0x1000000000000
  | .tickEdge _ => true
  | .partitionTableApply engine _ => engine < 16
  | .slotTableApply cluster _ => cluster < 4
  | .pubPointWrite tid _ => tid < 16
  | .pubPointApply _ => true
  | .partitionWindowOpen engine _ => engine < 16
  | .windowFence engine _ => engine < 16
  | .sealPoint _ => true
  | .sealComplete _ => true
  | .flip _ => true
  | .bundleFetch engine _ => engine < 16
  | .nop engine slot _ => engine < 16 && slot < 6
  | .fadd engine slot _ _ _ _ _ => engine < 16 && slot < 6
  | .fsub engine slot _ _ _ _ _ => engine < 16 && slot < 6
  | .fmul engine slot _ _ _ _ _ => engine < 16 && slot < 6
  | .fma engine slot _ _ _ _ _ => engine < 16 && slot < 6
  | .fms engine slot _ _ _ _ _ => engine < 16 && slot < 6
  | .fnma engine slot _ _ _ _ _ => engine < 16 && slot < 6
  | .fhsum engine slot _ _ _ _ _ => engine < 16 && slot < 6
  | .cvtf engine slot _ _ _ _ _ => engine < 16 && slot < 6
  | .cvti engine slot _ _ _ _ _ => engine < 16 && slot < 6
  | .imul engine slot _ _ _ _ _ => engine < 16 && slot < 6
  | .imadd engine slot _ _ _ _ _ => engine < 16 && slot < 6
  | .imulh engine slot _ _ _ _ _ => engine < 16 && slot < 6
  | .qmul engine slot _ _ _ _ _ => engine < 16 && slot < 6
  | .aop engine _ _ _ _ _ => engine < 16
  | .addi engine _ _ _ _ => engine < 16
  | .andi engine _ _ _ _ => engine < 16
  | .ori engine _ _ _ _ => engine < 16
  | .xori engine _ _ _ _ => engine < 16
  | .shli engine _ _ _ _ => engine < 16
  | .shri engine _ _ _ _ => engine < 16
  | .sari engine _ _ _ _ => engine < 16
  | .slti engine _ _ _ _ => engine < 16
  | .li engine _ _ _ _ => engine < 16
  | .vop engine _ _ _ _ _ => engine < 16
  | .vcmp engine _ _ _ _ _ => engine < 16
  | .vsel engine _ _ _ _ _ => engine < 16
  | .vsplat engine _ _ _ _ _ => engine < 16
  | .vext engine _ _ _ _ _ => engine < 16
  | .tlu engine _ _ _ _ _ => engine < 16
  | .qop engine _ _ _ _ _ => engine < 16
  | .qset engine _ _ _ _ _ => engine < 16
  | .qfroma engine _ _ _ _ _ => engine < 16
  | .afromq engine _ _ _ _ _ => engine < 16
  | .acmp engine _ _ _ _ _ => engine < 16
  | .lda engine _ _ _ _ => engine < 16
  | .ldv engine _ _ _ _ => engine < 16
  | .ldb engine _ _ _ _ => engine < 16
  | .sta engine _ _ _ _ => engine < 16
  | .stv engine _ _ _ _ => engine < 16
  | .ldvp engine _ _ _ _ => engine < 16
  | .stvp engine _ _ _ _ => engine < 16
  | .clrd engine _ _ _ _ _ => engine < 16
  | .clwr engine _ _ _ _ _ => engine < 16
  | .ovl engine _ _ _ _ _ => engine < 16
  | .hrd engine _ _ _ _ _ => engine < 16
  | .dep engine _ _ _ _ _ => engine < 16
  | .br engine _ _ => engine < 16
  | .bra engine _ _ => engine < 16
  | .waitUntil engine _ _ => engine < 16
  | .waita engine _ _ => engine < 16
  | .loopOpen engine _ _ _ => engine < 16
  | .pend engine _ => engine < 16
  | .illegalOperation engine slot _ => engine < 16 && slot < 6
  | .registerWriteback engine _ => engine < 16
  | .branchRedirect engine _ => engine < 16
  | .waitEnd engine _ => engine < 16
  | .clusterBankAccess cluster _ => cluster < 4
  | .clrdLanding engine _ => engine < 16
  | .hrdLanding engine _ => engine < 16
  | .overlayLanding engine _ => engine < 16
  | .depositAccept engine _ => engine < 16
  | .carafeDrain _ => true
  | .scrubRow unit _ _ => unit < 20
  | .stringLoad tid => tid < 16
  | .ldVerify tid => tid < 16
  | .ldAbort tid => tid < 16
  | .loadDone _ => true
  | .reshapeRequest tid => tid < 16
  | .rsCancel tid => tid < 16
  | .reshapeStage _ => true
  | .reshapeApply _ => true
  | .hopCfgWrite tid _ => tid < 16
  | .frangeWrite tid tenant _ => tid < 16 && tenant < 16
  | .hopSubRead tid => tid < 16
  | .hopSubWrite tid => tid < 16
  | .arrClr tid => tid < 16
  | .svFrame port _ _ => port < 5
  | .chainEnable tid chain _ => tid < 16 && chain < 64
  | .chainSync tid chain => tid < 16 && chain < 64
  | .swap tid chain => tid < 16 && chain < 64
  | .swapStart chain _ => chain < 64
  | .fadeEnd chain _ => chain < 64
  | .ptRead tid => tid < 16
  | .ptWrite tid => tid < 16
  | .eclr tid => tid < 16
  | .freqTimeout point _ => point < 128
  | .residueCarry output _ => output < 8
  | .pulseEnable tid output _ => tid < 16 && output < 8
  | .pulseDisable tid output _ => tid < 16 && output < 8
  | .pulseStart output _ => output < 8
  | .pulseEnd output _ => output < 8
  | .pulseLowEnd output _ => output < 8
  | .recorderEnable tid rec _ => tid < 16 && rec < 8
  | .recorderDisable tid rec _ => tid < 16 && rec < 8
  | .recStart tid rec => tid < 16 && rec < 8
  | .recStop tid rec => tid < 16 && rec < 8
  | .mtrig tid rec => tid < 16 && rec < 8
  | .recRelease tid rec => tid < 16 && rec < 8
  | .logicLoad tid _ => tid < 16
  | .logicLoadDone _ => true
  | .logicPartitionEnable tid tenant _ => tid < 16 && tenant < 16
  | .applyChange tid => tid < 16
  | .forceSet tid => tid < 16
  | .forceRelease tid => tid < 16
  | .idleClr tid => tid < 16
  | .scanComplete tenant _ => tenant < 16
  | .laneWrite tid offset _ => tid < 16 && offset < 4096
  | .laneApply _ => true
  | .slackClr tid => tid < 16
  | .gsePubRead tid => tid < 16
  | .gsePubWrite tid => tid < 16
  | .gseSubRead tid => tid < 16
  | .gseSubWrite tid => tid < 16
  | .gooseRetransmit pub _ => pub < 256
  | .gooseFrame port _ _ => port < 5
  | .talExpiry sub _ => sub < 1024
  | .portPowerUp port _ => port < 5
  | .linkUp port _ => port < 5
  | .linkDown port _ => port < 5
  | .frameReceived port _ _ _ => port < 5
  | .pauseTimerExpiry port _ => port < 5
  | .pauseRepeat port _ => port < 5
  | .rxDescriptorComplete port _ => port < 5
  | .txTail tid port tenant _ => tid < 16 && port < 5 && tenant < 16
  | .rxTail tid port tenant _ => tid < 16 && port < 5 && tenant < 16
  | .txFrameEnd port _ => port < 5
  | .verifyTimer port _ => port < 5
  | .ringEnable tid page offset _ => tid < 16 && page < 256 && offset < 4096
  | .ringDisable tid page offset _ => tid < 16 && page < 256 && offset < 4096
  | .ringDisableDone page offset _ => page < 256 && offset < 4096
  | .redCfgWrite tid pair _ => tid < 16 && pair < 2
  | .supervisionTimer pair _ => pair < 2
  | .nodeForget pair node _ _ => pair < 2 && node < 256
  | .tbStart tid tb => tid < 16 && tb < 5
  | .tbStop tid tb => tid < 16 && tb < 5
  | .tbSet tid tb => tid < 16 && tb < 5
  | .slew tid tb => tid < 16 && tb < 5
  | .switchRef tid => tid < 16
  | .switchStart _ => true
  | .syncReceived port _ _ => port < 5
  | .followUpReceived port _ _ => port < 5
  | .pdelayReqReceived port _ _ => port < 5
  | .pdelayRespReceived port _ _ => port < 5
  | .pdelayRespFollowUpReceived port _ _ => port < 5
  | .pdelayReqSend port _ => port < 5
  | .syncSend port tb _ => port < 5 && tb < 5
  | .ptpTail tid _ => tid < 16
  | .holdoverEntry tb _ => tb < 5
  | .holdMaxExpiry tb _ => tb < 5
  | .tickCfgWrite tid _ => tid < 16
  | .ppsInEdge input _ => input < 2
  | .ppsOutPulse output _ => output < 2
  | .compareFire k _ => k < 16
  | .arm tid k _ => tid < 16 && k < 16
  | .tenAdmit tid tenant => tid < 16 && tenant < 16
  | .tenantStart tid tenant => tid < 16 && tenant < 16
  | .tenantStartApply tenant _ => tenant < 16
  | .freeze tid tenant => tid < 16 && tenant < 16
  | .freezeApply tenant _ => tenant < 16
  | .thaw tid tenant => tid < 16 && tenant < 16
  | .thawApply tenant _ => tenant < 16
  | .tenantCancel tid tenant => tid < 16 && tenant < 16
  | .tenantReset tid tenant => tid < 16 && tenant < 16
  | .engineDrainComplete tenant engine _ => tenant < 16 && engine < 10
  | .save tid tenant => tid < 16 && tenant < 16
  | .saveDone tenant _ => tenant < 16
  | .restore tid tenant => tid < 16 && tenant < 16
  | .restoreDone tenant _ => tenant < 16
  | .reload tid tenant => tid < 16 && tenant < 16
  | .reloadDone tenant _ => tenant < 16
  | .evict tid tenant => tid < 16 && tenant < 16
  | .faultTenant tid tenant => tid < 16 && tenant < 16
  | .faultApply tenant _ => tenant < 16
  | .faultLimitReached tenant _ => tenant < 16
  | .shareWrite tid tenant r _ => tid < 16 && tenant < 16 && r < 4
  | .shareIncreaseApply tenant r _ => tenant < 16 && r < 4
  | .ddrWinWrite tid tenant w _ => tid < 16 && tenant < 16 && w < 4
  | .join tid => tid < 16
  | .leave tid => tid < 16
  | .solo tid => tid < 16
  | .soloTake _ => true
  | .handover tid => tid < 16
  | .drill tid => tid < 16
  | .hoAbort tid => tid < 16
  | .fitSet tid => tid < 16
  | .hello path _ _ => path < 5
  | .response path _ _ => path < 5
  | .admissionTimeout _ => true
  | .admissionEnd _ => true
  | .pathDown _ _ => true
  | .digest path _ _ => path < 5
  | .heartbeat path _ _ => path < 5
  | .grant path _ _ => path < 5
  | .handoverMessage path _ _ => path < 5
  | .handoverAck path _ _ => path < 5
  | .releaseMessage path _ _ => path < 5
  | .abortMessage path _ _ => path < 5
  | .resign path _ _ => path < 5
  | .resignClaim _ => true
  | .handoverPrecheck _ => true
  | .handoverRelease _ => true
  | .revert _ => true
  | .leaseExpiry _ => true
  | .tickLoss _ => true
  | .gateSense _ _ => true
  | .copyExpiry _ => true
  | .claim _ => true
  | .vqTail tid tenant _ => tid < 16 && tenant < 16
  | .deriveKey _ => true
  | .invalidate _ => true
  | .delete _ => true
  | .sign _ => true
  | .verify _ => true
  | .mac _ => true
  | .sealBlob _ => true
  | .unsealBlob _ => true
  | .importKey _ => true
  | .regVk _ => true
  | .quote _ => true
  | .exportPub _ => true
  | .randomBytes _ => true
  | .extendMeas _ => true
  | .otp _ => true
  | .provImport _ => true
  | .clrTamper _ => true
  | .slotInfo _ => true
  | .tamperEvent input _ => input < 4
  | .entropyFail _ => true
  | .rtcLoad _ => true
  | .configure tid _ => tid < 16
  | .testMode tid _ => tid < 16
  | .testEntry _ => true
  | .testEnd tid _ => tid < 16
  | .testExit _ => true
  | .maintain tid _ => tid < 16
  | .maintEnd tid _ => tid < 16
  | .safeMode tid _ => tid < 16
  | .sysRst tid _ => tid < 16
  | .mainPowerOn _ => true
  | .mainPowerOff _ => true
  | .vbatRise _ => true
  | .vbatFall _ => true
  | .porstLow _ => true
  | .porstRelease _ _ _ => true
  | .sysrstLow _ => true
  | .supplyMonitorTrip _ => true
  | .rootPllLoss _ => true
  | .ddrPllLoss _ => true
  | .serdesPllLoss pll _ => pll < 2
  | .powerFailWarning _ => true
  | .powerFailReset _ => true
  | .powerFailReturn _ => true
  | .tapReset _ => true
  | .resetRelease _ _ => true
  | .bootComplete _ _ _ => true
  | .hartRelease tid _ => tid < 16
  | .wdogCfgWrite tid _ => tid < 16
  | .kick tid => tid < 16
  | .watchdogExpiry _ => true
  | .clockMonitorWindow _ _ => true
  | .rtcLost _ => true
  | .cluPdWrite tid _ => tid < 16
  | .clusterReady cluster _ => cluster < 4
  | .ppsOutEnd output _ => output < 2
  | .vaultFault _ => true
  | .entropyOk _ => true
  | .respondMpacket port _ => port < 5

/-- The well-formed commands. -/
abbrev WellFormed (i : Instr) : Prop := i.wf = true

end Sys2Proof
end

