-- ==== Sys2Proof/Certificates/Slice0/Obligations.lean ====
section
/-!
DEFINITION. The statements about the block, for the provers. Each docstring says which rules of spec/ a statement formalises.
-/
open Sys2Proof Sys2Proof.Machine

/-- For every command c and state s, the step of s with c at the front of its queue is exec of c on s with the queue's rest; with an empty queue the step idles: it answers a next state (the model's choice, log entry 1). (00_scope.md; 01_register_pages.md R16) -/
def Obligations.step_runs_front_of_queue : Prop :=
  (∀ (c : Instr) (rest : List Instr) (s : State), step { s with pending := c :: rest } = exec c { s with pending := rest })
  ∧ ∀ s : State, s.pending = [] → step s = .next (idle s)

/-- After reset MODE_STAT holds RESET as present and previous mode (0x22), PUB_POINT is 240,000 in the register and in force, TID 0 holds shares of 16, 256, 128 and 256 and every other tenant is EMPTY with none, every page is owned by TID 0 with no interrupt or error flag and unlocked, no tick has been issued and the queue is empty, and the memory lists nothing and has its canonical form. (17_modes_clocks_power.md R422; 17_modes_clocks_power.md R436; 08_carafe_publication.md R222; 12_tenants.md R293; 01_register_pages.md R19) -/
def Obligations.reset_leaves : Prop :=
  reg State.reset pgMode Off.MODE_STAT = 0x22
  ∧ reg State.reset pgCar0 Off.PUB_POINT = 240000 ∧ State.reset.car.pubPoint = 240000
  ∧ (tenOf State.reset 0).depth = [16, 256, 128, 256]
  ∧ (∀ t, 0 < t → (tenOf State.reset t).state = .empty ∧ (tenOf State.reset t).depth = [0, 0, 0, 0])
  ∧ (∀ pg, pagePresent .wln4840 pg = true → reg State.reset pg Off.TID_OWNER = 0 ∧ reg State.reset pg Off.IRQ_STAT = 0
      ∧ reg State.reset pg Off.ERR_STAT = 0 ∧ reg State.reset pg Off.LOCK = 0)
  ∧ State.reset.tick.edgeAt = none ∧ State.reset.pending = [] ∧ State.reset.mem = [] ∧ Memory.wf State.reset.mem = true

/-- The memory of the state after reset is in its canonical form. (01_register_pages.md R13; 17_modes_clocks_power.md R426) -/
def Obligations.reset_has_invariant : Prop :=
  StateInv State.reset

/-- For every state whose memory is in canonical form (addresses strictly rising, no byte listed that an unlisted address reads as), a step that answers a next state leaves the memory in that form: whatever command runs, equal memories stay equal data. (01_register_pages.md R13; 17_modes_clocks_power.md R426; 12_tenants.md R297) -/
def Obligations.step_keeps_invariant : Prop :=
  ∀ s t : State, StateInv s → step s = .next t → StateInv t

/-- For every slot of a bundle at every address, and every operation that the tables of that slot list, with every predicate, register, function and immediate that its format admits, the slot word that the encoder writes decodes to that operation. (04_engine_instruction_set.md R103; 04_engine_instruction_set.md R104; 04_engine_instruction_set.md R106; 04_engine_instruction_set.md R107) -/
def Obligations.slot_words_decode_to_their_operation : Prop :=
  ∀ (slot pc : Nat) (o : EngOp), slotHolds slot pc o = true → decodeSlot slot (encodeOp o) pc = o

/-- Every command other than REGISTER_WRITE answers a next state in every state; no command is refused; REGISTER_WRITE faults only at a block-specific offset of the DDR or the GIO page. (01_register_pages.md R17; 01_register_pages.md R14) -/
def Obligations.only_register_write_stops : Prop :=
  (∀ (i : Instr) (s : State), (∀ tid size addr data, i ≠ .registerWrite tid size addr data) → Completes (exec i s))
  ∧ (∀ (i : Instr) (s : State) (r : Refusal), exec i s ≠ .refused r)
  ∧ (∀ (tid size addr : Nat) (data : BitVec 64) (s : State) (f : Fault), exec (.registerWrite tid size addr data) s = .fault f →
      f = .deviceUndescribed addr ∧ ((0x100E0000 ≤ addr ∧ addr < 0x100E1000) ∨ (0x100E8000 ≤ addr ∧ addr < 0x100E9000)))

/-- A write that is neither 4 nor 8 bytes long, or is not naturally aligned, answers an access error and changes no register and no memory; an aligned write of 8 bytes is the write of its lower half and then that of its upper half at the address above, and answers an error if either half does. (01_register_pages.md R15; 01_register_pages.md R14) -/
def Obligations.register_write_splits_and_sizes : Prop :=
  (∀ (tid size addr : Nat) (d : BitVec 64) (s : State), (size ≠ 4 ∧ size ≠ 8) ∨ addr % size ≠ 0 →
      Reaches (exec (.registerWrite tid size addr d) s) (fun t => t.resp = .error ∧ OnlyRegs [] s t ∧ MemSame s t))
  ∧ ∀ (tid addr : Nat) (d : BitVec 64) (s u v : State), addr % 8 = 0 → exec (.registerWrite tid 4 addr d) s = .next u →
      exec (.registerWrite tid 4 (addr + 4) (d >>> 32)) u = .next v →
      Reaches (exec (.registerWrite tid 8 addr d) s) (fun t => t = { v with resp := t.resp }
        ∧ (t.resp = .error ↔ u.resp = .error ∨ v.resp = .error))

/-- A permitted REGISTER_WRITE of IRQ_EN stores the word, one of IRQ_STAT or of ERR_STAT clears the implemented flags that it writes as 1 and that the device has not set in the same fabric cycle, and no other register and no byte of memory changes. (01_register_pages.md R19; 01_register_pages.md R24; 01_register_pages.md R25) -/
def Obligations.header_registers_written : Prop :=
  (∀ (tid pg : Nat) (d : BitVec 64) (s : State), judge s tid pg Off.IRQ_EN = .ok →
      Reaches (exec (.registerWrite tid 4 (pageAddr pg Off.IRQ_EN) d) s) (fun t => reg t pg Off.IRQ_EN = d.truncate 32
        ∧ t.resp = .done ∧ OnlyRegs [(pg, Off.IRQ_EN)] s t ∧ MemSame s t))
  ∧ (∀ (tid pg : Nat) (d : BitVec 64) (s : State), judge s tid pg Off.IRQ_STAT = .ok →
      Reaches (exec (.registerWrite tid 4 (pageAddr pg Off.IRQ_STAT) d) s) (fun t =>
        reg t pg Off.IRQ_STAT = reg s pg Off.IRQ_STAT &&& ~~~(d.truncate 32 &&& (0x80000000 ||| (headerOf pg).irq) &&& ~~~hitFlags s pg Off.IRQ_STAT)
        ∧ t.resp = .done ∧ OnlyRegs [(pg, Off.IRQ_STAT)] s t ∧ MemSame s t))
  ∧ ∀ (tid pg : Nat) (d : BitVec 64) (s : State), judge s tid pg Off.ERR_STAT = .ok →
      Reaches (exec (.registerWrite tid 4 (pageAddr pg Off.ERR_STAT) d) s) (fun t =>
        reg t pg Off.ERR_STAT = reg s pg Off.ERR_STAT &&& ~~~(d.truncate 32 &&& (0x7F ||| (headerOf pg).err) &&& ~~~hitFlags s pg Off.ERR_STAT)
        ∧ t.resp = .done ∧ OnlyRegs [(pg, Off.ERR_STAT)] s t ∧ MemSame s t)

/-- An offset of an absent page is an access error without a flag; a block-specific access while SRST_BUSY is 1 is held; a header write by a TID that is neither 0 nor the owner is an error with TID_VIOL; a permitted write of a locked register is one with LOCK_VIOL, for TID 0 too; a write of the indirect registers while BUSY is 1 is one with IND_BAD. (01_register_pages.md R22; 01_register_pages.md R26; 01_register_pages.md R27; 01_register_pages.md R20; 01_register_pages.md R32) -/
def Obligations.access_judgement : Prop :=
  (∀ (s : State) (tid pg off : Nat), pagePresent s.variant pg = false → judge s tid pg off = .error none)
  ∧ (∀ (s : State) (k : PageKind) (n pg off : Nat), pageAt pg = some (k, n) → pagePresent s.variant pg = true → implemented k n off = true →
      0x60 ≤ off → poweredDown s k n = false → regBit s pg Off.STAT 1 = true → judge s 0 pg off = .hold)
  ∧ (∀ (s : State) (tid pg off : Nat), pagePresent s.variant pg = true → off < 0x30 → off % 4 = 0 → tid ≠ 0 →
      (tenOf s tid).state ≠ .resetting → regFld s pg Off.TID_OWNER 0 4 ≠ tid → judge s tid pg off = .error (some 2))
  ∧ (∀ (s : State) (k : PageKind) (n pg off g : Nat), pageAt pg = some (k, n) → pagePresent s.variant pg = true → implemented k n off = true →
      poweredDown s k n = false → regBit s pg Off.STAT 1 = false → (rowAt k off).grp = some g → regBit s (lockPage pg) Off.LOCK g = true →
      judge s 0 pg off = .error (some 0))
  ∧ ∀ (s : State) (pg off : Nat), pagePresent s.variant pg = true → off = Off.IND_ADDR ∨ off = Off.IND_DATA ∨ off = Off.IND_CTRL →
      regBit s pg Off.IND_CTRL 9 = true → judge s 0 pg off = .error (some 6)

/-- For every page and every error flag that an access sets: if ERR_STAT was all zero, ERR_INFO then holds the offset, the TID and the direction of that access without MULTI; otherwise ERR_INFO only gains MULTI. So once a write has cleared every ERR_STAT bit (none of them set in its own fabric cycle), the next error is recorded as a first error. (01_register_pages.md R21) -/
def Obligations.error_record : Prop :=
  (∀ (s : State) (pg i off tid : Nat) (w : Bool), i < 32 → reg s pg Off.ERR_STAT = 0 →
      reg (flagErr pg i off tid w s) pg Off.ERR_INFO = errInfoWord off tid w
      ∧ regBit (flagErr pg i off tid w s) pg Off.ERR_STAT i = true)
  ∧ (∀ (s : State) (pg i off tid : Nat) (w : Bool), i < 32 → reg s pg Off.ERR_STAT ≠ 0 →
      reg (flagErr pg i off tid w s) pg Off.ERR_INFO = reg s pg Off.ERR_INFO ||| 0x80000000
      ∧ regBit (flagErr pg i off tid w s) pg Off.ERR_STAT i = true)
  ∧ ∀ (s u t : State) (pg i off tid : Nat), i < 32 → judge s 0 pg Off.ERR_STAT = .ok →
      exec (.registerWrite 0 4 (pageAddr pg Off.ERR_STAT) 0xFFFFFFFF) s = .next u →
      reg s pg Off.ERR_STAT &&& ~~~(0x7F ||| (headerOf pg).err) = 0 → hitFlags s pg Off.ERR_STAT = 0 →
      flagErr pg i off tid true u = t → reg t pg Off.ERR_INFO = errInfoWord off tid true

/-- A permitted IRQ_FORCE sets the implemented flags that it writes and nothing else; GROUP_LOCK sets the groups that the page defines; SOFT_RESET sets SRST_BUSY on every page of the block, and SOFT_RESET_COMPLETE clears it there, with no held access of those pages, and changes no other register; BLOCK_ENABLE stores EN, and EN_ACK follows it at once on a block without a start of its own (log entry 37); TID_OWNER_WRITE of a TID that the part has sets the owner, and a source whose SRC_CFG then named another tenant is left without TID and PRIO, but on the page of an enabled recorder it is dropped with an access error and CFG_BUSY; SRC_CFG_WRITE of an allowed routing stores it. (01_register_pages.md R19; 01_register_pages.md R20; 01_register_pages.md R23; 01_register_pages.md R27; 01_register_pages.md R36; 01_register_pages.md R40) -/
def Obligations.header_commands : Prop :=
  (∀ (s : State) (tid pg : Nat) (d : Word), judge s tid pg Off.IRQ_FORCE = .ok →
      Reaches (exec (.irqForce tid pg d) s) (fun t => reg t pg Off.IRQ_STAT = reg s pg Off.IRQ_STAT ||| (d &&& (0x80000000 ||| (headerOf pg).irq))
        ∧ t.resp = .done ∧ OnlyRegs [(pg, Off.IRQ_STAT)] s t ∧ MemSame s t))
  ∧ (∀ (s : State) (tid pg : Nat) (d : Word), judge s tid pg Off.LOCK = .ok →
      Reaches (exec (.groupLock tid pg d) s) (fun t => reg t pg Off.LOCK = reg s pg Off.LOCK ||| (d &&& (headerOf pg).lock)
        ∧ t.resp = .done ∧ OnlyRegs [(pg, Off.LOCK)] s t ∧ MemSame s t))
  ∧ (∀ (s : State) (tid pg : Nat), judge s tid pg Off.CTRL = .ok →
      Reaches (exec (.softReset tid pg) s) (fun t => ∀ q ∈ blockPages pg, regBit t q Off.STAT 1 = true))
  ∧ (∀ (s : State) (pg tm : Nat), regBit s pg Off.STAT 1 = true → (∀ h ∈ s.held, h.page ∉ blockPages pg) →
      Reaches (exec (.softResetComplete pg tm) s) (fun t => (∀ q ∈ blockPages pg, regBit t q Off.STAT 1 = false)
        ∧ OnlyRegs ((blockPages pg).map (fun q => (q, Off.STAT))) s t ∧ MemSame s t))
  ∧ (∀ (s : State) (tid pg : Nat) (d : Word), judge s tid pg Off.CTRL = .ok →
      (∀ k n, pageAt pg = some (k, n) → k ≠ .cap ∧ k ≠ .me ∧ k ≠ .port ∧ k ≠ .dec0 ∧ k ≠ .qe0 ∧ k ≠ .pul ∧ k ≠ .car0 ∧ k ≠ .hop3 ∧ k ≠ .lgr0) →
      regBit s pg Off.CTRL 0 ≠ bit d 0 →
      Reaches (exec (.blockEnable tid pg d) s) (fun t => regBit t pg Off.CTRL 0 = bit d 0 ∧ regBit t pg Off.STAT 0 = bit d 0
        ∧ OnlyRegs [(pg, Off.CTRL), (pg, Off.STAT)] s t ∧ MemSame s t))
  ∧ (∀ (s : State) (tid pg : Nat) (d : Word), judge s tid pg Off.TID_OWNER = .ok → fld d 0 4 < numTids s.variant →
      (∀ n, pageAt pg ≠ some (.ten, n)) → (∀ n, pageAt pg = some (.cap, n) → regBit s pg Off.CTRL 0 = false) →
      Reaches (exec (.tidOwnerWrite tid pg d) s) (fun t => regFld t pg Off.TID_OWNER 0 4 = fld d 0 4
        ∧ (regFld s pg Off.TID_OWNER 0 4 ≠ fld d 0 4 → srcOfPage pg ≠ 0 →
            fld (srcCfg s (srcOfPage pg)) 0 4 ≠ 0 → fld (srcCfg s (srcOfPage pg)) 0 4 ≠ fld d 0 4 →
            fld (srcCfg t (srcOfPage pg)) 0 4 = 0 ∧ fld (srcCfg t (srcOfPage pg)) 8 3 = 0)
        ∧ OnlyRegs [(pg, Off.TID_OWNER), (pgIrq0, Off.SRC_CFG + 4 * srcOfPage pg)] s t ∧ MemSame s t))
  ∧ (∀ (s : State) (tid pg n : Nat) (d : Word), judge s tid pg Off.TID_OWNER = .ok → fld d 0 4 < numTids s.variant →
      pageAt pg = some (.cap, n) → regBit s pg Off.CTRL 0 = true →
      Reaches (exec (.tidOwnerWrite tid pg d) s) (fun t => reg t pg Off.TID_OWNER = reg s pg Off.TID_OWNER
        ∧ regBit t pg Off.ERR_STAT 9 = true ∧ t.resp = .error))
  ∧ ∀ (s : State) (tid n : Nat) (d : Word), n < 256 → judge s tid pgIrq0 (Off.SRC_CFG + 4 * n) = .ok → sourceExists s n = true →
      routeAllowed s n d = true →
      Reaches (exec (.srcCfgWrite tid n d) s) (fun t => srcCfg t n = d &&& 0x173F ∧ t.resp = .done
        ∧ OnlyRegs [(pgIrq0, Off.SRC_CFG + 4 * n)] s t ∧ MemSame s t)

/-- A context can claim no source exactly if no source reaches it with a priority above its THRESH. INTERRUPT_LINE_UPDATE asserts exactly the lines of the contexts that some source reaches. (01_register_pages.md R36; 01_register_pages.md R37; 01_register_pages.md R38) -/
def Obligations.interrupt_lines_follow_sources : Prop :=
  (∀ (s : State) (ctx : Nat), claimable s ctx = 0 ↔ ∀ n < 256, deliveredPrio s ctx n = 0)
  ∧ ∀ (s : State) (tm : Nat), Reaches (exec (.interruptLineUpdate tm) s) (fun t =>
      (∀ ctx, ctx ∈ t.irq.lines ↔ ctx < 68 ∧ ∃ n < 256, 0 < deliveredPrio s ctx n) ∧ OnlyRegs [] s t ∧ MemSame s t)

/-- The source that a context can claim reaches it with a priority above its THRESH, no other source reaches it with a higher priority, and none of the same priority has a lower number; it is 0 exactly if no source reaches the context. A permitted CLAIM_READ answers the claimable source; if there is one, the context has claimed it, it pends no longer, and the context's event stamp names it. A permitted CLAIM_COMPLETE of a source that the context has claimed ends the claim, and the source pends again exactly if it is still asserted; one of another source sets COMPLETE_BAD and changes no claim. No register but the error registers of the last case and no memory changes. (01_register_pages.md R38) -/
def Obligations.claims_and_completions : Prop :=
  (∀ (s : State) (ctx : Nat), claimable s ctx ≠ 0 → claimable s ctx < 256 ∧ 0 < deliveredPrio s ctx (claimable s ctx)
      ∧ ∀ n < 256, deliveredPrio s ctx n < deliveredPrio s ctx (claimable s ctx)
          ∨ (deliveredPrio s ctx n = deliveredPrio s ctx (claimable s ctx) ∧ claimable s ctx ≤ n))
  ∧ (∀ (s : State) (ctx : Nat), claimable s ctx = 0 ↔ ∀ n < 256, deliveredPrio s ctx n = 0)
  ∧ (∀ (s : State) (tid ctx : Nat), ctx < 68 → judge s tid pgIrq1 (contextOff ctx + 4) = .ok →
      Reaches (exec (.claimRead tid ctx) s) (fun t => t.resp = .value (word (claimable s ctx))
        ∧ (claimable s ctx ≠ 0 → claimedBy t ctx (claimable s ctx) = true ∧ pendingSrc t (claimable s ctx) = false
            ∧ ∃ st, (ctx, st) ∈ t.irq.stamps ∧ st.source = claimable s ctx ∧ st.tid = contextTid ctx ∧ st.hart = contextHart ctx ∧ st.taken = false)
        ∧ OnlyRegs [] s t ∧ MemSame s t))
  ∧ (∀ (s : State) (tid ctx : Nat) (d : Word), ctx < 68 → judge s tid pgIrq1 (contextOff ctx + 4) = .ok → claimedBy s ctx (fld d 0 8) = true →
      Reaches (exec (.claimComplete tid ctx d) s) (fun t => (∀ c, claimedBy t c (fld d 0 8) = false)
        ∧ pendingSrc t (fld d 0 8) = asserted s (fld d 0 8) ∧ t.resp = .done ∧ OnlyRegs [] s t ∧ MemSame s t))
  ∧ ∀ (s : State) (tid ctx : Nat) (d : Word), ctx < 68 → judge s tid pgIrq1 (contextOff ctx + 4) = .ok → claimedBy s ctx (fld d 0 8) = false →
      Reaches (exec (.claimComplete tid ctx d) s) (fun t => regBit t pgIrq1 Off.ERR_STAT 8 = true ∧ t.irq.claimed = s.irq.claimed
        ∧ OnlyRegs [(pgIrq1, Off.ERR_STAT), (pgIrq1, Off.ERR_INFO), (pgIrq1, Off.IRQ_STAT)] s t ∧ MemSame s t)

/-- A permitted MAILBOX_RELEASE (on IRQ page 1 by TID 0 only) leaves no snapshot and makes the writer the owner without a flag; MAILBOX_DONE of the owner of a valid snapshot drops it; UNDEFINED_SELECTOR sets SEL_BAD and captures nothing; MAILBOX_CAPTURE of a waiting selector holds six words, the selected value's with the least significant first and zeros behind it, and sets VALID. (01_register_pages.md R29; 01_register_pages.md R30; 01_register_pages.md R42) -/
def Obligations.mailbox_commands : Prop :=
  (∀ (s : State) (tid pg i : Nat), judge s tid pg Off.MBX_SEL = .ok → (pg = pgIrq1 → tid = 0) →
      Reaches (exec (.mailboxRelease tid pg i) s) (fun t => mailbox t pg = ⟨none, tid, false, []⟩ ∧ t.resp = .done
        ∧ OnlyRegs [(pg, Off.MBX_SEL)] s t ∧ MemSame s t))
  ∧ (∀ (s : State) (tid pg : Nat), judge s tid pg Off.MBX_CTRL = .ok → (mailbox s pg).owner = tid → (mailbox s pg).valid = true →
      Reaches (exec (.mailboxDone tid pg) s) (fun t => mailbox t pg = ⟨none, tid, false, []⟩ ∧ t.resp = .done ∧ OnlyRegs [] s t ∧ MemSame s t))
  ∧ (∀ (s : State) (tid pg : Nat) (sel : Word), judge s tid pg Off.MBX_SEL = .ok → (pg = pgIrq1 → tid = 0) → fld sel 0 16 ≠ 0 →
      selDefined pg (fld sel 0 16) (fld sel 16 8) = false →
      Reaches (exec (.undefinedSelector tid pg sel) s) (fun t => mailbox t pg = ⟨none, tid, false, []⟩ ∧ regBit t pg Off.ERR_STAT 5 = true
        ∧ OnlyRegs [(pg, Off.MBX_SEL), (pg, Off.ERR_STAT), (pg, Off.ERR_INFO), (pg, Off.IRQ_STAT)] s t ∧ MemSame s t))
  ∧ ∀ (s : State) (pg tm : Nat) (sel : Word), (mailbox s pg).waiting = some sel →
      Reaches (exec (.mailboxCapture pg tm) s) (fun t => (mailbox t pg).valid = true ∧ (mailbox t pg).waiting = none
        ∧ (mailbox t pg).owner = (mailbox s pg).owner ∧ (mailbox t pg).data.length = 6
        ∧ (∀ i < 6, (mailbox t pg).data.getD i 0 =
            (snapshotWords (advance s tm) (mailbox s pg).owner pg (fld sel 0 16) (fld sel 16 8)).getD i 0)
        ∧ OnlyRegs [] s t ∧ MemSame s t)

/-- A permitted snapshot command with an index that its page defines leaves VALID clear, makes the writer the owner and has its selector (the code of its page, and the index) wait for the capture; only MBX_SEL changes among the registers. A tenant selects the event stamps of its own contexts only. (01_register_pages.md R29; 01_register_pages.md R42; 05_string_images.md R160; 06_hopper_ingest.md R185; 08_carafe_publication.md R223; 08_carafe_publication.md R225; 09_quantity_engine.md R247; 11_logic_runner.md R285; 13_redundant_pair.md R342; 14_network_ports.md R369; 15_time_unit.md R387; 16_vault_and_boot.md R420) -/
def Obligations.snapshots_selected : Prop :=
  (∀ (s : State) (tid ctx : Nat), judge s tid pgIrq1 Off.MBX_SEL = .ok → ctx < 68 → (tid ≠ 0 → ctx < 64 ∧ ctx % 16 = tid) →
      Selects (exec (.eventStampSnapshot tid ctx) s) tid pgIrq1 (selWord 1 ctx) s)
  ∧ (∀ (s : State) (tid i : Nat), judge s tid pgStr3 Off.MBX_SEL = .ok → i < 3 →
      Selects (exec (.imageDigestSnapshot tid i) s) tid pgStr3 (selWord 1 i) s)
  ∧ (∀ (s : State) (tid e : Nat), judge s tid pgHop3 Off.MBX_SEL = .ok → e < 512 →
      Selects (exec (.subscriptionCountersSnapshot tid e) s) tid pgHop3 (selWord (0x10 + e / 256) (e % 256)) s)
  ∧ (∀ (s : State) (tid i : Nat), judge s tid pgHop3 Off.MBX_SEL = .ok → i < 3 →
      Selects (exec (.substitutionMapSnapshot tid i) s) tid pgHop3 (selWord 0x20 i) s)
  ∧ (∀ (s : State) (tid p : Nat), judge s tid pgGse0 Off.MBX_SEL = .ok → p < 256 →
      Selects (exec (.publicationSnapshot tid p) s) tid pgGse0 (selWord 0x10 p) s)
  ∧ (∀ (s : State) (tid k : Nat), judge s tid pgGse1 Off.MBX_SEL = .ok → k < 1024 →
      Selects (exec (.subscriptionStateSnapshot tid k) s) tid pgGse1 (selWord (0x10 + k / 256) (k % 256)) s)
  ∧ (∀ (s : State) (tid a m : Nat), judge s tid pgQe1 Off.MBX_SEL = .ok → a < 6 → m < 128 →
      Selects (exec (.energySnapshot tid a m) s) tid pgQe1 (selWord (0x100 + a) m) s)
  ∧ (∀ (s : State) (tid o : Nat), judge s tid pgPul Off.MBX_SEL = .ok → o < 8 →
      Selects (exec (.pulseSnapshot tid o) s) tid pgPul (selWord 1 o) s)
  ∧ (∀ (s : State) (tid k i : Nat), k < 8 → judge s tid (pgCap k) Off.MBX_SEL = .ok → i < 16 →
      Selects (exec (.recordTableSnapshot tid k i) s) tid (pgCap k) (selWord 1 i) s)
  ∧ (∀ (s : State) (tid : Nat), judge s tid pgLgr1 Off.MBX_SEL = .ok →
      Selects (exec (.elementSnapshot tid) s) tid pgLgr1 (selWord 1 0) s)
  ∧ (∀ (s : State) (tid n : Nat), n < 16 → judge s tid (pgTen n) Off.MBX_SEL = .ok →
      Selects (exec (.migrationTicksSnapshot tid n) s) tid (pgTen n) (selWord 1 0) s)
  ∧ (∀ (s : State) (tid n : Nat), judge s tid pgPair1 Off.MBX_SEL = .ok → n < 16 →
      Selects (exec (.digestSnapshot tid n) s) tid pgPair1 (selWord 1 n) s)
  ∧ (∀ (s : State) (tid : Nat), judge s tid pgPair1 Off.MBX_SEL = .ok →
      Selects (exec (.peerSnapshot tid) s) tid pgPair1 (selWord 2 0) s)
  ∧ (∀ (s : State) (tid g n : Nat), judge s tid pgRed Off.MBX_SEL = .ok → g < 2 → n < 256 →
      Selects (exec (.nodeSnapshot tid g n) s) tid pgRed (selWord (0x10 + g) n) s)
  ∧ (∀ (s : State) (tid : Nat), judge s tid pgTime0 Off.MBX_SEL = .ok →
      Selects (exec (.tickSnapshot tid) s) tid pgTime0 (selWord 2 0) s)
  ∧ (∀ (s : State) (tid i : Nat), judge s tid pgTime0 Off.MBX_SEL = .ok → i < 2 →
      Selects (exec (.ppsInSnapshot tid i) s) tid pgTime0 (selWord 3 i) s)
  ∧ (∀ (s : State) (tid d : Nat), judge s tid pgTime1 Off.MBX_SEL = .ok → d < 5 →
      Selects (exec (.timeBaseSnapshot tid d) s) tid pgTime1 (selWord 1 d) s)
  ∧ (∀ (s : State) (tid i : Nat), judge s tid pgVlt Off.MBX_SEL = .ok → i < 24 →
      Selects (exec (.measurementSnapshot tid i) s) tid pgVlt (selWord 1 i) s)
  ∧ ∀ (s : State) (tid k : Nat), judge s tid pgVlt Off.MBX_SEL = .ok → k < 256 →
      Selects (exec (.slotSnapshot tid k) s) tid pgVlt (selWord 2 k) s

/-- A permitted INDIRECT_WRITE starts a slow-domain write of the value and INDIRECT_READ a read, and each sets BUSY; INDIRECT_DONE of an access in progress clears BUSY and ends it. A write of a port's PMA stores the bits that its register implements, a read of a stored PMA register returns it in IND_DATA, and IND_ADDR advances by STEP words; an address that the PMA does not implement sets IND_BAD, and a read of it returns 0. (01_register_pages.md R31; 01_register_pages.md R32; 14_network_ports.md R367) -/
def Obligations.indirect_accesses : Prop :=
  (∀ (s : State) (tid pg : Nat) (d : Word), judge s tid pg Off.IND_DATA = .ok →
      Reaches (exec (.indirectWrite tid pg d) s) (fun t => regBit t pg Off.IND_CTRL 9 = true
        ∧ t.ind.find? (fun x => x.1 = pg) = some (pg, .write d)
        ∧ t.resp = .done ∧ OnlyRegs [(pg, Off.IND_DATA), (pg, Off.IND_CTRL)] s t ∧ MemSame s t))
  ∧ (∀ (s : State) (tid pg : Nat) (d : Word), judge s tid pg Off.IND_CTRL = .ok →
      Reaches (exec (.indirectRead tid pg d) s) (fun t => regBit t pg Off.IND_CTRL 9 = true
        ∧ t.ind.find? (fun x => x.1 = pg) = some (pg, .read)
        ∧ regFld t pg Off.IND_CTRL 0 4 = fld d 0 4 ∧ OnlyRegs [(pg, Off.IND_CTRL)] s t ∧ MemSame s t))
  ∧ (∀ (s : State) (pg tm : Nat), s.ind.any (fun x => x.1 = pg) = true →
      Reaches (exec (.indirectDone pg tm) s) (fun t => regBit t pg Off.IND_CTRL 9 = false))
  ∧ (∀ (s : State) (p tm : Nat) (v m r : Word), p < 5 → s.ind.find? (fun x => x.1 = pgPort p) = some (pgPort p, .write v) →
      pmaRow (reg s (pgPort p) Off.IND_ADDR).toNat = some (m, r) →
      Reaches (exec (.indirectDone (pgPort p) tm) s) (fun t => pmaReg t p (reg s (pgPort p) Off.IND_ADDR).toNat = v &&& m
        ∧ reg t (pgPort p) Off.IND_ADDR = reg s (pgPort p) Off.IND_ADDR + word (4 * regFld s (pgPort p) Off.IND_CTRL 0 4)
        ∧ OnlyRegs [(pgPort p, Off.IND_CTRL), (pgPort p, Off.IND_ADDR)] s t ∧ MemSame s t))
  ∧ (∀ (s : State) (p tm : Nat) (m r : Word), p < 5 → s.ind.find? (fun x => x.1 = pgPort p) = some (pgPort p, .read) →
      pmaRow (reg s (pgPort p) Off.IND_ADDR).toNat = some (m, r) → (reg s (pgPort p) Off.IND_ADDR).toNat < 0x0C →
      Reaches (exec (.indirectDone (pgPort p) tm) s) (fun t => reg t (pgPort p) Off.IND_DATA = pmaReg s p (reg s (pgPort p) Off.IND_ADDR).toNat
        ∧ reg t (pgPort p) Off.IND_ADDR = reg s (pgPort p) Off.IND_ADDR + word (4 * regFld s (pgPort p) Off.IND_CTRL 0 4)))
  ∧ ∀ (s : State) (p tm : Nat), p < 5 → s.ind.find? (fun x => x.1 = pgPort p) = some (pgPort p, .read) →
      pmaRow (reg s (pgPort p) Off.IND_ADDR).toNat = none →
      Reaches (exec (.indirectDone (pgPort p) tm) s) (fun t => reg t (pgPort p) Off.IND_DATA = 0 ∧ regBit t (pgPort p) Off.ERR_STAT 6 = true)

/-- Each MAC operation of the bundle that the engine executes issues in its slot, reads its operands as the issue cycle has them, and leaves for m + 6 a write of its lane results (for FHSUM the horizontal sum in every lane) into the lanes that its predicate allows; nothing else of the registers and no memory changes at issue. (04_engine_instruction_set.md R112; 04_engine_instruction_set.md R113; 03_marionette_engines.md R70; 03_marionette_engines.md R73; 02_tick_contract.md R52) -/
def Obligations.mac_operations : Prop :=
  (∀ (s : State) (n slot : Nat) (qp : BitVec 3) (vd va vb vc : BitVec 6) (l : Latch), slot < 2 → InBundle s n slot (.mac 0x1 qp vd va vb vc) l →
      Reaches (exec (.fadd n slot qp vd va vb vc) s)
        (Writing n (l.tm + 6) (.v vd.toNat) (predMask (engOf s n) qp) (mkV (fun i => let a := lane (regV (engOf s n) va.toNat) i; let b := lane (regV (engOf s n) vb.toNat) i; fAdd a b)) l slot s))
  ∧ (∀ (s : State) (n slot : Nat) (qp : BitVec 3) (vd va vb vc : BitVec 6) (l : Latch), slot < 2 → InBundle s n slot (.mac 0x2 qp vd va vb vc) l →
      Reaches (exec (.fsub n slot qp vd va vb vc) s)
        (Writing n (l.tm + 6) (.v vd.toNat) (predMask (engOf s n) qp) (mkV (fun i => let a := lane (regV (engOf s n) va.toNat) i; let b := lane (regV (engOf s n) vb.toNat) i; fSub a b)) l slot s))
  ∧ (∀ (s : State) (n slot : Nat) (qp : BitVec 3) (vd va vb vc : BitVec 6) (l : Latch), slot < 2 → InBundle s n slot (.mac 0x3 qp vd va vb vc) l →
      Reaches (exec (.fmul n slot qp vd va vb vc) s)
        (Writing n (l.tm + 6) (.v vd.toNat) (predMask (engOf s n) qp) (mkV (fun i => let a := lane (regV (engOf s n) va.toNat) i; let b := lane (regV (engOf s n) vb.toNat) i; fMul a b)) l slot s))
  ∧ (∀ (s : State) (n slot : Nat) (qp : BitVec 3) (vd va vb vc : BitVec 6) (l : Latch), slot < 2 → InBundle s n slot (.mac 0x4 qp vd va vb vc) l →
      Reaches (exec (.fma n slot qp vd va vb vc) s)
        (Writing n (l.tm + 6) (.v vd.toNat) (predMask (engOf s n) qp) (mkV (fun i => let a := lane (regV (engOf s n) va.toNat) i; let b := lane (regV (engOf s n) vb.toNat) i; let c := lane (regV (engOf s n) vc.toNat) i; fMulAdd a b c)) l slot s))
  ∧ (∀ (s : State) (n slot : Nat) (qp : BitVec 3) (vd va vb vc : BitVec 6) (l : Latch), slot < 2 → InBundle s n slot (.mac 0x5 qp vd va vb vc) l →
      Reaches (exec (.fms n slot qp vd va vb vc) s)
        (Writing n (l.tm + 6) (.v vd.toNat) (predMask (engOf s n) qp) (mkV (fun i => let a := lane (regV (engOf s n) va.toNat) i; let b := lane (regV (engOf s n) vb.toNat) i; let c := lane (regV (engOf s n) vc.toNat) i; fMulSub a b c)) l slot s))
  ∧ (∀ (s : State) (n slot : Nat) (qp : BitVec 3) (vd va vb vc : BitVec 6) (l : Latch), slot < 2 → InBundle s n slot (.mac 0x6 qp vd va vb vc) l →
      Reaches (exec (.fnma n slot qp vd va vb vc) s)
        (Writing n (l.tm + 6) (.v vd.toNat) (predMask (engOf s n) qp) (mkV (fun i => let a := lane (regV (engOf s n) va.toNat) i; let b := lane (regV (engOf s n) vb.toNat) i; let c := lane (regV (engOf s n) vc.toNat) i; fNegMulAdd a b c)) l slot s))
  ∧ (∀ (s : State) (n slot : Nat) (qp : BitVec 3) (vd va vb vc : BitVec 6) (l : Latch), slot < 2 → InBundle s n slot (.mac 0x07 qp vd va vb vc) l →
      Reaches (exec (.fhsum n slot qp vd va vb vc) s)
        (Writing n (l.tm + 6) (.v vd.toNat) (predMask (engOf s n) qp) (splat (hsum (regV (engOf s n) va.toNat))) l slot s))
  ∧ (∀ (s : State) (n slot : Nat) (qp : BitVec 3) (vd va vb vc : BitVec 6) (l : Latch), slot < 2 → InBundle s n slot (.mac 0x8 qp vd va vb vc) l →
      Reaches (exec (.cvtf n slot qp vd va vb vc) s)
        (Writing n (l.tm + 6) (.v vd.toNat) (predMask (engOf s n) qp) (mkV (fun i => let a := lane (regV (engOf s n) va.toNat) i; fOfInt a.toInt)) l slot s))
  ∧ (∀ (s : State) (n slot : Nat) (qp : BitVec 3) (vd va vb vc : BitVec 6) (l : Latch), slot < 2 → InBundle s n slot (.mac 0x9 qp vd va vb vc) l →
      Reaches (exec (.cvti n slot qp vd va vb vc) s)
        (Writing n (l.tm + 6) (.v vd.toNat) (predMask (engOf s n) qp) (mkV (fun i => let a := lane (regV (engOf s n) va.toNat) i; intOfF a)) l slot s))
  ∧ (∀ (s : State) (n slot : Nat) (qp : BitVec 3) (vd va vb vc : BitVec 6) (l : Latch), slot < 2 → InBundle s n slot (.mac 0x10 qp vd va vb vc) l →
      Reaches (exec (.imul n slot qp vd va vb vc) s)
        (Writing n (l.tm + 6) (.v vd.toNat) (predMask (engOf s n) qp) (mkV (fun i => let a := lane (regV (engOf s n) va.toNat) i; let b := lane (regV (engOf s n) vb.toNat) i; a * b)) l slot s))
  ∧ (∀ (s : State) (n slot : Nat) (qp : BitVec 3) (vd va vb vc : BitVec 6) (l : Latch), slot < 2 → InBundle s n slot (.mac 0x11 qp vd va vb vc) l →
      Reaches (exec (.imadd n slot qp vd va vb vc) s)
        (Writing n (l.tm + 6) (.v vd.toNat) (predMask (engOf s n) qp) (mkV (fun i => let a := lane (regV (engOf s n) va.toNat) i; let b := lane (regV (engOf s n) vb.toNat) i; let c := lane (regV (engOf s n) vc.toNat) i; a * b + c)) l slot s))
  ∧ (∀ (s : State) (n slot : Nat) (qp : BitVec 3) (vd va vb vc : BitVec 6) (l : Latch), slot < 2 → InBundle s n slot (.mac 0x12 qp vd va vb vc) l →
      Reaches (exec (.imulh n slot qp vd va vb vc) s)
        (Writing n (l.tm + 6) (.v vd.toNat) (predMask (engOf s n) qp) (mkV (fun i => let a := lane (regV (engOf s n) va.toNat) i; let b := lane (regV (engOf s n) vb.toNat) i; BitVec.ofInt 32 (a.toInt * b.toInt / 2 ^ 32))) l slot s))
  ∧ (∀ (s : State) (n slot : Nat) (qp : BitVec 3) (vd va vb vc : BitVec 6) (l : Latch), slot < 2 → InBundle s n slot (.mac 0x13 qp vd va vb vc) l →
      Reaches (exec (.qmul n slot qp vd va vb vc) s)
        (Writing n (l.tm + 6) (.v vd.toNat) (predMask (engOf s n) qp) (mkV (fun i => let a := lane (regV (engOf s n) va.toNat) i; let b := lane (regV (engOf s n) vb.toNat) i; qMul a b)) l slot s))

/-- ADDI, ANDI, ORI, XORI, SHLI, SHRI, SARI and SLTI combine A[AA] with the immediate (sign-extended; a shift takes its low five bits), AOP combines A[AA] with A[AB] by the function that FN names, and LI builds a word from the immediate and the half of A[AD] that it keeps; the result waits for A[AD] at m + 1 where bit 0 of the predicate is set. (04_engine_instruction_set.md R115; 04_engine_instruction_set.md R116; 04_engine_instruction_set.md R117; 02_tick_contract.md R52) -/
def Obligations.scalar_alu_operations : Prop :=
  (∀ (s : State) (n : Nat) (qp : BitVec 3) (ad aa : BitVec 5) (imm : BitVec 13) (l : Latch), InBundle s n 2 (.aluImm 0x2 qp ad aa imm) l →
      Reaches (exec (.addi n qp ad aa imm) s)
        (Writing n (l.tm + 1) (.a ad.toNat) (scalarLanes s n qp) (wide (let x := regA (engOf s n) aa.toNat; x + imm.signExtend 32)) l 2 s))
  ∧ (∀ (s : State) (n : Nat) (qp : BitVec 3) (ad aa : BitVec 5) (imm : BitVec 13) (l : Latch), InBundle s n 2 (.aluImm 0x3 qp ad aa imm) l →
      Reaches (exec (.andi n qp ad aa imm) s)
        (Writing n (l.tm + 1) (.a ad.toNat) (scalarLanes s n qp) (wide (let x := regA (engOf s n) aa.toNat; x &&& imm.signExtend 32)) l 2 s))
  ∧ (∀ (s : State) (n : Nat) (qp : BitVec 3) (ad aa : BitVec 5) (imm : BitVec 13) (l : Latch), InBundle s n 2 (.aluImm 0x4 qp ad aa imm) l →
      Reaches (exec (.ori n qp ad aa imm) s)
        (Writing n (l.tm + 1) (.a ad.toNat) (scalarLanes s n qp) (wide (let x := regA (engOf s n) aa.toNat; x ||| imm.signExtend 32)) l 2 s))
  ∧ (∀ (s : State) (n : Nat) (qp : BitVec 3) (ad aa : BitVec 5) (imm : BitVec 13) (l : Latch), InBundle s n 2 (.aluImm 0x5 qp ad aa imm) l →
      Reaches (exec (.xori n qp ad aa imm) s)
        (Writing n (l.tm + 1) (.a ad.toNat) (scalarLanes s n qp) (wide (let x := regA (engOf s n) aa.toNat; x ^^^ imm.signExtend 32)) l 2 s))
  ∧ (∀ (s : State) (n : Nat) (qp : BitVec 3) (ad aa : BitVec 5) (imm : BitVec 13) (l : Latch), InBundle s n 2 (.aluImm 0x6 qp ad aa imm) l →
      Reaches (exec (.shli n qp ad aa imm) s)
        (Writing n (l.tm + 1) (.a ad.toNat) (scalarLanes s n qp) (wide (let x := regA (engOf s n) aa.toNat; x <<< (imm.toNat % 32))) l 2 s))
  ∧ (∀ (s : State) (n : Nat) (qp : BitVec 3) (ad aa : BitVec 5) (imm : BitVec 13) (l : Latch), InBundle s n 2 (.aluImm 0x7 qp ad aa imm) l →
      Reaches (exec (.shri n qp ad aa imm) s)
        (Writing n (l.tm + 1) (.a ad.toNat) (scalarLanes s n qp) (wide (let x := regA (engOf s n) aa.toNat; x >>> (imm.toNat % 32))) l 2 s))
  ∧ (∀ (s : State) (n : Nat) (qp : BitVec 3) (ad aa : BitVec 5) (imm : BitVec 13) (l : Latch), InBundle s n 2 (.aluImm 0x8 qp ad aa imm) l →
      Reaches (exec (.sari n qp ad aa imm) s)
        (Writing n (l.tm + 1) (.a ad.toNat) (scalarLanes s n qp) (wide (let x := regA (engOf s n) aa.toNat; x.sshiftRight (imm.toNat % 32))) l 2 s))
  ∧ (∀ (s : State) (n : Nat) (qp : BitVec 3) (ad aa : BitVec 5) (imm : BitVec 13) (l : Latch), InBundle s n 2 (.aluImm 0x9 qp ad aa imm) l →
      Reaches (exec (.slti n qp ad aa imm) s)
        (Writing n (l.tm + 1) (.a ad.toNat) (scalarLanes s n qp) (wide (let x := regA (engOf s n) aa.toNat; if x.slt (imm.signExtend 32) then 1 else 0)) l 2 s))
  ∧ (∀ (s : State) (n : Nat) (qp : BitVec 3) (ad aa ab fn : BitVec 5) (l : Latch) (r : Word), InBundle s n 2 (.aop qp ad aa ab fn) l →
      aopFn fn.toNat (regA (engOf s n) aa.toNat) (regA (engOf s n) ab.toNat) = some r →
      Reaches (exec (.aop n qp ad aa ab fn) s) (Writing n (l.tm + 1) (.a ad.toNat) (scalarLanes s n qp) (wide r) l 2 s))
  ∧ (∀ (s : State) (n : Nat) (qp : BitVec 3) (ad : BitVec 5) (sel : BitVec 2) (imm : BitVec 16) (l : Latch), InBundle s n 2 (.li qp ad sel imm) l →
      Reaches (exec (.li n qp ad sel imm) s) (Writing n (l.tm + 1) (.a ad.toNat) (scalarLanes s n qp)
        (wide (let old := regA (engOf s n) ad.toNat
          if sel = 0 then imm.signExtend 32 else if sel = 1 then imm ++ (0 : BitVec 16)
          else if sel = 2 then old.extractLsb' 16 16 ++ imm else imm ++ old.extractLsb' 0 16)) l 2 s))

/-- VOP, VSEL, VSPLAT and TLU leave a vector, VCMP, ACMP, QOP, QSET and QFROMA a predicate, and VEXT and AFROMQ a scalar, each for m + 1; a vector or predicate is written in the lanes that the instruction's predicate allows, a scalar where its bit 0 is set. A lane of VSEL comes from FA where its bit of Q[FN] is set and from FB elsewhere. (04_engine_instruction_set.md R115; 04_engine_instruction_set.md R118; 04_engine_instruction_set.md R119; 04_engine_instruction_set.md R120; 04_engine_instruction_set.md R130; 03_marionette_engines.md R73) -/
def Obligations.vector_and_predicate_operations : Prop :=
  (∀ (s : State) (n : Nat) (qp : BitVec 3) (fd fa fb : BitVec 6) (fn : BitVec 5) (l : Latch) (r : BitVec 128), InBundle s n 2 (.vr 0x10 qp fd fa fb fn) l →
      vopFn fn.toNat (regV (engOf s n) fa.toNat) (regV (engOf s n) fb.toNat) = some r →
      Reaches (exec (.vop n qp fd fa fb fn) s) (Writing n (l.tm + 1) (.v fd.toNat) (predMask (engOf s n) qp) r l 2 s))
  ∧ (∀ (s : State) (n : Nat) (qp : BitVec 3) (fd fa fb : BitVec 6) (fn : BitVec 5) (l : Latch), InBundle s n 2 (.vr 0x11 qp fd fa fb fn) l →
      Reaches (exec (.vcmp n qp fd fa fb fn) s) (Writing n (l.tm + 1) (.q (fd.toNat % 8)) (predMask (engOf s n) qp) (qVal (lanesQ (fun i => vcmpFn fn.toNat (lane (regV (engOf s n) fa.toNat) i) (lane (regV (engOf s n) fb.toNat) i) = some true))) l 2 s))
  ∧ (∀ (s : State) (n : Nat) (qp : BitVec 3) (fd fa fb : BitVec 6) (fn : BitVec 5) (l : Latch), InBundle s n 2 (.vr 0x12 qp fd fa fb fn) l →
      Reaches (exec (.vsel n qp fd fa fb fn) s) (Writing n (l.tm + 1) (.v fd.toNat) (predMask (engOf s n) qp) (mkV (fun i => if (regQ (engOf s n) (fn.toNat % 8)).getLsbD i then lane (regV (engOf s n) fa.toNat) i else lane (regV (engOf s n) fb.toNat) i)) l 2 s))
  ∧ (∀ (s : State) (n : Nat) (qp : BitVec 3) (fd fa fb : BitVec 6) (fn : BitVec 5) (l : Latch), InBundle s n 2 (.vr 0x13 qp fd fa fb fn) l →
      Reaches (exec (.vsplat n qp fd fa fb fn) s) (Writing n (l.tm + 1) (.v fd.toNat) (predMask (engOf s n) qp) (splat (regA (engOf s n) (fa.toNat % 32))) l 2 s))
  ∧ (∀ (s : State) (n : Nat) (qp : BitVec 3) (fd fa fb : BitVec 6) (fn : BitVec 5) (l : Latch), InBundle s n 2 (.vr 0x14 qp fd fa fb fn) l →
      Reaches (exec (.vext n qp fd fa fb fn) s) (Writing n (l.tm + 1) (.a (fd.toNat % 32)) (scalarLanes s n qp) (wide (lane (regV (engOf s n) fa.toNat) (fn.toNat % 4))) l 2 s))
  ∧ (∀ (s : State) (n : Nat) (qp : BitVec 3) (fd fa fb : BitVec 6) (fn : BitVec 5) (l : Latch), InBundle s n 2 (.vr 0x15 qp fd fa fb fn) l →
      Reaches (exec (.tlu n qp fd fa fb fn) s) (Writing n (l.tm + 1) (.v fd.toNat) (predMask (engOf s n) qp) (mkV (fun i => (tluFn fn.toNat (lane (regV (engOf s n) fa.toNat) i)).getD 0)) l 2 s))
  ∧ (∀ (s : State) (n : Nat) (qp : BitVec 3) (fd fa fb : BitVec 6) (fn : BitVec 5) (l : Latch), InBundle s n 2 (.vr 0x18 qp fd fa fb fn) l →
      Reaches (exec (.qop n qp fd fa fb fn) s) (Writing n (l.tm + 1) (.q (fd.toNat % 8)) (predMask (engOf s n) qp) (qVal (qopFn fn.toNat (regQ (engOf s n) (fa.toNat % 8)) (regQ (engOf s n) (fb.toNat % 8)))) l 2 s))
  ∧ (∀ (s : State) (n : Nat) (qp : BitVec 3) (fd fa fb : BitVec 6) (fn : BitVec 5) (l : Latch), InBundle s n 2 (.vr 0x19 qp fd fa fb fn) l →
      Reaches (exec (.qset n qp fd fa fb fn) s) (Writing n (l.tm + 1) (.q (fd.toNat % 8)) (predMask (engOf s n) qp) (qVal (fn.setWidth 4)) l 2 s))
  ∧ (∀ (s : State) (n : Nat) (qp : BitVec 3) (fd fa fb : BitVec 6) (fn : BitVec 5) (l : Latch), InBundle s n 2 (.vr 0x1a qp fd fa fb fn) l →
      Reaches (exec (.qfroma n qp fd fa fb fn) s) (Writing n (l.tm + 1) (.q (fd.toNat % 8)) (predMask (engOf s n) qp) (qVal ((regA (engOf s n) (fa.toNat % 32)).setWidth 4)) l 2 s))
  ∧ (∀ (s : State) (n : Nat) (qp : BitVec 3) (fd fa fb : BitVec 6) (fn : BitVec 5) (l : Latch), InBundle s n 2 (.vr 0x1b qp fd fa fb fn) l →
      Reaches (exec (.afromq n qp fd fa fb fn) s) (Writing n (l.tm + 1) (.a (fd.toNat % 32)) (scalarLanes s n qp) (qVal (regQ (engOf s n) (fa.toNat % 8))) l 2 s))
  ∧ (∀ (s : State) (n : Nat) (qp : BitVec 3) (fd fa fb : BitVec 6) (fn : BitVec 5) (l : Latch), InBundle s n 2 (.vr 0x1c qp fd fa fb fn) l →
      Reaches (exec (.acmp n qp fd fa fb fn) s) (Writing n (l.tm + 1) (.q (fd.toNat % 8)) (predMask (engOf s n) qp) (qVal (lanesQ (fun _ => acmpFn fn.toNat (regA (engOf s n) (fa.toNat % 32)) (regA (engOf s n) (fb.toNat % 32)) = some true))) l 2 s))

/-- An LSU operation that meets no bank conflict, no stored error and, where its predicate lets it touch memory, no address outside the partition's regions: LDA, LDV and LDB leave for m + 4 the word or words at A[AB] + IMM12 times the access size (aligned down to it), LDB the same word in every lane; STA and STV leave the words of the allowed lanes to become visible at m + 2, each at its own lane's address; LDVP and STVP use A[AB] itself and leave A[AB] + 16 IMM12 for A[AB] at m + 1 where bit 0 of the predicate is set. No memory changes at issue. (04_engine_instruction_set.md R121; 04_engine_instruction_set.md R122; 03_marionette_engines.md R82; 03_marionette_engines.md R83; 03_marionette_engines.md R93; 02_tick_contract.md R52; 02_tick_contract.md R55) -/
def Obligations.load_store_operations : Prop :=
  (∀ (s : State) (n : Nat) (qp : BitVec 3) (rg : BitVec 6) (ab : BitVec 5) (imm : BitVec 12) (l : Latch), InBundle s n 3 (.ls 1 qp rg ab imm) l →
      DmemClear s n (lsuAddr (regA (engOf s n) ab.toNat) imm 4) 4 (predOn (engOf s n) qp) l →
      Reaches (exec (.lda n qp rg ab imm) s) (Writing n (l.tm + 4) (.a (rg.toNat % 32)) (scalarLanes s n qp)
        (splat (dmemWord s n (lsuAddr (regA (engOf s n) ab.toNat) imm 4))) l 3 s))
  ∧ (∀ (s : State) (n : Nat) (qp : BitVec 3) (rg : BitVec 6) (ab : BitVec 5) (imm : BitVec 12) (l : Latch), InBundle s n 3 (.ls 2 qp rg ab imm) l →
      DmemClear s n (lsuAddr (regA (engOf s n) ab.toNat) imm 16) 16 (predMask (engOf s n) qp ≠ 0) l →
      Reaches (exec (.ldv n qp rg ab imm) s) (Writing n (l.tm + 4) (.v rg.toNat) (predMask (engOf s n) qp)
        (mkV (fun i => dmemWord s n (lsuAddr (regA (engOf s n) ab.toNat) imm 16 + 4 * i))) l 3 s))
  ∧ (∀ (s : State) (n : Nat) (qp : BitVec 3) (rg : BitVec 6) (ab : BitVec 5) (imm : BitVec 12) (l : Latch), InBundle s n 3 (.ls 3 qp rg ab imm) l →
      DmemClear s n (lsuAddr (regA (engOf s n) ab.toNat) imm 4) 4 (predMask (engOf s n) qp ≠ 0) l →
      Reaches (exec (.ldb n qp rg ab imm) s) (Writing n (l.tm + 4) (.v rg.toNat) (predMask (engOf s n) qp)
        (splat (dmemWord s n (lsuAddr (regA (engOf s n) ab.toNat) imm 4))) l 3 s))
  ∧ (∀ (s : State) (n : Nat) (qp : BitVec 3) (rg : BitVec 6) (ab : BitVec 5) (imm : BitVec 12) (l : Latch), InBundle s n 3 (.ls 6 qp rg ab imm) l →
      DmemClear s n (lsuAddr (regA (engOf s n) ab.toNat) 0 16) 16 (predMask (engOf s n) qp ≠ 0) l →
      Reaches (exec (.ldvp n qp rg ab imm) s) (fun t => Issued n 3 l s t ∧ (engOf t n).writes =
        queued ⟨l.tm + 4, .v rg.toNat, predMask (engOf s n) qp, mkV (fun i => dmemWord s n (lsuAddr (regA (engOf s n) ab.toNat) 0 16 + 4 * i)), l.tm, 3⟩
          (queued ⟨l.tm + 1, .a ab.toNat, scalarLanes s n qp, wide (regA (engOf s n) ab.toNat + imm.signExtend 32 * 16), l.tm, 3⟩ (engOf s n).writes)))
  ∧ (∀ (s : State) (n : Nat) (qp : BitVec 3) (rg : BitVec 6) (ab : BitVec 5) (imm : BitVec 12) (l : Latch), InBundle s n 3 (.ls 4 qp rg ab imm) l →
      DmemClear s n (lsuAddr (regA (engOf s n) ab.toNat) imm 4) 4 (predOn (engOf s n) qp) l →
      Reaches (exec (.sta n qp rg ab imm) s) (fun t => Issued n 3 l s t
        ∧ (engOf t n).stores = (engOf s n).stores ++ (if predOn (engOf s n) qp then [⟨l.tm + 2, [(dmemPhys n (lsuAddr (regA (engOf s n) ab.toNat) imm 4), regA (engOf s n) (rg.toNat % 32))]⟩] else [])
        ∧ (engOf t n).writes = (engOf s n).writes))
  ∧ (∀ (s : State) (n : Nat) (qp : BitVec 3) (rg : BitVec 6) (ab : BitVec 5) (imm : BitVec 12) (l : Latch), InBundle s n 3 (.ls 5 qp rg ab imm) l →
      DmemClear s n (lsuAddr (regA (engOf s n) ab.toNat) imm 16) 16 (predMask (engOf s n) qp ≠ 0) l →
      Reaches (exec (.stv n qp rg ab imm) s) (fun t => Issued n 3 l s t
        ∧ (engOf t n).stores = (engOf s n).stores ++ (if predMask (engOf s n) qp ≠ 0 then [⟨l.tm + 2, ((List.range 4).filter (fun i => (predMask (engOf s n) qp).getLsbD i)).map (fun i => (dmemPhys n (lsuAddr (regA (engOf s n) ab.toNat) imm 16 + 4 * i), lane (regV (engOf s n) rg.toNat) i))⟩] else [])
        ∧ (engOf t n).writes = (engOf s n).writes))
  ∧ (∀ (s : State) (n : Nat) (qp : BitVec 3) (rg : BitVec 6) (ab : BitVec 5) (imm : BitVec 12) (l : Latch), InBundle s n 3 (.ls 7 qp rg ab imm) l →
      DmemClear s n (lsuAddr (regA (engOf s n) ab.toNat) 0 16) 16 (predMask (engOf s n) qp ≠ 0) l →
      Reaches (exec (.stvp n qp rg ab imm) s) (fun t => Issued n 3 l s t
        ∧ (engOf t n).stores = (engOf s n).stores ++ (if predMask (engOf s n) qp ≠ 0 then [⟨l.tm + 2, ((List.range 4).filter (fun i => (predMask (engOf s n) qp).getLsbD i)).map (fun i => (dmemPhys n (lsuAddr (regA (engOf s n) ab.toNat) 0 16 + 4 * i), lane (regV (engOf s n) rg.toNat) i))⟩] else [])
        ∧ (engOf t n).writes = queued ⟨l.tm + 1, .a ab.toNat, scalarLanes s n qp, wide (regA (engOf s n) ab.toNat + imm.signExtend 32 * 16), l.tm, 3⟩ (engOf s n).writes))

/-- An XFER operation whose two sides lie in the partition's regions, that gets its own slot-table entry and meets no bank conflict (HRD also: from ME cycle 3,000 and eight cycles after the engine's last one) puts one transfer in flight with the addresses that its registers and immediates give at issue and its landing (CLRD m + 47, OVL m + 50, HRD m + 95 with the sealed block, CLWR one cycle after its bank access, DEP acceptance m + 32); a predicate that does not let it act leaves it in flight without effect (live is false). (04_engine_instruction_set.md R124; 04_engine_instruction_set.md R125; 04_engine_instruction_set.md R126; 02_tick_contract.md R52; 02_tick_contract.md R58; 02_tick_contract.md R61; 02_tick_contract.md R62; 03_marionette_engines.md R84) -/
def Obligations.transfer_operations : Prop :=
  (∀ (s : State) (n : Nat) (qp : BitVec 3) (al ar : BitVec 5) (imm7 : BitVec 7) (imm6 : BitVec 6) (l : Latch), InBundle s n 4 (.xfer 1 qp al ar imm7 imm6) l →
      inDmem (partEntry s n l.part) (xferDmem (regA (engOf s n) al.toNat) imm7) 64 = true →
      inRegion ((partEntry s n l.part).clmBase * 4096) ((partEntry s n l.part).clmLimit * 4096) (xferClm (regA (engOf s n) ar.toNat) imm6) 64 = true →
      takeSlot s n (xferClm (regA (engOf s n) ar.toNat) imm6 / 0x80000 % 4) l.tm = some 0 →
      ⟨l.tm + 47, dmemBank (xferDmem (regA (engOf s n) al.toNat) imm7)⟩ ∉ (engOf s n).uses →
      Reaches (exec (.clrd n qp al ar imm7 imm6) s) (fun t => Issued n 4 l s t ∧ (engOf t n).writes = (engOf s n).writes
        ∧ t.xfers = s.xfers ++ [⟨.clrd, n, l.tm, (partEntry s n l.part).tid, l.part, l.pc, predOn (engOf s n) qp, true, true, xferDmem (regA (engOf s n) al.toNat) imm7, xferClm (regA (engOf s n) ar.toNat) imm6, false, none, some (s.tick.edgeAt.getD 0 + 2 * (cycleOf s l.tm / 2 + 4)), l.tm + 47, List.replicate 64 0⟩]))
  ∧ (∀ (s : State) (n : Nat) (qp : BitVec 3) (al ar : BitVec 5) (imm7 : BitVec 7) (imm6 : BitVec 6) (l : Latch), InBundle s n 4 (.xfer 2 qp al ar imm7 imm6) l →
      inDmem (partEntry s n l.part) (xferDmem (regA (engOf s n) al.toNat) imm7) 64 = true →
      inRegion ((partEntry s n l.part).clmBase * 4096) ((partEntry s n l.part).clmLimit * 4096) (xferClm (regA (engOf s n) ar.toNat) imm6) 64 = true →
      takeSlot s n (xferClm (regA (engOf s n) ar.toNat) imm6 / 0x80000 % 4) l.tm = some 0 →
      ⟨l.tm + 1, dmemBank (xferDmem (regA (engOf s n) al.toNat) imm7)⟩ ∉ (engOf s n).uses →
      Reaches (exec (.clwr n qp al ar imm7 imm6) s) (fun t => Issued n 4 l s t ∧ (engOf t n).writes = (engOf s n).writes
        ∧ t.xfers = s.xfers ++ [⟨.clwr, n, l.tm, (partEntry s n l.part).tid, l.part, l.pc, predOn (engOf s n) qp, true, true, xferDmem (regA (engOf s n) al.toNat) imm7, xferClm (regA (engOf s n) ar.toNat) imm6, false, some (l.tm + 1), some (s.tick.edgeAt.getD 0 + 2 * (cycleOf s l.tm / 2 + 4)), s.tick.edgeAt.getD 0 + 2 * (cycleOf s l.tm / 2 + 4) + 1, List.replicate 64 0⟩]))
  ∧ (∀ (s : State) (n : Nat) (qp : BitVec 3) (al ar : BitVec 5) (imm7 : BitVec 7) (imm6 : BitVec 6) (l : Latch), InBundle s n 4 (.xfer 3 qp al ar imm7 imm6) l →
      inRegion (24 * (partEntry s n l.part).imemBase) (24 * (partEntry s n l.part).imemLimit) (64 * xferLine (regA (engOf s n) al.toNat) imm7) 64 = true →
      inRegion ((partEntry s n l.part).clmBase * 4096) ((partEntry s n l.part).clmLimit * 4096) (xferClm (regA (engOf s n) ar.toNat) imm6) 64 = true →
      takeSlot s n (xferClm (regA (engOf s n) ar.toNat) imm6 / 0x80000 % 4) l.tm = some 0 →
      Reaches (exec (.ovl n qp al ar imm7 imm6) s) (fun t => Issued n 4 l s t ∧ (engOf t n).writes = (engOf s n).writes
        ∧ t.xfers = s.xfers ++ [⟨.ovl, n, l.tm, (partEntry s n l.part).tid, l.part, l.pc, predOn (engOf s n) qp, true, true, xferLine (regA (engOf s n) al.toNat) imm7, xferClm (regA (engOf s n) ar.toNat) imm6, false, none, some (s.tick.edgeAt.getD 0 + 2 * (cycleOf s l.tm / 2 + 4)), l.tm + 50, List.replicate 64 0⟩]))
  ∧ (∀ (s : State) (n : Nat) (qp : BitVec 3) (al ar : BitVec 5) (imm7 : BitVec 7) (imm6 : BitVec 6) (l : Latch), InBundle s n 4 (.xfer 4 qp al ar imm7 imm6) l →
      inDmem (partEntry s n l.part) (xferDmem (regA (engOf s n) al.toNat) imm7) 64 = true →
      inRegion (partEntry s n l.part).hopBase (partEntry s n l.part).hopLimit (xferBlock (regA (engOf s n) ar.toNat) imm6) 1 = true →
      3000 ≤ cycleOf s l.tm →
      (∀ h, (engOf s n).hopPrev = some h → h + 8 ≤ l.tm) →
      ⟨l.tm + 95, dmemBank (xferDmem (regA (engOf s n) al.toNat) imm7)⟩ ∉ (engOf s n).uses →
      Reaches (exec (.hrd n qp al ar imm7 imm6) s) (fun t => Issued n 4 l s t ∧ (engOf t n).writes = (engOf s n).writes
        ∧ t.xfers = s.xfers ++ [⟨.hrd, n, l.tm, (partEntry s n l.part).tid, l.part, l.pc, predOn (engOf s n) qp, true, true, xferDmem (regA (engOf s n) al.toNat) imm7, xferBlock (regA (engOf s n) ar.toNat) imm6, false, none, none, l.tm + 95, hopBlock s (xferBlock (regA (engOf s n) ar.toNat) imm6)⟩]))
  ∧ (∀ (s : State) (n : Nat) (qp : BitVec 3) (al ar : BitVec 5) (imm7 : BitVec 7) (imm6 : BitVec 6) (l : Latch), InBundle s n 4 (.xfer 5 qp al ar imm7 imm6) l →
      inDmem (partEntry s n l.part) (xferDmem (regA (engOf s n) al.toNat) imm7) 64 = true →
      ⟨l.tm + 1, dmemBank (xferDmem (regA (engOf s n) al.toNat) imm7)⟩ ∉ (engOf s n).uses →
      Reaches (exec (.dep n qp al ar imm7 imm6) s) (fun t => Issued n 4 l s t ∧ (engOf t n).writes = (engOf s n).writes
        ∧ t.xfers = s.xfers ++ [⟨.dep, n, l.tm, (partEntry s n l.part).tid, l.part, l.pc, predOn (engOf s n) qp, true, true, xferDmem (regA (engOf s n) al.toNat) imm7, xferBlock (regA (engOf s n) ar.toNat) imm6, false, some (l.tm + 1), none, l.tm + 32, List.replicate 64 0⟩]))

/-- STV whose predicate lets it touch memory outside the partition's regions stores nothing, raises REGION in FAULT_STAT, marks the partition a violator and has its tenant's deposit lanes publish invalid at the next flip; an illegal operation raises ILLEGAL in the same way and leaves every register of the engine. Either is flagged once per partition and tick. (03_marionette_engines.md R93; 03_marionette_engines.md R98; 02_tick_contract.md R55; 02_tick_contract.md R66; 04_engine_instruction_set.md R135) -/
def Obligations.region_and_conflict_violations : Prop :=
  (∀ (s : State) (n : Nat) (qp : BitVec 3) (rg : BitVec 6) (ab : BitVec 5) (imm : BitVec 12) (l : Latch), InBundle s n 3 (.ls 5 qp rg ab imm) l →
      predMask (engOf s n) qp ≠ 0 → inDmem (partEntry s n l.part) (lsuAddr (regA (engOf s n) ab.toNat) imm 16) 16 = false →
      (16 * l.part + 6) ∉ (engOf s n).violators →
      Reaches (exec (.stv n qp rg ab imm) s) (fun t => (engOf t n).stores = (engOf s n).stores ∧ regBit t (pgMe n) Off.FAULT_STAT 6 = true
        ∧ (16 * l.part + 6) ∈ (engOf t n).violators
        ∧ (if s.car.flipped then (partEntry s n l.part).tid ∈ t.car.nextBadTids else (partEntry s n l.part).tid ∈ t.car.badTids) ∧ MemSame s t))
  ∧ ∀ (s : State) (n slot : Nat) (w : Word) (l : Latch), InBundle s n slot (.illegal slot w) l → (16 * l.part + 10) ∉ (engOf s n).violators →
      Reaches (exec (.illegalOperation n slot w) s) (fun t => regBit t (pgMe n) Off.FAULT_STAT 10 = true
        ∧ (16 * l.part + 10) ∈ (engOf t n).violators ∧ (engOf t n).writes = (engOf s n).writes
        ∧ (engOf t n).v = (engOf s n).v ∧ (engOf t n).a = (engOf s n).a ∧ (engOf t n).q = (engOf s n).q
        ∧ (if s.car.flipped then (partEntry s n l.part).tid ∈ t.car.nextBadTids else (partEntry s n l.part).tid ∈ t.car.badTids) ∧ MemSame s t)

/-- Where bit 0 of the predicate is set, BR and BRA leave a redirect to their target for m + 3, WAIT and WAITA stop issue until the ME cycle they name if it lies after the issue cycle, LOOP opens a loop over the LEN + 1 bundles that follow with CM1 + 1 passes where no loop is open, or one that holds it, and PEND ends the partition in this cycle, and the string too in the last valid window; NOP, and each of these where the bit is clear, only leaves the bundle. (04_engine_instruction_set.md R127; 04_engine_instruction_set.md R129; 04_engine_instruction_set.md R104; 03_marionette_engines.md R75; 03_marionette_engines.md R76; 03_marionette_engines.md R77; 03_marionette_engines.md R91) -/
def Obligations.control_operations : Prop :=
  (∀ (s : State) (n : Nat) (qp : BitVec 3) (tgt : BitVec 13) (l : Latch), InBundle s n 5 (.br qp tgt) l →
      Reaches (exec (.br n qp tgt) s) (fun t => Issued n 5 l s t ∧ (engOf t n).redirects = (engOf s n).redirects ++ (if predOn (engOf s n) qp then [(l.tm + 3, tgt.toNat)] else [])))
  ∧ (∀ (s : State) (n : Nat) (qp : BitVec 3) (aa : BitVec 5) (l : Latch), InBundle s n 5 (.bra qp aa) l →
      Reaches (exec (.bra n qp aa) s) (fun t => Issued n 5 l s t ∧ (engOf t n).redirects = (engOf s n).redirects ++ (if predOn (engOf s n) qp then [(l.tm + 3, (regA (engOf s n) aa.toNat).toNat % 2 ^ 13)] else [])))
  ∧ (∀ (s : State) (n : Nat) (qp : BitVec 3) (c : BitVec 20) (l : Latch), InBundle s n 5 (.wait qp c) l →
      Reaches (exec (.waitUntil n qp c) s) (fun t => Issued n 5 l s t ∧ (engOf t n).waitUntil = if predOn (engOf s n) qp && decide (cycleOf s l.tm < c.toNat) then s.tick.edgeAt.getD 0 + c.toNat else (engOf s n).waitUntil))
  ∧ (∀ (s : State) (n : Nat) (qp : BitVec 3) (aa : BitVec 5) (l : Latch), InBundle s n 5 (.waita qp aa) l →
      Reaches (exec (.waita n qp aa) s) (fun t => Issued n 5 l s t ∧ (engOf t n).waitUntil = if predOn (engOf s n) qp && decide (cycleOf s l.tm < ((regA (engOf s n) aa.toNat).toNat % 2 ^ 20)) then s.tick.edgeAt.getD 0 + ((regA (engOf s n) aa.toNat).toNat % 2 ^ 20) else (engOf s n).waitUntil))
  ∧ (∀ (s : State) (n : Nat) (qp : BitVec 3) (cm1 : BitVec 12) (len : BitVec 11) (l : Latch), InBundle s n 5 (.loop qp cm1 len) l →
      (predOn (engOf s n) qp = true → (engOf s n).loops = [] ∨ ∃ o, (engOf s n).loops = [o] ∧ l.pc + 1 + len.toNat ≤ o.stop) →
      Reaches (exec (.loopOpen n qp cm1 len) s) (fun t => Issued n 5 l s t ∧ (engOf t n).loops = if predOn (engOf s n) qp then ⟨l.pc + 1, l.pc + 1 + len.toNat, cm1.toNat + 1⟩ :: (engOf s n).loops else (engOf s n).loops))
  ∧ (∀ (s : State) (n : Nat) (qp : BitVec 3)  (l : Latch), InBundle s n 5 (.pend qp) l →
      Reaches (exec (.pend n qp ) s) (fun t => Issued n 5 l s t ∧ (engOf t n).pendAt = (if predOn (engOf s n) qp then some ((engOf s n).pendAt.getD l.tm) else (engOf s n).pendAt)
        ∧ (engOf t n).running = (if predOn (engOf s n) qp && lastWindow (engOf s n) l.part then false else (engOf s n).running)))
  ∧ (∀ (s : State) (n slot : Nat) (qp : BitVec 3) (l : Latch), InBundle s n slot (.nop qp) l →
      Reaches (exec (.nop n slot qp) s) (fun t => Issued n slot l s t ∧ (engOf t n).writes = (engOf s n).writes ∧ t.xfers = s.xfers))

/-- Every int32 addition, subtraction and product of AOP, VOP, ADDI, IMUL and IMADD is the exact integer result modulo 2^32; a shift by a register or an immediate depends on the low five bits of its amount alone; and a saturating operation delivers its exact result clamped to −2^31 and 2^31 − 1. (04_engine_instruction_set.md R111) -/
def Obligations.int32_arithmetic : Prop :=
  (∀ a b c : Word,
      intFn 0x00 a b = some (BitVec.ofInt 32 (a.toInt + b.toInt)) ∧ intFn 0x01 a b = some (BitVec.ofInt 32 (a.toInt - b.toInt))
      ∧ macLane 0x10 a b c = some (BitVec.ofInt 32 (a.toInt * b.toInt)) ∧ macLane 0x11 a b c = some (BitVec.ofInt 32 (a.toInt * b.toInt + c.toInt)))
  ∧ (∀ (a : Word) (imm : BitVec 13), immFn 0x02 a imm = BitVec.ofInt 32 (a.toInt + imm.toInt))
  ∧ (∀ (fn : Nat) (a b c : Word), 5 ≤ fn → fn ≤ 7 → b.toNat % 32 = c.toNat % 32 →
      intFn fn a b = intFn fn a c ∧ aopFn fn a b = aopFn fn a c)
  ∧ (∀ (op : Nat) (a : Word) (i j : BitVec 13), 6 ≤ op → op ≤ 8 → i.toNat % 32 = j.toNat % 32 → immFn op a i = immFn op a j)
  ∧ (∀ v : Int, (sat32 v).toInt = max (-2147483648) (min 2147483647 v))
  ∧ ∀ (a b : BitVec 128) (i : Nat), i < 4 →
      lane ((vopFn 0x10 a b).getD 0) i = sat32 ((lane a i).toInt + (lane b i).toInt)
      ∧ lane ((vopFn 0x11 a b).getD 0) i = sat32 ((lane a i).toInt - (lane b i).toInt)
      ∧ lane ((vopFn 0x12 a b).getD 0) i = sat32 (max (lane a i).toInt (-(lane a i).toInt))
      ∧ lane ((vopFn 0x00 a b).getD 0) i = BitVec.ofInt 32 ((lane a i).toInt + (lane b i).toInt)
      ∧ lane ((vopFn 0x01 a b).getD 0) i = BitVec.ofInt 32 ((lane a i).toInt - (lane b i).toInt)

/-- A lane of FADD, FSUB, FMUL, FMA, FMS, FNMA or FHSUM one of whose operands is a NaN, with any sign and payload, delivers 0x7FC0_0000, as do the sum of infinities of opposite signs and the product of zero and an infinity. (04_engine_instruction_set.md R109; 04_engine_instruction_set.md R112) -/
def Obligations.fp32_not_a_number : Prop :=
  (∀ a b : Word, f32 a = .nan ∨ f32 b = .nan → fAdd a b = 0x7FC00000 ∧ fSub a b = 0x7FC00000 ∧ fMul a b = 0x7FC00000)
  ∧ (∀ a b c : Word, f32 a = .nan ∨ f32 b = .nan ∨ f32 c = .nan →
      fMulAdd a b c = 0x7FC00000 ∧ fMulSub a b c = 0x7FC00000 ∧ fNegMulAdd a b c = 0x7FC00000)
  ∧ (∀ v : BitVec 128, (∃ i, i < 4 ∧ f32 (lane v i) = .nan) → hsum v = 0x7FC00000)
  ∧ fAdd 0x7F800000 0xFF800000 = 0x7FC00000 ∧ fMul 0x00000000 0x7F800000 = 0x7FC00000
  ∧ ∀ w : Word, f32 w = .nan ↔ fld w 23 8 = 255 ∧ fld w 0 23 ≠ 0

/-- Where the engine may issue at the instant (after all that falls due by then), BUNDLE_FETCH executes the bundle that next_pc names and takes the loop state and the redirects that next_pc leaves; BRANCH_REDIRECT of a redirect that has fallen due executes its target, and WAIT_END at the instant waited for executes the next bundle. If the bundle lies in the partition's IMEM region, none of its lines is a pending overlay or holds an uncorrectable error, and at most 60 operations are in flight, all six decoded operations stand ready to issue. (03_marionette_engines.md R75; 03_marionette_engines.md R76; 03_marionette_engines.md R78; 03_marionette_engines.md R79; 03_marionette_engines.md R93) -/
def Obligations.fetch_executes_next_bundle : Prop :=
  (∀ (s s0 : State) (n tm pc p q : Nat), settle n tm (advance s tm) = s0 → mayIssue s0 n tm = true → (engOf s0 n).part = some p →
      (engOf s0 n).lastPc = some q → (nextPc (engOf s0 n) q tm).1 = pc →
      Reaches (exec (.bundleFetch n tm) s) (fun t => (engOf t n).lastPc = some pc ∧ (engOf t n).loops = (nextPc (engOf s0 n) q tm).2.1
        ∧ (engOf t n).redirects = (nextPc (engOf s0 n) q tm).2.2
        ∧ ((partEntry s0 n p).imemBase ≤ pc → pc < (partEntry s0 n p).imemLimit →
            (∀ o ∈ (engOf s0 n).overlays, o.2 < tm ∨ (o.1 ≠ 24 * pc / 64 ∧ o.1 ≠ (24 * pc + 23) / 64)) →
            hasUe s0 (imemPhys n (24 * pc)) 24 = false → ((engOf s0 n).inflight.filter (fun i => tm ≤ i)).length ≤ 60 →
            (engOf t n).latch = some ⟨tm, pc, p, (List.range 6).map (fun i => (i, decodeSlot i (bundleWord s0 n pc i) pc))⟩)))
  ∧ (∀ (s s0 : State) (n tm p q d g : Nat) (r : List (Nat × Nat)), settle n tm (advance s tm) = s0 → mayIssue s0 n tm = true →
      (engOf s0 n).part = some p → (engOf s0 n).lastPc = some q → (engOf s0 n).redirects = (d, g) :: r → (engOf s n).redirects = (d, g) :: r → d ≤ tm →
      Reaches (exec (.branchRedirect n tm) s) (fun t => (engOf t n).lastPc = some g ∧ (engOf t n).redirects = r))
  ∧ ∀ (s s0 : State) (n tm p q : Nat), settle n tm (advance s tm) = s0 → mayIssue s0 n tm = true → (engOf s0 n).part = some p →
      (engOf s0 n).lastPc = some q → (engOf s n).waitUntil = tm →
      Reaches (exec (.waitEnd n tm) s) (fun t => (engOf t n).lastPc = some (nextPc (engOf s0 n) q tm).1)

/-- Without a due redirect, the bundle after the last one of the innermost open loop is the loop's first while more than one pass is left, with one pass less, and the one that follows, with the loop closed, in the last pass; any other bundle is followed by the next address with the loops unchanged. A redirect that has fallen due names the address instead, and every open loop whose body does not hold the target is closed. (03_marionette_engines.md R77; 03_marionette_engines.md R78; 03_marionette_engines.md R75) -/
def Obligations.loops_and_redirects : Prop :=
  (∀ (e : Engine) (pc tm : Nat), (∀ d ∈ e.redirects, tm < d.1) →
      (∀ o r, e.loops = o :: r → pc = o.stop → 1 < o.count → nextPc e pc tm = (o.start, { o with count := o.count - 1 } :: r, e.redirects))
      ∧ (∀ o r, e.loops = o :: r → pc = o.stop → o.count ≤ 1 → nextPc e pc tm = (pc + 1, r, e.redirects))
      ∧ ((∀ o r, e.loops = o :: r → pc ≠ o.stop) → nextPc e pc tm = (pc + 1, e.loops, e.redirects)))
  ∧ ∀ (e : Engine) (pc tm d g : Nat) (r : List (Nat × Nat)), e.redirects = (d, g) :: r → d ≤ tm →
      (nextPc e pc tm).1 = g ∧ (nextPc e pc tm).2.2 = r
      ∧ ∀ o rest, (nextPc e pc tm).2.1 = o :: rest → o.start ≤ g ∧ g ≤ o.stop

/-- Exactly the writes due by the instant leave the list. A single due write of a V register replaces its allowed lanes and leaves the others; one of an A register sets it; one of a Q register sets the allowed bits, and one of Q0 changes nothing: Q0 reads 0xF always. Every register that no due write names is unchanged. Of two writes of the same lane of one V register in one cycle the later in order (later issue, then higher slot) stands and the collision is flagged. (03_marionette_engines.md R70; 03_marionette_engines.md R71; 03_marionette_engines.md R72; 03_marionette_engines.md R73) -/
def Obligations.register_writeback : Prop :=
  (∀ (s : State) (n tm : Nat), Reaches (exec (.registerWriteback n tm) s) (fun t =>
      (engOf t n).writes = (engOf s n).writes.filter (fun w => !(w.due ≤ tm)) ∧ regQ (engOf t n) 0 = 0xF
      ∧ (∀ k, (∀ w ∈ (engOf s n).writes, w.due ≤ tm → w.dest ≠ .v k) → regV (engOf t n) k = regV (engOf s n) k)
      ∧ (∀ k, (∀ w ∈ (engOf s n).writes, w.due ≤ tm → w.dest ≠ .a k) → regA (engOf t n) k = regA (engOf s n) k)
      ∧ (∀ k, (∀ w ∈ (engOf s n).writes, w.due ≤ tm → w.dest ≠ .q k) → regQ (engOf t n) k = regQ (engOf s n) k)
      ∧ OnlyRegs [(pgMe n, Off.FAULT_STAT)] s t ∧ MemSame s t))
  ∧ (∀ (s : State) (n tm k : Nat) (w : PendWrite), (engOf s n).writes.filter (fun w => w.due ≤ tm) = [w] →
      Reaches (exec (.registerWriteback n tm) s) (fun t =>
        (w.dest = .v k → ∀ i < 4, lane (regV (engOf t n) k) i = if w.lanes.getLsbD i then lane w.value i else lane (regV (engOf s n) k) i)
        ∧ (w.dest = .a k → regA (engOf t n) k = lane w.value 0)
        ∧ (w.dest = .q k → k ≠ 0 → ∀ i < 4, (regQ (engOf t n) k).getLsbD i = if w.lanes.getLsbD i then w.value.getLsbD i else (regQ (engOf s n) k).getLsbD i)
        ∧ OnlyRegs [] s t))
  ∧ ∀ (s : State) (n tm k : Nat) (w x : PendWrite), (engOf s n).writes.filter (fun w => w.due ≤ tm) = [w, x] → w.dest = .v k → x.dest = .v k →
      w.due = x.due → w.lanes &&& x.lanes ≠ 0 →
      Reaches (exec (.registerWriteback n tm) s) (fun t => regBit t (pgMe n) Off.FAULT_STAT 12 = true
        ∧ ∀ i < 4, x.lanes.getLsbD i = true → lane (regV (engOf t n) k) i = lane x.value i)

/-- In the first ME cycle of a valid window a running engine with no open partition opens it with every V, A and Q register, the loops and the redirects cleared, and executes the entry bundle if the tenant ran at the latest tick edge; otherwise the partition issues nothing. WINDOW_FENCE at or after the window's last cycle ends it, and a partition that still issues there without a PEND is a violator with OVERRUN. PARTITION_TABLE_APPLY of a written table at a tick edge or on an idle engine puts its valid entries in force if they pass the checks, with an interrupt; otherwise the table stays, PTAB_BAD is set and FAULT_INFO names the failing entry. (03_marionette_engines.md R88; 03_marionette_engines.md R89; 03_marionette_engines.md R90; 03_marionette_engines.md R91; 03_marionette_engines.md R92; 03_marionette_engines.md R94; 03_marionette_engines.md R98) -/
def Obligations.partition_windows : Prop :=
  (∀ (s s0 : State) (n tm p : Nat), settle n (tm - 1) (advance s tm) = s0 → windowAt (engOf s0 n) (cycleOf s0 tm) = some p →
      (engOf s0 n).running = true → (engOf s0 n).part = none →
      Reaches (exec (.partitionWindowOpen n tm) s) (fun t => (engOf t n).part = some p ∧ (engOf t n).v = [] ∧ (engOf t n).a = [] ∧ (engOf t n).q = []
        ∧ (engOf t n).loops = [] ∧ (engOf t n).redirects = [] ∧ (engOf t n).writes = []
        ∧ (engOf t n).lastPc = if s.tick.runners.contains (partEntry s0 n p).tid then some (partEntry s0 n p).entry else none))
  ∧ (∀ (s : State) (n tm p : Nat), (engOf s n).part = some p → min (partEntry s n p).stop (windowEnd s) ≤ cycleOf s tm →
      Reaches (exec (.windowFence n tm) s) (fun t => (engOf t n).part = none ∧ (engOf t n).lastPc = none
        ∧ ((engOf s n).pendAt = none → (engOf s n).muted = false → 16 * p ∉ (engOf s n).violators →
            regBit t (pgMe n) Off.FAULT_STAT 0 = true ∧ 16 * p ∈ (engOf t n).violators)
        ∧ ((engOf s n).pendAt ≠ none → OnlyRegs [] s t) ∧ MemSame s t))
  ∧ (∀ (s : State) (n tm : Nat), (engOf s n).tablePend = true → n < numEngines s.variant → stringIdle s n = true → firstBad s (writtenTable s n) [] = none →
      Reaches (exec (.partitionTableApply n tm) s) (fun t => (engOf t n).table = writtenTable s n ∧ (engOf t n).tablePend = false
        ∧ regBit t (pgMe n) Off.IRQ_STAT 2 = true ∧ MemSame s t))
  ∧ ∀ (s : State) (n tm p : Nat), (engOf s n).tablePend = true → n < numEngines s.variant → stringIdle s n = true → firstBad s (writtenTable s n) [] = some p →
      Reaches (exec (.partitionTableApply n tm) s) (fun t => (engOf t n).table = (engOf s n).table ∧ regBit t (pgMe n) Off.ERR_STAT 8 = true
        ∧ regFld t (pgMe n) Off.FAULT_INFO 20 4 = p % 16 ∧ MemSame s t)

/-- With one transfer in flight: CLUSTER_BANK_ACCESS of a cluster-memory write that is due writes its 64 bytes at its remote address and nowhere else and ends it, and that of a read takes the 64 bytes there; CLRD_LANDING and HRD_LANDING leave the 64 bytes as a store to DMEM that is visible one ME cycle later; OVERLAY_LANDING writes the 64 bytes of an IMEM line and nothing else. SLOT_TABLE_APPLY on a quiet cluster puts the written tables in force. SCRUB_ROW of an idle unit that may scrub leaves no correctable error in the row of any bank and changes no memory. (02_tick_contract.md R52; 02_tick_contract.md R58; 02_tick_contract.md R60; 03_marionette_engines.md R83; 03_marionette_engines.md R84; 03_marionette_engines.md R85; 03_marionette_engines.md R97) -/
def Obligations.transfers_complete : Prop :=
  (∀ (s : State) (x : Xfer) (c tm d : Nat), StateInv s → s.xfers = [x] → x.kind = .clwr → x.engine / 4 = c → x.srcDue = none → x.bankDue = some d → d ≤ tm →
      x.live = true → x.localOk = true → x.remoteOk = true → x.lost = false → x.data.length = 64 →
      Reaches (exec (.clusterBankAccess c tm) s) (fun t => t.xfers = [] ∧ MemOutside (clmPhys c x.remote) 64 s t
        ∧ (∀ i < 64, Memory.read t.mem (clmPhys c x.remote + i) = x.data[i]?) ∧ OnlyRegs [] s t))
  ∧ (∀ (s : State) (x : Xfer) (c tm d : Nat), s.xfers = [x] → x.kind = .clrd ∨ x.kind = .ovl → x.engine / 4 = c → x.srcDue = none → x.bankDue = some d → d ≤ tm →
      x.live = true → x.remoteOk = true → hasUe s (clmPhys c x.remote) 64 = false →
      Reaches (exec (.clusterBankAccess c tm) s) (fun t => t.xfers = [{ x with bankDue := none, data := readMem s (clmPhys c x.remote) 64 }] ∧ MemSame s t))
  ∧ (∀ (s : State) (x : Xfer) (n tm : Nat), s.xfers = [x] → x.kind = .clrd → x.engine = n → x.srcDue = none → x.bankDue = none → x.landDue ≤ tm →
      x.live = true → x.localOk = true → x.lost = false →
      Reaches (exec (.clrdLanding n tm) s) (fun t => t.xfers = []
        ∧ (engOf t n).stores = (engOf s n).stores ++ [⟨x.landDue + 1, cellsOf (dmemPhys n x.loc) x.data⟩] ∧ OnlyRegs [] s t ∧ MemSame s t))
  ∧ (∀ (s : State) (x : Xfer) (n tm : Nat), s.xfers = [x] → x.kind = .hrd → x.engine = n → x.landDue ≤ tm →
      x.live = true → x.localOk = true → x.lost = false →
      Reaches (exec (.hrdLanding n tm) s) (fun t => t.xfers = []
        ∧ (engOf t n).stores = (engOf s n).stores ++ [⟨x.landDue + 1, cellsOf (dmemPhys n x.loc) x.data⟩] ∧ OnlyRegs [] s t ∧ MemSame s t))
  ∧ (∀ (s : State) (x : Xfer) (n tm : Nat), StateInv s → s.xfers = [x] → x.kind = .ovl → x.engine = n → x.srcDue = none → x.bankDue = none → x.landDue ≤ tm →
      x.live = true → x.localOk = true → x.data.length = 64 →
      Reaches (exec (.overlayLanding n tm) s) (fun t => t.xfers = [] ∧ MemOutside (imemPhys n (64 * x.loc)) 64 s t
        ∧ (∀ i < 64, Memory.read t.mem (imemPhys n (64 * x.loc) + i) = x.data[i]?) ∧ OnlyRegs [] s t))
  ∧ (∀ (s : State) (c tm : Nat), (tget Cluster.init s.clu c).tabPend = true → clusterQuiet (advance s tm) c tm = true →
      Reaches (exec (.slotTableApply c tm) s) (fun t => (tget Cluster.init t.clu c).tabPend = false
        ∧ (∀ k < 4, reg t (pgClu c) (Off.SLOT_ACT_LO + 8 * k) = reg s (pgClu c) (Off.SLOT_LO + 8 * k)
            ∧ reg t (pgClu c) (Off.SLOT_ACT_HI + 8 * k) = reg s (pgClu c) (Off.SLOT_HI + 8 * k)) ∧ MemSame s t))
  ∧ (∀ (s : State) (n row tm : Nat), n < numEngines s.variant → regBit s (pgMe n) Off.CTRL 3 = true → engineQuiet (advance s tm) n tm = true → row < 1536 →
      Reaches (exec (.scrubRow n row tm) s) (fun t => (∀ b < 4, ∀ w ∈ eccWords (dmemPhys n (0x18000 * b + 64 * row)) 64, w ∉ t.eccCe)
        ∧ t.eccUe = s.eccUe ∧ MemSame s t))
  ∧ ∀ (s : State) (c row tm : Nat), c < numClusters s.variant → regBit s (pgClu c) Off.CTRL 2 = true → clusterQuiet (advance s tm) c tm = true → row < 8192 →
      Reaches (exec (.scrubRow (16 + c) row tm) s) (fun t => (∀ b < 4, ∀ w ∈ eccWords (clmPhys c (0x80000 * b + 64 * row)) 64, w ∉ t.eccCe)
        ∧ t.eccUe = s.eccUe ∧ MemSame s t)

/-- An access to engine or cluster memory that exists and is powered waits, admitted while its tenant has room, with QUEUE_FULL where it has none; one to a place that does not exist is answered with an access error. FABRIC_ACCESS_SERVED of an admitted write whose place is free stores its bytes and no others and answers done; of a read it answers the bytes that memory holds and leaves memory as everything due by then leaves it. (02_tick_contract.md R54; 02_tick_contract.md R56; 03_marionette_engines.md R81; 01_register_pages.md R13; 01_register_pages.md R14; 12_tenants.md R293; 12_tenants.md R294) -/
def Obligations.fabric_accesses : Prop :=
  (∀ (s : State) (tid addr len tm : Nat) (w : Option (List Byte)) (pl : FabricPlace), (tenOf s tid).state ≠ .resetting → (w.isSome && jobRegion s addr len) = false →
      fabricPlace s addr len = some pl →
      Reaches (exec (.fabricEngineAccess tid addr len w tm) s) (fun t =>
        t.fabric = s.fabric ++ [⟨tid, addr, len, w, tm, decide (fabricOcc s tid < (tenOf s tid).depth.getD 1 0)⟩]
        ∧ (fabricOcc s tid < (tenOf s tid).depth.getD 1 0 → OnlyRegs [] s t)
        ∧ ((tenOf s tid).depth.getD 1 0 ≤ fabricOcc s tid → regBit t (pgTen tid) Off.TEVT 6 = true) ∧ MemSame s t))
  ∧ (∀ (s : State) (tid addr len tm : Nat) (w : Option (List Byte)), fabricPlace s addr len = none →
      Reaches (exec (.fabricEngineAccess tid addr len w tm) s) (fun t => t.resp = .error ∧ t.fabric = s.fabric ∧ OnlyRegs [] s t ∧ MemSame s t))
  ∧ (∀ (s u : State) (i tm : Nat) (f : FabricAccess) (pl : FabricPlace) (bs : List Byte), s.fabric[i]? = some f → fabricPlace s f.addr f.len = some pl →
      f.admitted = true → f.write = some bs → bs.length = f.len → fabricFree (advance s tm) pl tm = true →
      settlePlace pl tm (admitFabric { advance s tm with fabric := s.fabric.eraseIdx i }) = u → StateInv u →
      Reaches (exec (.fabricAccessServed i tm) s) (fun t => t.resp = .done ∧ MemOutside f.addr f.len u t
        ∧ ∀ k < f.len, Memory.read t.mem (f.addr + k) = bs[k]?))
  ∧ ∀ (s u : State) (i tm : Nat) (f : FabricAccess) (pl : FabricPlace), s.fabric[i]? = some f → fabricPlace s f.addr f.len = some pl →
      f.admitted = true → f.write = none → fabricFree (advance s tm) pl tm = true →
      settlePlace pl tm (admitFabric { advance s tm with fabric := s.fabric.eraseIdx i }) = u →
      Reaches (exec (.fabricAccessServed i tm) s) (fun t => t.resp = .bytes (readMem u f.addr f.len) ∧ MemSame u t)

/-- WRITE of the subscription window commits the staged entry whole where its checks pass, with counters and arrival records clear if it becomes enabled, and leaves every other entry; otherwise it shows the result code, sets the error flag and changes no entry. READ stages the selected entry. HOP_CFG_WRITE of a lag from 1 to 16 with no tenant running and every half-cycle entry in reach stores it; FRANGE_WRITE of a range in order stores it, and any other sets RANGE_BAD; ARR_CLR clears the four arrival maxima. (06_hopper_ingest.md R168; 06_hopper_ingest.md R169; 06_hopper_ingest.md R178; 06_hopper_ingest.md R183; 06_hopper_ingest.md R184; 06_hopper_ingest.md R185; 02_tick_contract.md R50; 12_tenants.md R302) -/
def Obligations.hopper_configuration : Prop :=
  (∀ (s : State) (tid e : Nat), judge s tid pgHop1 Off.HSUB_CMD = .ok → regFld s pgHop1 Off.HSUB_SEL 0 9 = e → (tenOf s (subTid (subOf s e))).job = none →
      subResult s e (stagedSub s) = 0 →
      Reaches (exec (.hopSubWrite tid) s) (fun t => { subOf t e with counters := [0, 0, 0, 0, 0, 0], simStored := false } = stagedSub s
        ∧ (∀ f, f ≠ e → subOf t f = subOf s f) ∧ reg t pgHop1 Off.HSUB_RESULT = 0
        ∧ (subEn (stagedSub s) = true → subEn (subOf s e) = false → (subOf t e).counters = [0, 0, 0, 0, 0, 0]
            ∧ ∀ j < subSlots (stagedSub s), ∀ k, recAt t.hop (subSlot (stagedSub s) + j) k = none)
        ∧ OnlyRegs [(pgHop1, Off.HSUB_RESULT)] s t ∧ MemSame s t))
  ∧ (∀ (s : State) (tid e r : Nat), judge s tid pgHop1 Off.HSUB_CMD = .ok → regFld s pgHop1 Off.HSUB_SEL 0 9 = e → (tenOf s (subTid (subOf s e))).job = none →
      subResult s e (stagedSub s) = r → r ≠ 0 →
      Reaches (exec (.hopSubWrite tid) s) (fun t => t.hop = s.hop ∧ reg t pgHop1 Off.HSUB_RESULT = word r ∧ regBit t pgHop0 Off.ERR_STAT 9 = true
        ∧ OnlyRegs [(pgHop1, Off.HSUB_RESULT), (pgHop0, Off.ERR_STAT), (pgHop0, Off.ERR_INFO), (pgHop0, Off.IRQ_STAT)] s t ∧ MemSame s t))
  ∧ (∀ (s : State) (tid e : Nat), judge s tid pgHop1 Off.HSUB_CMD = .ok → regFld s pgHop1 Off.HSUB_SEL 0 9 = e →
      Reaches (exec (.hopSubRead tid) s) (fun t => reg t pgHop1 Off.SUB_DA_LO = (subOf s e).daLo ∧ reg t pgHop1 Off.SUB_DA_HI = (subOf s e).daHi
        ∧ reg t pgHop1 Off.SUB_VLAN = (subOf s e).vlan ∧ reg t pgHop1 Off.SUB_CONFREV = (subOf s e).confRev ∧ reg t pgHop1 Off.SUB_LAYOUT = (subOf s e).layout
        ∧ reg t pgHop1 Off.SUB_FRAME = (subOf s e).frame ∧ reg t pgHop1 Off.SUB_POLICY = (subOf s e).policy
        ∧ reg t pgHop1 Off.SUB_SVID_LEN = (subOf s e).svidLen ∧ (∀ i < 16, reg t pgHop1 (Off.SVID + 4 * i) = (subOf s e).svid.getD i 0)
        ∧ RegsOutside [pgHop1] s t ∧ t.hop = s.hop ∧ MemSame s t))
  ∧ (∀ (s : State) (tid : Nat) (d : Word), judge s tid pgHop0 Off.HOP_CFG = .ok → 1 ≤ fld d 0 5 → fld d 0 5 ≤ 16 → (∀ t, 1 ≤ t → t ≤ 15 → tenRunning s t = false) →
      (∀ x ∈ s.hop.subs, subEn x.2 = true → subSubst x.2 = 2 → subHalf x.2 ≤ 60 - fld d 0 5) →
      Reaches (exec (.hopCfgWrite tid d) s) (fun t => lagOf t = fld d 0 5 ∧ OnlyRegs [(pgHop0, Off.HOP_CFG)] s t ∧ MemSame s t))
  ∧ (∀ (s : State) (tid n : Nat) (d : Word), 0 < n → n < 16 → judge s tid pgHop2 (Off.FRANGE + 4 * n) = .ok → rangeBad s n (fld d 0 12) (fld d 16 13) = false →
      Reaches (exec (.frangeWrite tid n d) s) (fun t => frameRange t n = (fld d 0 12, fld d 16 13) ∧ OnlyRegs [(pgHop2, Off.FRANGE + 4 * n)] s t ∧ MemSame s t))
  ∧ (∀ (s : State) (tid n : Nat) (d : Word), 0 < n → n < 16 → judge s tid pgHop2 (Off.FRANGE + 4 * n) = .ok → rangeBad s n (fld d 0 12) (fld d 16 13) = true →
      Reaches (exec (.frangeWrite tid n d) s) (fun t => t.resp = .error ∧ frameRange t n = frameRange s n ∧ regBit t pgHop2 Off.ERR_STAT 10 = true))
  ∧ ∀ (s : State) (tid : Nat), judge s tid pgHop3 Off.CTRL = .ok →
      Reaches (exec (.arrClr tid) s) (fun t => (∀ p < 4, reg t pgHop3 (Off.ARR_MAX + 4 * p) = 0)
        ∧ OnlyRegs ((List.range 4).map (fun p => (pgHop3, Off.ARR_MAX + 4 * p))) s t ∧ MemSame s t)

/-- SV_FRAME of an enabled Hopper whose frame holds one ASDU that matches an enabled entry, passes its checks, names a tick interval that is neither sealed nor more than two ticks ahead and has no sample yet: its channels, with the quality's 14 bits, stand in the ring entry of its slot and tick, its arrival record is present for that tick, and the frame, the ASDU and the entry's count rise by one. A frame with one ASDU that no enabled entry matches only counts: RX_FRAMES and UNMATCHED rise, and the ring stays. (06_hopper_ingest.md R170; 06_hopper_ingest.md R171; 06_hopper_ingest.md R172; 06_hopper_ingest.md R173; 06_hopper_ingest.md R174; 06_hopper_ingest.md R181) -/
def Obligations.hopper_samples : Prop :=
  (∀ (s : State) (port tm da appid stamp lan e k sl : Nat) (src : Nat) (frame p : List Byte) (tag : Option Nat) (sim : Bool) (a : Asdu) (x : HopSub),
      regBit s pgHop0 Off.CTRL 0 = true → port < numPorts s.variant → etherHeader frame = (da, tag, src, 0x88BA, p) → parseSv p = (appid, sim, .ok [a]) →
      (takeHanded port frame tm s).1 = (stamp, lan) → matchSub s da tag appid a.svid = some (e, x) → (tenOf s (subTid x)).state ≠ .resetting →
      realTimeMode s = true → asduReason x port sim a = 0 → (tbOf s 0).state ≠ .stopped →
      sl = subSlot x + a.smpCnt % (if subRate x = 2 then 3 else 1) →
      (k : Int) = stampTick s stamp - (let b : Nat := (stampTick s stamp % rateHz s + rateHz s - a.smpCnt / (if subRate x = 2 then 3 else 1)) % rateHz s
        if rateHz s / 2 < b then (b : Int) - rateHz s else b) →
      (∀ n, s.hop.lastSealed = some n → n < k) → k ≤ nowTick (advance s tm) + 2 → presentAt s.hop sl k = false →
      Reaches (exec (.svFrame port frame tm) s) (fun t =>
        tget [] t.hop.ring (64 * sl + k % 64) = (List.range (subNch x)).map (fun c => ((sampleOf a.data c).1, (sampleOf a.data c).2 &&& 0x3FFF))
        ∧ (∃ r, recAt t.hop sl k = some r ∧ r.port = port ∧ r.lan = lan ∧ r.sim = sim ∧ r.synch = a.smpSynch)
        ∧ (∀ i, i ≠ 64 * sl + k % 64 → tget [] t.hop.ring i = tget [] s.hop.ring i)
        ∧ (subOf t e).counters = (subOf s e).counters.modify 0 (· + 1)
        ∧ reg t pgHop0 Off.RX_FRAMES = reg s pgHop0 Off.RX_FRAMES + 1 ∧ reg t pgHop0 Off.RX_ASDU = reg s pgHop0 Off.RX_ASDU + 1 ∧ MemSame s t))
  ∧ ∀ (s : State) (port tm da appid : Nat) (src : Nat) (frame p : List Byte) (tag : Option Nat) (sim : Bool) (a : Asdu),
      regBit s pgHop0 Off.CTRL 0 = true → port < numPorts s.variant → etherHeader frame = (da, tag, src, 0x88BA, p) → parseSv p = (appid, sim, .ok [a]) →
      matchSub s da tag appid a.svid = none →
      Reaches (exec (.svFrame port frame tm) s) (fun t => reg t pgHop0 Off.UNMATCHED = reg s pgHop0 Off.UNMATCHED + 1
        ∧ reg t pgHop0 Off.RX_FRAMES = reg s pgHop0 Off.RX_FRAMES + 1 ∧ t.hop = s.hop ∧ MemSame s t)

/-- SEAL_POINT at ME cycle 2,400 or later of a tick that has not been sealed decides the frame of sample tick n − L, after which that tick is sealed and no register or memory has changed; SEAL_COMPLETE makes it the latest frame in the buffer of its parity. A slot with a present sample shows its ring values; without one, policy HOLD within the hold count shows the values of the latest present sample of the last 15 ticks, policy HALF within the count the negated values of the sample half a cycle before, and every other slot value 0 with quality invalid. (06_hopper_ingest.md R164; 06_hopper_ingest.md R175; 06_hopper_ingest.md R176; 02_tick_contract.md R47; 02_tick_contract.md R50) -/
def Obligations.seal_and_substitution : Prop :=
  (∀ (s : State) (tm : Nat), s.tick.edgeAt.isSome = true → s.tick.sealedTick = false → 2400 ≤ cycleOf s (max s.now tm) → lagOf s ≤ s.tick.count → s.now ≤ tm →
      Reaches (exec (.sealPoint tm) s) (fun t => (∃ f, t.hop.forming = some f ∧ f.tick = some (s.tick.count - lagOf s))
        ∧ t.hop.lastSealed = some (s.tick.count - lagOf s) ∧ t.tick.sealedTick = true ∧ t.hop.ring = s.hop.ring ∧ t.hop.recs = s.hop.recs
        ∧ OnlyRegs [] s t ∧ MemSame s t))
  ∧ (∀ (s : State) (tm k : Nat) (f : HopFrame), s.hop.forming = some f → f.tick = some k →
      Reaches (exec (.sealComplete tm) s) (fun t => t.hop.forming = none ∧ t.hop.bufOdd = decide (k % 2 = 1) ∧ (latestFrame t.hop).tick = some k
        ∧ (latestFrame t.hop).status = f.status))
  ∧ (∀ (s : State) (x : HopSub) (sl k : Nat), regBit s pgHop0 Off.CTRL 0 = true → presentAt s.hop sl k = true →
      (decideSlot s x sl k).1 = 0 ∧ (decideSlot s x sl k).2.2.map (·.1) = (tget [] s.hop.ring (64 * sl + k % 64)).map (·.1))
  ∧ (∀ (s : State) (x : HopSub) (sl k c : Nat), regBit s pgHop0 Off.CTRL 0 = true → presentAt s.hop sl k = false → 1 ≤ c → c ≤ 15 → c ≤ k →
      presentAt s.hop sl (k - c) = true → (∀ d, 1 ≤ d → d < c → presentAt s.hop sl (k - d) = false) →
      (subSubst x = 1 → c ≤ subHold x →
        (decideSlot s x sl k).1 = 1 ∧ (decideSlot s x sl k).2.2.map (·.1) = (tget [] s.hop.ring (64 * sl + (k - c) % 64)).map (·.1))
      ∧ (subSubst x = 2 → c ≤ subHold x → subHalf x ≤ k → presentAt s.hop sl (k - subHalf x) = true →
        (decideSlot s x sl k).1 = 2 ∧ (decideSlot s x sl k).2.2.map (·.1) = (tget [] s.hop.ring (64 * sl + (k - subHalf x) % 64)).map (fun v => satNeg v.1))
      ∧ (subSubst x = 0 ∨ subHold x < c →
        (decideSlot s x sl k).1 = 3 ∧ (decideSlot s x sl k).2.2.length = subNch x
          ∧ ∀ v ∈ (decideSlot s x sl k).2.2, v.1 = 0 ∧ fld v.2 0 2 = 1 ∧ bit v.2 31 = true))

/-- CHAIN_ENABLE of a disabled chain that passes its checks enables it with no input and no output; one that fails them is refused with its result shown. CHAIN_SYNC empties the inputs of the chain. SWAP with nothing against it makes the swap pending on an enabled chain, and changes the bank in force at once on a disabled one; otherwise it keeps the bank and shows why. SWAP_START begins the fade at the output tick that is due, and FADE_END after its last step puts the other bank in force. (07_decimation_chain.md R191; 07_decimation_chain.md R195; 07_decimation_chain.md R196; 07_decimation_chain.md R197; 07_decimation_chain.md R199; 12_tenants.md R302) -/
def Obligations.decimation_commands : Prop :=
  (∀ (s : State) (tid c : Nat) (d : Word), c < 64 → judge s tid pgDec0 (Off.DCH_CTRL + 0x20 * c) = .ok → (tenOf s (chainTid s c)).job = none →
      bit d 0 = true → bit d 2 = false → fld d 4 3 ≠ 7 → chainEn s c = false → chainResult s c = 0 →
      Reaches (exec (.chainEnable tid c d) s) (fun t => chainEn t c = true ∧ (chainOf t c).inputs = [] ∧ (chainOf t c).count = 0
        ∧ (chainOf t c).out = none ∧ (chainOf t c).firstDone = false ∧ (chainOf t c).result = 0 ∧ MemSame s t))
  ∧ (∀ (s : State) (tid c r : Nat) (d : Word), c < 64 → judge s tid pgDec0 (Off.DCH_CTRL + 0x20 * c) = .ok → (tenOf s (chainTid s c)).job = none →
      bit d 0 = true → fld d 4 3 ≠ 7 → chainEn s c = false → chainResult s c = r → r ≠ 0 →
      Reaches (exec (.chainEnable tid c d) s) (fun t => t.resp = .error ∧ chainEn t c = false ∧ (chainOf t c).result = r
        ∧ regBit t pgDec0 Off.ERR_STAT 9 = true ∧ regFld t pgDec0 (Off.DCH_STAT + 0x20 * c) 24 3 = r % 8))
  ∧ (∀ (s : State) (tid c : Nat), c < 64 → judge s tid pgDec0 (Off.DCH_CTRL + 0x20 * c) = .ok → (tenOf s (chainTid s c)).job = none →
      fld (dch s c Off.DCH_CTRL) 4 3 ≠ 7 →
      Reaches (exec (.chainSync tid c) s) (fun t => (chainOf t c).inputs = [] ∧ (chainOf t c).count = 0 ∧ (chainOf t c).firstDone = false
        ∧ (chainOf t c).fade = none ∧ chainEn t c = chainEn s c ∧ MemSame s t))
  ∧ (∀ (s : State) (tid c : Nat), c < 64 → judge s tid pgDec0 (Off.DCH_CTRL + 0x20 * c) = .ok → (tenOf s (chainTid s c)).job = none →
      fld (dch s c Off.DCH_CTRL) 4 3 ≠ 7 → swapWhy s c = 0 →
      Reaches (exec (.swap tid c) s) (fun t => (chainEn s c = true → (chainOf t c).swapPending = true ∧ (chainOf t c).act = (chainOf s c).act)
        ∧ (chainEn s c = false → (chainOf t c).act = 1 - (chainOf s c).act) ∧ MemSame s t))
  ∧ (∀ (s : State) (tid c : Nat), c < 64 → judge s tid pgDec0 (Off.DCH_CTRL + 0x20 * c) = .ok → (tenOf s (chainTid s c)).job = none →
      fld (dch s c Off.DCH_CTRL) 4 3 ≠ 7 → swapWhy s c ≠ 0 →
      Reaches (exec (.swap tid c) s) (fun t => (chainOf t c).act = (chainOf s c).act ∧ (chainOf t c).swapPending = (chainOf s c).swapPending
        ∧ (chainOf t c).why = swapWhy s c ∧ regBit t pgDec0 (Off.DCH_STAT + 0x20 * c) 31 = true))
  ∧ (∀ (s : State) (c tm k : Nat) (f : HopFrame), c < 64 → s.hop.forming = some f → f.tick = some k → chainWorks s c = true → (chainOf s c).skip = false →
      (chainOf s c).prev = none ∨ (chainOf s c).prev = some (k - 1) ∧ 0 < k → (chainOf s c).fade = none → swapDue s c k = true →
      Reaches (exec (.swapStart c tm) s) (fun t => (chainOf t c).fade = some ⟨fld (dch s c Off.DCH_CTRL) 4 3, 0⟩ ∧ (chainOf t c).swapPending = false ∧ MemSame s t))
  ∧ ∀ (s : State) (c tm : Nat) (f : Fade), c < 64 → (chainOf s c).fade = some f → 2 ^ (f.fade + 4) ≤ f.step →
      Reaches (exec (.fadeEnd c tm) s) (fun t => (chainOf t c).act = 1 - (chainOf s c).act ∧ (chainOf t c).fade = none ∧ MemSame s t)

/-- A fade step starts at the old bank's result, ends exactly at the new bank's, and never leaves the interval between them; a filter whose coefficients sum to 2^30 passes a constant input unchanged while its taps lie within its inputs; an output is good only if every input is, and invalid if any input is. (07_decimation_chain.md R188; 07_decimation_chain.md R189; 07_decimation_chain.md R195) -/
def Obligations.decimation_arithmetic : Prop :=
  (∀ (old new : Word) (fade : Nat), fadeValue old new fade 0 = old ∧ fadeValue old new fade (2 ^ (fade + 4)) = new)
  ∧ (∀ (old new : Word) (fade j : Nat), j ≤ 2 ^ (fade + 4) →
      min old.toInt new.toInt ≤ (fadeValue old new fade j).toInt ∧ (fadeValue old new fade j).toInt ≤ max old.toInt new.toInt)
  ∧ (∀ (s : State) (c b : Nat) (v q : Word) (xs : List (Word × Word)), bankTaps s c b ≤ xs.length → (∀ x ∈ xs, x = (v, q)) →
      (List.range (bankTaps s c b)).foldl (fun a i => a + (coefOf s c b i).toInt) 0 = (2 ^ 30 : Int) → fir s c b xs = (v, false))
  ∧ ∀ (qs : List Word), (worstValidity qs = 0 ↔ ∀ q ∈ qs, fld q 0 2 = 0) ∧ (worstValidity qs = 1 ↔ ∃ q ∈ qs, fld q 0 2 = 1 ∨ fld q 0 2 = 2)

/-- A PUB_POINT from 4,096 to the latest publish point is stored and waits for the next tick edge, and one outside it is refused with PUB_RANGE; a lane write that passes its checks stores the fields of its word and waits for the next tick edge, and one that fails is refused with LANE_BAD; at the tick edge what waits comes in force, and every block of a lane that becomes enabled reads value 0, quality 0x8000_0001. SLACK_CLR sets SLACK_MIN to 0xF_FFFF. Nothing else of the registers and memory changes. (02_tick_contract.md R49; 08_carafe_publication.md R201; 08_carafe_publication.md R202; 08_carafe_publication.md R222; 12_tenants.md R302) -/
def Obligations.publish_point_and_lanes : Prop :=
  (∀ (s : State) (tid : Nat) (d : Word), judge s tid pgCar0 Off.PUB_POINT = .ok → 4096 ≤ fld d 0 20 → fld d 0 20 ≤ latestP s →
      Reaches (exec (.pubPointWrite tid d) s) (fun t => reg t pgCar0 Off.PUB_POINT = word (fld d 0 20) ∧ t.car = { s.car with pubPend := true }
        ∧ OnlyRegs [(pgCar0, Off.PUB_POINT)] s t ∧ MemSame s t))
  ∧ (∀ (s : State) (tid : Nat) (d : Word), judge s tid pgCar0 Off.PUB_POINT = .ok → fld d 0 20 < 4096 ∨ latestP s < fld d 0 20 →
      Reaches (exec (.pubPointWrite tid d) s) (fun t => t.resp = .error ∧ regBit t pgCar0 Off.ERR_STAT 8 = true ∧ t.car = s.car
        ∧ OnlyRegs [(pgCar0, Off.ERR_STAT), (pgCar0, Off.ERR_INFO), (pgCar0, Off.IRQ_STAT)] s t ∧ MemSame s t))
  ∧ (∀ (s : State) (tm : Nat), s.car.pubPend = true → s.tick.edgeAt = some tm → s.now ≤ tm →
      Reaches (exec (.pubPointApply tm) s) (fun t => t.car = { s.car with pubPoint := regFld s pgCar0 Off.PUB_POINT 0 20, pubPend := false } ∧ OnlyRegs [] s t ∧ MemSame s t))
  ∧ (∀ (s : State) (tid off : Nat) (d : Word), 0x800 ≤ off → off < 0x1000 → off % 4 = 0 → judge s tid pgCar0 off = .ok →
      (tenOf s (laneTid (laneWritten s ((off - 0x800) / 8)))).job = none →
      laneBad s ((off - 0x800) / 8) (laneWritten s ((off - 0x800) / 8)) (laneAfter off d (laneWritten s ((off - 0x800) / 8))) = false →
      Reaches (exec (.laneWrite tid off d) s) (fun t => reg t pgCar0 off = (if off % 8 = 0 then d &&& 0x1FFF0FFF else d &&& 0x8000013F)
        ∧ t.car = { s.car with lanesPend := true } ∧ OnlyRegs [(pgCar0, off)] s t ∧ MemSame s t))
  ∧ (∀ (s : State) (tid off : Nat) (d : Word), 0x800 ≤ off → off < 0x1000 → off % 4 = 0 → judge s tid pgCar0 off = .ok →
      (tenOf s (laneTid (laneWritten s ((off - 0x800) / 8)))).job = none →
      laneBad s ((off - 0x800) / 8) (laneWritten s ((off - 0x800) / 8)) (laneAfter off d (laneWritten s ((off - 0x800) / 8))) = true →
      Reaches (exec (.laneWrite tid off d) s) (fun t => t.resp = .error ∧ regBit t pgCar0 Off.ERR_STAT 9 = true ∧ t.car = s.car
        ∧ OnlyRegs [(pgCar0, Off.ERR_STAT), (pgCar0, Off.ERR_INFO), (pgCar0, Off.IRQ_STAT)] s t ∧ MemSame s t))
  ∧ (∀ (s : State) (tm : Nat), s.car.lanesPend = true → s.tick.edgeAt = some tm → s.now ≤ tm →
      Reaches (exec (.laneApply tm) s) (fun t => t.car.lanes = writtenLanes s ∧ t.car.lanesPend = false
        ∧ (∀ i l, (i, l) ∈ writtenLanes s → (∀ o ∈ s.car.lanes, o.1 ≠ i) → ∀ b e, laneBase l ≤ b → b < laneLimit l → e < 8 →
            tableEntry t.car.buf0 b e = (0, 0x80000001) ∧ tableEntry t.car.buf1 b e = (0, 0x80000001))
        ∧ OnlyRegs [] s t ∧ MemSame s t))
  ∧ ∀ (s : State) (tid : Nat), judge s tid pgCar0 Off.CTRL = .ok →
      Reaches (exec (.slackClr tid) s) (fun t => reg t pgCar0 Off.SLACK_MIN = 0xFFFFF ∧ t.car = s.car ∧ OnlyRegs [(pgCar0, Off.SLACK_MIN)] s t ∧ MemSame s t)

/-- DEPOSIT_ACCEPT of one due deposit: into a lane of its tenant before the flip with a free place it stands last in its engine's port; into a block that its tenant does not own it is dropped with OWNER, VIOL_COUNT and the tenant's event; after the flip it is late and LATE_COUNT rises; at a full port it is dropped and OVF_COUNT rises. CARAFE_DRAIN takes the oldest block of the next non-empty port in ascending order after the one served last, at most one in a fabric cycle. (02_tick_contract.md R62; 02_tick_contract.md R63; 08_carafe_publication.md R203; 08_carafe_publication.md R204; 08_carafe_publication.md R222; 08_carafe_publication.md R223) -/
def Obligations.deposits_and_drain : Prop :=
  (∀ (s : State) (n tm : Nat) (x : Xfer), n < 16 → x.tid < 16 → (∀ y ∈ s.xfers, y.engine = n → y.srcDue = none) →
      s.xfers.filter (fun y => y.engine = n && y.kind = .dep && y.landDue ≤ tm) = [x] → x.live = true → x.localOk = true → x.lost = false →
      Reaches (exec (.depositAccept n tm) s) (fun t =>
        (x.remote < 4096 → ownsBlock s x.tid 0 x.remote = true → s.car.flipped = false → portFull s n = false →
          tget [] t.car.ports n = tget [] s.car.ports n ++ [⟨some x.remote, x.data, x.tid, x.issued⟩] ∧ (∀ m, m ≠ n → tget [] t.car.ports m = tget [] s.car.ports m)
            ∧ t.car.drained = s.car.drained ∧ reg t pgCar0 Off.CAR_FAULT = reg s pgCar0 Off.CAR_FAULT)
        ∧ (ownsBlock s x.tid 0 x.remote = false → t.car.ports = s.car.ports ∧ regBit t pgCar0 Off.CAR_FAULT 2 = true
            ∧ reg t pgCar0 Off.VIOL_COUNT = reg s pgCar0 Off.VIOL_COUNT + 1 ∧ regBit t pgCar1 (Off.CTEN_EVT + 4 * x.tid) 2 = true)
        ∧ (x.remote < 4096 → ownsBlock s x.tid 0 x.remote = true → s.car.flipped = true → t.car.ports = s.car.ports ∧ regBit t pgCar0 Off.CAR_FAULT 0 = true
            ∧ reg t pgCar0 Off.LATE_COUNT = reg s pgCar0 Off.LATE_COUNT + 1)
        ∧ (x.remote < 4096 → ownsBlock s x.tid 0 x.remote = true → s.car.flipped = false → portFull s n = true → t.car.ports = s.car.ports
            ∧ regBit t pgCar0 Off.CAR_FAULT 1 = true ∧ reg t pgCar0 Off.OVF_COUNT = reg s pgCar0 Off.OVF_COUNT + 1 ∧ laneIdx s x.remote ∈ t.car.badLanes)
        ∧ MemSame s t))
  ∧ (∀ (s : State) (tm p k : Nat) (b : BlockPlace) (rest : List BlockPlace), s.car.lastDrainAt ≠ some (tm / 2) → nextPort s = some p →
      tget [] s.car.ports p = b :: rest → b.block = some k →
      Reaches (exec (.carafeDrain tm) s) (fun t => tget [] t.car.ports p = rest ∧ tget [] t.car.drained k = b.data ∧ t.car.lastServed = p
        ∧ t.car.lastDrainAt = some (tm / 2) ∧ (∀ q, q ≠ p → tget [] t.car.ports q = tget [] s.car.ports q)
        ∧ (∀ j, j ≠ k → tget [] t.car.drained j = tget [] s.car.drained j) ∧ OnlyRegs [(pgCar0, Off.CAR_FAULT)] s t ∧ MemSame s t))
  ∧ (∀ (s : State) (p : Nat), p < 16 → nextPort s = some p → tget [] s.car.ports p ≠ [])
  ∧ ∀ (s : State) (tm : Nat), s.car.lastDrainAt = some (tm / 2) → Reaches (exec (.carafeDrain tm) s) (fun t => t.car = s.car ∧ OnlyRegs [] s t ∧ MemSame s t)

/-- TICK_EDGE of a running generator whose next instant has come issues the edge: the count rises by one (or is that of the first tick instant since TB0 or the generator started, at a first edge), and the publish table of the tick is not flipped. FLIP at or after the publish point swaps the two tables once: with nothing in flight, a block of an engine lane reads its deposited entries, without a deposit its previous ones (marked invalid in a REFRESH lane), and in a lane that is invalid its previous values marked invalid; a second FLIP in the tick changes nothing. (02_tick_contract.md R43; 02_tick_contract.md R46; 02_tick_contract.md R47; 08_carafe_publication.md R205; 08_carafe_publication.md R206; 08_carafe_publication.md R207) -/
def Obligations.tick_edge_and_flip : Prop :=
  (∀ (s : State) (tm : Nat), s.now ≤ tm → edgeDue s tm = true →
      Reaches (exec (.tickEdge tm) s) (fun t => t.tick.edgeAt = some tm ∧ t.tick.running = true ∧ t.car.flipped = false ∧ t.tick.sealedTick = false
        ∧ (s.tick.running = true → t.tick.count = s.tick.count + 1) ∧ (s.tick.running = false → t.tick.count = firstCount s)))
  ∧ (∀ (s : State) (tm i : Nat) (l : Word × Word), s.tick.edgeAt.isSome = true → s.car.flipped = false → s.car.pubPoint ≤ cycleOf s (max s.now tm) →
      (∀ n, tget [] s.car.ports n = []) → s.xfers = [] → s.car.restored = [] → (i, l) ∈ s.car.lanes → laneEn l = true →
      Reaches (exec (.flip tm) s) (fun t => t.car.flipped = true ∧ t.car.front1 = !s.car.front1 ∧ reg t pgCar0 Off.PUB_SEQ = word s.tick.count
        ∧ (laneSrc l = 0 → ∀ b e, laneBase l ≤ b → b < laneLimit l → e < 8 → (∀ x ∈ s.car.lanes, laneBase x.2 ≤ b → b < laneLimit x.2 → x = (i, l)) →
            published t b e =
              (if laneInvalid s i l then markInvalid (published s b e)
               else match tget none (s.car.drained.map (fun d => (d.1, some d.2))) b with
                 | some d => depositEntry d e
                 | none => if laneRefresh l then markInvalid (published s b e) else published s b e))))
  ∧ (∀ (s : State) (tm : Nat), s.car.flipped = true → Reaches (exec (.flip tm) s) (fun t => t.car = s.car ∧ OnlyRegs [] s t ∧ MemSame s t))
  ∧ ∀ (x : Word × Word), (markInvalid x).1 = x.1 ∧ fld (markInvalid x).2 0 2 = 1 ∧ bit (markInvalid x).2 29 = true ∧ bit (markInvalid x).2 31 = true

/-- WRITE of the publication or the subscription window commits the staged words to the selected entry where its checks pass, and leaves every other entry; a publication that becomes enabled has its first transmission at the next flip, a subscription that becomes enabled is NEVER. A commit that fails a check shows its result with the error flag and changes no entry. READ loads the words of the selected entry into the staging registers. (08_carafe_publication.md R215; 08_carafe_publication.md R219; 08_carafe_publication.md R221; 08_carafe_publication.md R224; 08_carafe_publication.md R225; 12_tenants.md R302) -/
def Obligations.goose_windows : Prop :=
  (∀ (s : State) (tid p : Nat) (x : GsePub), judge s tid pgGse0 Off.PUB_CMD = .ok → regFld s pgGse0 Off.PUB_SEL 0 8 = p → (tenOf s (pubTid (pubOf s p))).job = none →
      x = { GsePub.init with words := staged s pgGse0 pubOffs } → pubResult s p x = 0 →
      Reaches (exec (.gsePubWrite tid) s) (fun t => (pubOf t p).words = x.words ∧ (∀ q, q ≠ p → pubOf t q = pubOf s q) ∧ t.gse.subs = s.gse.subs
        ∧ (pubEn x = true → pubEn (pubOf s p) = false → (pubOf t p).fresh = true) ∧ (pubEn x = false → (pubOf t p).next = none)
        ∧ reg t pgGse0 Off.PUB_RESULT = 0 ∧ OnlyRegs [(pgGse0, Off.PUB_RESULT)] s t ∧ MemSame s t))
  ∧ (∀ (s : State) (tid p r : Nat), judge s tid pgGse0 Off.PUB_CMD = .ok → regFld s pgGse0 Off.PUB_SEL 0 8 = p → (tenOf s (pubTid (pubOf s p))).job = none →
      pubResult s p { GsePub.init with words := staged s pgGse0 pubOffs } = r → r ≠ 0 →
      Reaches (exec (.gsePubWrite tid) s) (fun t => t.gse = s.gse ∧ reg t pgGse0 Off.PUB_RESULT = word r ∧ regBit t pgGse0 Off.ERR_STAT 8 = true
        ∧ OnlyRegs [(pgGse0, Off.PUB_RESULT), (pgGse0, Off.ERR_STAT), (pgGse0, Off.ERR_INFO), (pgGse0, Off.IRQ_STAT)] s t ∧ MemSame s t))
  ∧ (∀ (s : State) (tid p : Nat), judge s tid pgGse0 Off.PUB_CMD = .ok → regFld s pgGse0 Off.PUB_SEL 0 8 = p →
      Reaches (exec (.gsePubRead tid) s) (fun t => (∀ o ∈ pubOffs, reg t pgGse0 o = pw (pubOf s p) o) ∧ t.gse = s.gse
        ∧ OnlyRegs (pubOffs.map (fun o => (pgGse0, o))) s t ∧ MemSame s t))
  ∧ (∀ (s : State) (tid k : Nat) (x : GseSub), judge s tid pgGse1 Off.GSUB_CMD = .ok → regFld s pgGse1 Off.GSUB_SEL 0 10 = k → (tenOf s (gsubTid (gsubOf s k))).job = none →
      x = { GseSub.init with words := staged s pgGse1 gsubOffs } → gsubResult s k x = 0 →
      Reaches (exec (.gseSubWrite tid) s) (fun t => (gsubOf t k).words = x.words ∧ (∀ q, q ≠ k → gsubOf t q = gsubOf s q) ∧ t.gse.pubs = s.gse.pubs
        ∧ (gsubEn (gsubOf s k) = false → (gsubOf t k).state = .never)
        ∧ reg t pgGse1 Off.GSUB_RESULT = 0 ∧ OnlyRegs [(pgGse1, Off.GSUB_RESULT)] s t ∧ MemSame s t))
  ∧ (∀ (s : State) (tid k r : Nat), judge s tid pgGse1 Off.GSUB_CMD = .ok → regFld s pgGse1 Off.GSUB_SEL 0 10 = k → (tenOf s (gsubTid (gsubOf s k))).job = none →
      gsubResult s k { GseSub.init with words := staged s pgGse1 gsubOffs } = r → r ≠ 0 →
      Reaches (exec (.gseSubWrite tid) s) (fun t => t.gse = s.gse ∧ reg t pgGse1 Off.GSUB_RESULT = word r ∧ regBit t pgGse1 Off.ERR_STAT 8 = true
        ∧ OnlyRegs [(pgGse1, Off.GSUB_RESULT), (pgGse1, Off.ERR_STAT), (pgGse1, Off.ERR_INFO), (pgGse1, Off.IRQ_STAT)] s t ∧ MemSame s t))
  ∧ ∀ (s : State) (tid k : Nat), judge s tid pgGse1 Off.GSUB_CMD = .ok → regFld s pgGse1 Off.GSUB_SEL 0 10 = k →
      Reaches (exec (.gseSubRead tid) s) (fun t => (∀ o ∈ gsubOffs, reg t pgGse1 o = sw (gsubOf s k) o) ∧ t.gse = s.gse
        ∧ OnlyRegs (gsubOffs.map (fun o => (pgGse1, o))) s t ∧ MemSame s t)

/-- GOOSE_RETRANSMIT of an enabled publication of a running tenant whose scheduled tick has come: sqNum takes its next value (1 after 0xFFFF_FFFF), the interval doubles up to TMAX, and the frame is sent if the publish gate is open and counted as gated if it is closed (here for a publication without a key). GOOSE_FRAME that passes the checks of an enabled subscription makes it VALID with the frame's numbers and values; one of another confRev counts as failed and changes no value. TAL_EXPIRY at the deadline makes the subscription EXPIRED and raises TAL_EXP for its tenant. (08_carafe_publication.md R208; 08_carafe_publication.md R213; 08_carafe_publication.md R218; 08_carafe_publication.md R219; 08_carafe_publication.md R225; 13_redundant_pair.md R323) -/
def Obligations.goose_messages : Prop :=
  (∀ (s : State) (p tm n : Nat) (x : GsePub), x = pubOf s p → s.car.flipped = true → pubEn x = true → x.fresh = false →
      x.restart = false → tenRunning s (pubTid x) = true → x.next = some n → n ≤ s.tick.count → pubAuth x = 0 →
      Reaches (exec (.gooseRetransmit p tm) s) (fun t => (pubOf t p).sqNum = (if x.sqNum = 0xFFFFFFFF then 1 else x.sqNum + 1) ∧ (pubOf t p).stNum = x.stNum
        ∧ (pubOf t p).interval = min (2 * x.interval) (fld (pw x Off.P_TIMING) 8 16)
        ∧ (pubOf t p).next = some (s.tick.count + min (2 * x.interval) (fld (pw x Off.P_TIMING) 8 16))
        ∧ (gateOpen s = true → (pubOf t p).sent = x.sent + 1 ∧ (pubOf t p).gated = x.gated)
        ∧ (gateOpen s = false → (pubOf t p).gated = x.gated + 1 ∧ (pubOf t p).sent = x.sent ∧ t.net = s.net)
        ∧ (∀ q, q ≠ p → pubOf t q = pubOf s q) ∧ t.gse.subs = s.gse.subs))
  ∧ (∀ (s : State) (port tm da appid k stamp lan src : Nat) (frame p lpdu : List Byte) (tag : Option Nat) (a : GooseApdu) (ext : Option (Nat × Nat × List Byte))
        (x : GseSub) (vs : List (Word × Word)),
      port < numPorts s.variant → etherHeader frame = (da, tag, src, 0x88B8, p) → parseGoose p = some (appid, lpdu, a, ext) →
      (takeHanded port frame tm (advance s tm)).1 = (stamp, lan) →
      s.gse.subs.find? (fun y => gsubEn y.2 && (sw y.2 Off.S_DA_LO).toNat + fld (sw y.2 Off.S_DA_HI) 0 16 * 2 ^ 32 = da
        && fld (sw y.2 Off.S_DA_HI) 16 16 = appid && vlanMatch (fld (sw y.2 Off.S_VLAN) 12 2) (fld (sw y.2 Off.S_VLAN) 0 12) tag && gsubGocb y.2 = a.gocb) = some (k, x) →
      gsubOf s k = x → (tenOf s (gsubTid x)).state ≠ .resetting → bit (sw x Off.S_POLICY) (4 + port) = true → bit (sw x Off.S_POLICY) 12 = false →
      bit (sw x Off.S_POLICY) 13 = false → a.sim = false →
      Reaches (exec (.gooseFrame port frame tm) s) (fun t =>
        (a.confRev = (sw x Off.S_CONFREV).toNat → a.nds = gsubNds x → mappedValues x a = some vs → a.tal ≠ 0 → x.state = .never ∨ a.stNum ≠ x.stNum ∨ x.sqNum < a.sqNum →
          (gsubOf t k).state = .valid ∧ (gsubOf t k).stNum = a.stNum ∧ (gsubOf t k).sqNum = a.sqNum ∧ (gsubOf t k).values = vs
            ∧ (gsubOf t k).accepted = x.accepted + 1 ∧ (gsubOf t k).deadline = tbNs s 0 stamp + a.tal * 1000000)
        ∧ (a.confRev ≠ (sw x Off.S_CONFREV).toNat → gsubOf t k = { x with failed := x.failed + 1 } ∧ OnlyRegs [] s t)
        ∧ (∀ j, j ≠ k → gsubOf t j = gsubOf s j) ∧ t.gse.pubs = s.gse.pubs ∧ t.car = s.car ∧ MemSame s t))
  ∧ ∀ (s : State) (k tm : Nat), gsubEn (gsubOf s k) = true → (gsubOf s k).state = .valid → (gsubOf s k).deadline ≤ tbNs s 0 (max s.now tm) →
      Reaches (exec (.talExpiry k tm) s) (fun t => gsubOf t k = { gsubOf s k with state := .expired, expiries := (gsubOf s k).expiries + 1 }
        ∧ regBit t pgGse1 (Off.GTEN_EVT + 4 * gsubTid (gsubOf s k)) 0 = true ∧ (∀ j, j ≠ k → gsubOf t j = gsubOf s j)
        ∧ OnlyRegs [(pgGse1, Off.GTEN_EVT + 4 * gsubTid (gsubOf s k))] s t ∧ MemSame s t)

/-- LOAD in CONFIGURE or MAINTAIN with nothing pending: an image that passes every check on idle, held engines begins its write phase, with VALID clear in every entry of the engines it names and memory as it was; one that fails a check shows the code, the section and the place, with LOAD_FAIL, and changes nothing else. VERIFY checks alone. ABORT of a write phase ends it with E_ABORTED. LOAD_DONE makes the image the held one, measures it, shows alternate 0, and leaves every byte outside the pieces of the image as it was (a load by an opaque signature check: assumption 9). (05_string_images.md R150; 05_string_images.md R151; 05_string_images.md R156; 05_string_images.md R157; 05_string_images.md R159; 03_marionette_engines.md R94; 16_vault_and_boot.md R398) -/
def Obligations.string_loading : Prop :=
  (∀ (s : State) (tid : Nat) (x : StrLoad), judge s tid pgStr0 Off.LD_CMD = .ok → mode s = mConfigure ∨ mode s = mMaintain → s.str.reshape = none → s.str.load = none →
      checkImage s = .ok x → enginesBusy s x.sections = false → unitsLocked s (namedEngines x.sections) (namedClusters x.sections) = false →
      Reaches (exec (.stringLoad tid) s) (fun t => t.str = { s.str with load := some x } ∧ reg t pgStr0 Off.LD_STAT = 5
        ∧ (∀ n ∈ namedEngines x.sections, n < 16 → ∀ p < 16, regFld t (pgMe n) (Off.PT_CTRL + 0x20 * p) 31 1 = 0) ∧ MemSame s t))
  ∧ (∀ (s : State) (tid : Nat) (e : LdErr), judge s tid pgStr0 Off.LD_CMD = .ok → mode s = mConfigure ∨ mode s = mMaintain → s.str.reshape = none → s.str.load = none →
      checkImage s = .error e →
      Reaches (exec (.stringLoad tid) s) (fun t => t.str = s.str ∧ reg t pgStr0 Off.LD_STAT = word (e.code * 256 + e.sect * 65536)
        ∧ reg t pgStr0 Off.LD_DETAIL = word (e.unit + e.alt * 16 + e.pidx * 256 + e.tid * 65536) ∧ regBit t pgStr0 Off.IRQ_STAT 1 = true
        ∧ OnlyRegs [(pgStr0, Off.LD_STAT), (pgStr0, Off.LD_DETAIL), (pgStr0, Off.IRQ_STAT)] s t ∧ MemSame s t))
  ∧ (∀ (s : State) (tid : Nat), judge s tid pgStr0 Off.LD_CMD = .ok → mode s ≠ mConfigure → mode s ≠ mMaintain →
      Reaches (exec (.stringLoad tid) s) (fun t => t.str = s.str ∧ reg t pgStr0 Off.LD_STAT = 0x1800 ∧ regBit t pgStr0 Off.IRQ_STAT 1 = true ∧ MemSame s t))
  ∧ (∀ (s : State) (tid : Nat), judge s tid pgStr0 Off.LD_CMD = .ok → s.str.load = none →
      Reaches (exec (.ldVerify tid) s) (fun t => t.str = s.str ∧ OnlyRegs [(pgStr0, Off.LD_STAT), (pgStr0, Off.LD_DETAIL), (pgStr0, Off.IRQ_STAT)] s t ∧ MemSame s t
        ∧ (∀ x, checkImage s = .ok x → reg t pgStr0 Off.LD_STAT = 0 ∧ regBit t pgStr0 Off.IRQ_STAT 0 = true)
        ∧ ∀ e, checkImage s = .error e → reg t pgStr0 Off.LD_STAT = word (e.code * 256 + e.sect * 65536) ∧ regBit t pgStr0 Off.IRQ_STAT 1 = true))
  ∧ (∀ (s : State) (tid : Nat), judge s tid pgStr0 Off.LD_CMD = .ok → s.str.load.isSome = true →
      Reaches (exec (.ldAbort tid) s) (fun t => t.str = { s.str with load := none } ∧ reg t pgStr0 Off.LD_STAT = 0x1600 ∧ regBit t pgStr0 Off.IRQ_STAT 1 = true
        ∧ OnlyRegs [(pgStr0, Off.LD_STAT), (pgStr0, Off.LD_DETAIL), (pgStr0, Off.IRQ_STAT)] s t))
  ∧ ∀ (s : State) (tm : Nat) (x : StrLoad), StateInv s → s.str.load = some x → enginesBusy s x.sections = false →
      Reaches (exec (.loadDone tm) s) (fun t => t.str.load = none ∧ t.str.alts = x.alts ∧ t.str.sets = x.sets ∧ t.str.digest = Config.sha3_512 x.body
        ∧ reg t pgStr1 Off.ALT_ACT = 0 ∧ regBit t pgStr0 Off.IRQ_STAT 0 = true
        ∧ t.vlt.meas = s.vlt.meas.set 4 (Config.sha3_512 (beBytes 64 (s.vlt.meas.getD 4 0) ++ sha512 x.body))
        ∧ ∀ k, (∀ a bs, .put a bs ∈ loadOps x → k < a ∨ a + bs.length ≤ k) → (∀ a n, .zero a n ∈ loadOps x → k < a ∨ a + n ≤ k) →
            Memory.read t.mem k = Memory.read s.mem k)

/-- REQ that meets its conditions makes the reshape pending for its tick, and one that does not shows its result with RESHAPE_FAIL; CANCEL before the edge of T − 1 withdraws it with E_CANCELLED. At the edge of T − 1 the tables are staged, in CONFIGURE at once and otherwise if the pair match holds, else it ends with E_PAIR; at the edge of T every cluster shows the alternate asked for, and RS_LAST, RS_COUNT and RESHAPE_DONE tell it, where every engine takes its table. (05_string_images.md R152; 05_string_images.md R153; 05_string_images.md R154; 05_string_images.md R155; 05_string_images.md R156; 05_string_images.md R158) -/
def Obligations.reshape : Prop :=
  (∀ (s : State) (tid : Nat), judge s tid pgStr1 Off.RS_CMD = .ok → rsCheck s (regFld s pgStr1 Off.RS_ALT 0 8) = 0 →
      Reaches (exec (.reshapeRequest tid) s) (fun t => t.str = { s.str with reshape := some ⟨regFld s pgStr1 Off.RS_ALT 0 8,
          ((nowTick s : Int) + s32diff (reg s pgStr1 Off.RS_TICK) (nowTick s)).toNat, false, false⟩ }
        ∧ reg t pgStr1 Off.RS_STAT = 1 ∧ OnlyRegs [(pgStr1, Off.RS_STAT)] s t ∧ MemSame s t))
  ∧ (∀ (s : State) (tid r : Nat), judge s tid pgStr1 Off.RS_CMD = .ok → rsCheck s (regFld s pgStr1 Off.RS_ALT 0 8) = r → r ≠ 0 →
      Reaches (exec (.reshapeRequest tid) s) (fun t => t.str = s.str ∧ regFld t pgStr1 Off.RS_STAT 8 8 = r ∧ regBit t pgStr0 Off.IRQ_STAT 3 = true
        ∧ OnlyRegs [(pgStr1, Off.RS_STAT), (pgStr0, Off.IRQ_STAT)] s t ∧ MemSame s t))
  ∧ (∀ (s : State) (tid : Nat) (r : Reshape), judge s tid pgStr1 Off.RS_CMD = .ok → s.str.reshape = some r → r.staged = false → nowTick s + 1 < r.target →
      Reaches (exec (.rsCancel tid) s) (fun t => t.str = { s.str with reshape := none } ∧ reg t pgStr1 Off.RS_STAT = 0x2600 ∧ regBit t pgStr0 Off.IRQ_STAT 3 = true
        ∧ OnlyRegs [(pgStr1, Off.RS_STAT), (pgStr0, Off.IRQ_STAT)] s t ∧ MemSame s t))
  ∧ (∀ (s : State) (tm : Nat) (r : Reshape), s.str.reshape = some r → s.tick.edgeAt = some tm → s.now ≤ tm → s.tick.count + 1 = r.target → r.staged = false →
      mode s = mConfigure ∨ rsMatch s r.alt r.target = true → (∀ a ∈ s.str.alts, ∀ d ∈ a.parts, d.pidx < 16) →
      Reaches (exec (.reshapeStage tm) s) (fun t => t.str = { s.str with reshape := some { r with staged := true } } ∧ regFld t pgStr1 Off.RS_STAT 0 2 = 2
        ∧ reg t pgStr1 Off.ALT_ACT = reg s pgStr1 Off.ALT_ACT ∧ t.eng = s.eng ∧ MemSame s t))
  ∧ (∀ (s : State) (tm : Nat) (r : Reshape), s.str.reshape = some r → s.tick.edgeAt = some tm → s.now ≤ tm → s.tick.count + 1 = r.target → r.staged = false →
      mode s ≠ mConfigure → rsMatch s r.alt r.target = false →
      Reaches (exec (.reshapeStage tm) s) (fun t => t.str = { s.str with reshape := none } ∧ reg t pgStr1 Off.RS_STAT = 0x2700 ∧ t.eng = s.eng
        ∧ OnlyRegs [(pgStr1, Off.RS_STAT), (pgStr0, Off.IRQ_STAT)] s t ∧ MemSame s t))
  ∧ ∀ (s : State) (tm : Nat) (r : Reshape), s.str.reshape = some r → s.tick.edgeAt = some tm → s.now ≤ tm → s.tick.count = r.target → r.staged = true →
      (∀ n ∈ enginesOf (changedClusters s r.alt), firstBad s (writtenTable s n) [] = none) →
      Reaches (exec (.reshapeApply tm) s) (fun t => t.str = { s.str with reshape := none } ∧ reg t pgStr1 Off.RS_STAT = 0x2000
        ∧ (∀ c < numClusters s.variant, altField (reg t pgStr1 Off.ALT_ACT).toNat c = altField r.alt c)
        ∧ reg t pgStr1 Off.RS_LAST = word s.tick.count ∧ reg t pgStr1 Off.RS_COUNT = reg s pgStr1 Off.RS_COUNT + 1 ∧ regBit t pgStr0 Off.IRQ_STAT 2 = true ∧ MemSame s t)

/-- PT_READ loads the configuration of the selected point into the staging registers. PT_WRITE of a point that passes its checks commits the staged configuration and leaves every other point; one that fails shows its result with COMMIT_BAD and changes no point. ECLR marks the selected point for its next step. An energy step adds its whole part to the accumulator modulo 2^64 and counts a wrap exactly when the sum passes 2^64. FREQ_TIMEOUT holds the last frequency, marks it invalid and tells the tenant. (09_quantity_engine.md R234; 09_quantity_engine.md R237; 09_quantity_engine.md R238; 09_quantity_engine.md R241; 09_quantity_engine.md R247; 12_tenants.md R302) -/
def Obligations.quantity_points : Prop :=
  (∀ (s : State) (tid m : Nat), judge s tid pgQe1 Off.PT_CMD = .ok → regFld s pgQe1 Off.PT_SEL 0 7 = m →
      Reaches (exec (.ptRead tid) s) (fun t => (∀ o ∈ stageOffsets, reg t pgQe1 o = ptWord (pointOf s m) o) ∧ t.met = s.met
        ∧ OnlyRegs (stageOffsets.map (fun o => (pgQe1, o))) s t ∧ MemSame s t))
  ∧ (∀ (s : State) (tid m : Nat) (x : QePoint), judge s tid pgQe1 Off.PT_CMD = .ok → regFld s pgQe1 Off.PT_SEL 0 7 = m → (tenOf s (ptTid (pointOf s m))).job = none →
      x = { pointOf s m with cfg := stagedPoint s } → ptResult s m x = 0 →
      Reaches (exec (.ptWrite tid) s) (fun t => (pointOf t m).cfg = stagedPoint s ∧ (pointOf t m).accs = (pointOf s m).accs ∧ (∀ q, q ≠ m → pointOf t q = pointOf s q)
        ∧ (ptEn x = true → ptEn (pointOf s m) = false → (pointOf t m).wins = [] ∧ (pointOf t m).count = 0 ∧ (pointOf t m).freq = FreqState.init)
        ∧ reg t pgQe1 Off.PT_RESULT = 0 ∧ reg t pgQe0 Off.PTS_EN = word (t.met.points.filter (fun p => ptEn p.2)).length
        ∧ OnlyRegs [(pgQe1, Off.PT_RESULT), (pgQe0, Off.PTS_EN)] s t ∧ MemSame s t))
  ∧ (∀ (s : State) (tid m r : Nat), judge s tid pgQe1 Off.PT_CMD = .ok → regFld s pgQe1 Off.PT_SEL 0 7 = m → (tenOf s (ptTid (pointOf s m))).job = none →
      ptResult s m { pointOf s m with cfg := stagedPoint s } = r → r ≠ 0 →
      Reaches (exec (.ptWrite tid) s) (fun t => t.met = s.met ∧ t.car = s.car ∧ reg t pgQe1 Off.PT_RESULT = word r ∧ regBit t pgQe0 Off.ERR_STAT 8 = true
        ∧ OnlyRegs [(pgQe1, Off.PT_RESULT), (pgQe0, Off.ERR_STAT), (pgQe0, Off.ERR_INFO), (pgQe0, Off.IRQ_STAT)] s t ∧ MemSame s t))
  ∧ (∀ (s : State) (tid m : Nat), judge s tid pgQe1 Off.PT_CMD = .ok → regFld s pgQe1 Off.PT_SEL 0 7 = m → (tenOf s (ptTid (pointOf s m))).job = none →
      regBit s pgQe0 Off.LOCK 0 = false →
      Reaches (exec (.eclr tid) s) (fun t => pointOf t m = { pointOf s m with eclr := true } ∧ (∀ q, q ≠ m → pointOf t q = pointOf s q)
        ∧ OnlyRegs [] s t ∧ MemSame s t))
  ∧ (∀ (s : State) (m a : Nat) (e : FVal) (s' : State) (d : Nat), energyAdd m a e s = (d, s') →
      (accOf (pointOf s' m) a).value = ((accOf (pointOf s m) a).value + d) % 2 ^ 64
      ∧ (d < 2 ^ 64 → (accOf (pointOf s m) a).value < 2 ^ 64 →
          (accOf (pointOf s' m) a).wraps = (if 2 ^ 64 ≤ (accOf (pointOf s m) a).value + d then ((accOf (pointOf s m) a).wraps + 1) % 65536 else (accOf (pointOf s m) a).wraps))
      ∧ (∀ b, b ≠ a → accOf (pointOf s' m) b = accOf (pointOf s m) b))
  ∧ ∀ (s : State) (m tm : Nat), m < 128 → ptEn (pointOf s m) = true → freqDue s (pointOf s m) = true →
      Reaches (exec (.freqTimeout m tm) s) (fun t => (pointOf t m).freq.valid = false ∧ (pointOf t m).freq.crossings = [] ∧ (pointOf t m).freq.since = 0
        ∧ (pointOf t m).freq.value = (pointOf s m).freq.value ∧ (pointOf t m).wins = (pointOf s m).wins ∧ (pointOf t m).accs = (pointOf s m).accs
        ∧ ((pointOf s m).freq.valid = true → regBit t pgQe0 (Off.QTEN_EVT + 4 * ptTid (pointOf s m)) 0 = true)
        ∧ (∀ q, q ≠ m → pointOf t q = pointOf s q) ∧ OnlyRegs [(pgQe0, Off.QTEN_EVT + 4 * ptTid (pointOf s m))] s t ∧ MemSame s t)

/-- PULSE_ENABLE that passes its checks stores the word and starts an empty output, and one that fails shows its result with PO_BAD; PULSE_DISABLE leaves the output low without a queue. PULSE_START of a queued pulse on a low output with the gate open raises it for WIDTH times 10 us and takes it from the queue; PULSE_END lowers it, its low time as long as its width; PULSE_LOW_END ends that. RESIDUE_CARRY adds the increment once per fabric cycle, and a carry out of 48 bits makes one pulse, which a closed gate only counts. (09_quantity_engine.md R242; 09_quantity_engine.md R244; 09_quantity_engine.md R245; 09_quantity_engine.md R248) -/
def Obligations.pulse_outputs : Prop :=
  (∀ (s : State) (tid o : Nat) (d : Word), o < 8 → judge s tid pgPul (Off.PO_CFG + 0x20 * o) = .ok → poEn s o = false → bit d 0 = true →
      poResult s o (d &&& 0x000F7F77) = 0 →
      Reaches (exec (.pulseEnable tid o d) s) (fun t => po t o Off.PO_CFG = d &&& 0x000F7F77 ∧ poEn t o = true ∧ fld (po t o Off.PO_STAT) 20 4 = 0
        ∧ outOf t o = { PulseOut.init with kres := if bit d 1 then kRes (po s o Off.PO_KH).toNat else 0 } ∧ (∀ p, p ≠ o → outOf t p = outOf s p)
        ∧ OnlyRegs [(pgPul, Off.PO_CFG + 0x20 * o), (pgPul, Off.PO_STAT + 0x20 * o)] s t ∧ MemSame s t))
  ∧ (∀ (s : State) (tid o r : Nat) (d : Word), o < 8 → judge s tid pgPul (Off.PO_CFG + 0x20 * o) = .ok → poEn s o = false → bit d 0 = true →
      poResult s o (d &&& 0x000F7F77) = r → r ≠ 0 →
      Reaches (exec (.pulseEnable tid o d) s) (fun t => t.resp = .error ∧ fld (po t o Off.PO_STAT) 20 4 = r ∧ regBit t pgPul Off.ERR_STAT 8 = true ∧ t.met = s.met
        ∧ OnlyRegs [(pgPul, Off.PO_STAT + 0x20 * o), (pgPul, Off.ERR_STAT), (pgPul, Off.ERR_INFO), (pgPul, Off.IRQ_STAT)] s t ∧ MemSame s t))
  ∧ (∀ (s : State) (tid o : Nat) (d : Word), o < 8 → judge s tid pgPul (Off.PO_CFG + 0x20 * o) = .ok → poEn s o = true → bit d 0 = false →
      (d &&& 0x000F7F77) ||| 1 = po s o Off.PO_CFG ||| 1 →
      Reaches (exec (.pulseDisable tid o d) s) (fun t => po t o Off.PO_CFG = d &&& 0x000F7F77 ∧ poHigh t o = false ∧ poBacklog t o = 0 ∧ outOf t o = PulseOut.init
        ∧ (∀ p, p ≠ o → outOf t p = outOf s p)
        ∧ OnlyRegs ([Off.PO_CFG, Off.PO_STAT, Off.PO_COUNT, Off.PO_GATED, Off.PO_LOST].map (fun f => (pgPul, f + 0x20 * o)) ++ [(pgPul, Off.IRQ_STAT)]) s t ∧ MemSame s t))
  ∧ (∀ (s : State) (o tm b : Nat), o < 8 → poHigh s o = false → (outOf s o).lowEnd = none → poBacklog s o = b + 1 → gateOpen s = true → regBit s pgPul Off.CTRL 0 = true →
      poEn s o = true →
      Reaches (exec (.pulseStart o tm) s) (fun t => poHigh t o = true ∧ poBacklog t o = b ∧ po t o Off.PO_COUNT = po s o Off.PO_COUNT + 1
        ∧ (outOf t o).highEnd = tm + fld (po s o Off.PO_WIDTH) 0 16 * 12000 ∧ (∀ p, p ≠ o → outOf t p = outOf s p)
        ∧ OnlyRegs [(pgPul, Off.PO_STAT + 0x20 * o), (pgPul, Off.PO_COUNT + 0x20 * o)] s t ∧ MemSame s t))
  ∧ (∀ (s : State) (o tm : Nat), o < 8 → poHigh s o = true → (outOf s o).highEnd ≤ tm →
      Reaches (exec (.pulseEnd o tm) s) (fun t => poHigh t o = false ∧ poBacklog t o = poBacklog s o ∧ (outOf t o).lowEnd = some ((outOf s o).highEnd + (outOf s o).width)
        ∧ (∀ p, p ≠ o → outOf t p = outOf s p) ∧ OnlyRegs [(pgPul, Off.PO_STAT + 0x20 * o)] s t ∧ MemSame s t))
  ∧ (∀ (s : State) (o tm e : Nat), o < 8 → poHigh s o = false → (outOf s o).lowEnd = some e → e ≤ tm → poBacklog s o = 0 →
      Reaches (exec (.pulseLowEnd o tm) s) (fun t => (outOf t o).lowEnd = none ∧ (∀ p, p ≠ o → outOf t p = outOf s p) ∧ OnlyRegs [] s t ∧ MemSame s t))
  ∧ (∀ (s : State) (o tm b : Nat), o < 8 → (outOf s o).since = some b → b ≤ tm / 2 → (outOf s o).acc + (outOf s o).inc * (tm / 2 - b + 1) < 2 ^ 48 →
      Reaches (exec (.residueCarry o tm) s) (fun t => (outOf t o).acc = (outOf s o).acc + (outOf s o).inc * (tm / 2 - b + 1) ∧ (outOf t o).since = some (tm / 2 + 1)
        ∧ (∀ p, p ≠ o → outOf t p = outOf s p) ∧ OnlyRegs [] s t ∧ MemSame s t))
  ∧ ∀ (s : State) (o tm b : Nat), o < 8 → (outOf s o).since = some b → b ≤ tm / 2 → 2 ^ 48 ≤ (outOf s o).acc + (outOf s o).inc * (tm / 2 - b + 1) →
      (outOf s o).acc + (outOf s o).inc * (tm / 2 - b + 1) < 2 * 2 ^ 48 → (outOf s o).acc < 2 ^ 48 → poHigh s o = false → (outOf s o).lowEnd = none → poBacklog s o = 0 →
      Reaches (exec (.residueCarry o tm) s) (fun t => (outOf t o).acc = (outOf s o).acc + (outOf s o).inc * (tm / 2 - b + 1) - 2 ^ 48
        ∧ (gateOpen s = true → poHigh t o = true ∧ po t o Off.PO_COUNT = po s o Off.PO_COUNT + 1)
        ∧ (gateOpen s = false → poHigh t o = false ∧ po t o Off.PO_COUNT = po s o Off.PO_COUNT ∧ po t o Off.PO_GATED = po s o Off.PO_GATED + 1)
        ∧ (∀ p, p ≠ o → outOf t p = outOf s p) ∧ MemSame s t)

/-- Enabling a recorder that passes its checks starts it with an empty ring, FILLING where it rearms with a pre-trigger part and ARMED otherwise; one that fails shows its result. Disabling stops it at once and keeps the record table. START restarts a stopped recorder when the ring has room and waits when it has not; STOP closes a record in progress as truncated, with one mark of 64 bytes at WR_PTR, and stops; MTRIG fires with the next sample while ARMED or in a record, and is missed otherwise; RELEASE frees the oldest record, and with none sets an error. No other recorder changes. (10_capture_unit.md R253; 10_capture_unit.md R255; 10_capture_unit.md R256; 10_capture_unit.md R258; 10_capture_unit.md R259; 10_capture_unit.md R260; 10_capture_unit.md R262) -/
def Obligations.recorder_commands : Prop :=
  (∀ (s : State) (tid k : Nat) (d : Word), k < 8 → judge s tid (pgCap k) Off.CTRL = .ok → recEn s k = false → bit d 0 = true → recResult s k = 0 →
      Reaches (exec (.recorderEnable tid k d) s) (fun t => recEn t k = true ∧ recOf t k = Recorder.init ∧ wrPtr t k = 0
        ∧ recState t k = (if regBit s (pgCap k) Off.REC_CFG 5 = true ∧ 0 < recPre s k then 1 else 2) ∧ regFld t (pgCap k) Off.REC_STAT 16 4 = 0
        ∧ (∀ j, j ≠ k → recOf t j = recOf s j)
        ∧ OnlyRegs ([Off.CTRL, Off.STAT, Off.WR_PTR, Off.REC_STAT, Off.HOLD_PTR].map (fun o => (pgCap k, o))) s t ∧ MemSame s t))
  ∧ (∀ (s : State) (tid k r : Nat) (d : Word), k < 8 → judge s tid (pgCap k) Off.CTRL = .ok → recEn s k = false → bit d 0 = true → recResult s k = r → r ≠ 0 →
      Reaches (exec (.recorderEnable tid k d) s) (fun t => t.resp = .error ∧ recEn t k = false ∧ t.cap = s.cap ∧ regFld t (pgCap k) Off.REC_STAT 16 4 = r
        ∧ regBit t (pgCap k) Off.ERR_STAT 8 = true
        ∧ OnlyRegs ([Off.REC_STAT, Off.ERR_STAT, Off.ERR_INFO, Off.IRQ_STAT].map (fun o => (pgCap k, o))) s t ∧ MemSame s t))
  ∧ (∀ (s : State) (tid k : Nat) (d : Word), k < 8 → judge s tid (pgCap k) Off.CTRL = .ok → recEn s k = true → bit d 0 = false →
      Reaches (exec (.recorderDisable tid k d) s) (fun t => recEn t k = false ∧ recState t k = 0 ∧ recOf t k = { Recorder.init with table := (recOf s k).table }
        ∧ (∀ j, j ≠ k → recOf t j = recOf s j)
        ∧ OnlyRegs ([Off.CTRL, Off.STAT, Off.REC_STAT, Off.HOLD_PTR].map (fun o => (pgCap k, o))) s t ∧ MemSame s t))
  ∧ (∀ (s : State) (tid k : Nat), k < 8 → judge s tid (pgCap k) Off.REC_CMD = .ok → recEn s k = true → recState s k = 4 ∨ recState s k = 5 →
      Reaches (exec (.recStart tid k) s) (fun t =>
        (recBytes (recNch s k) + 64 ≤ ringFree s k → (recOf t k).starting = false
          ∧ recState t k = (if regBit s (pgCap k) Off.REC_CFG 5 = true ∧ 0 < recPre s k then 1 else 2))
        ∧ (ringFree s k < recBytes (recNch s k) + 64 → (recOf t k).starting = true ∧ recState t k = recState s k)
        ∧ (recOf t k).table = (recOf s k).table ∧ (∀ j, j ≠ k → recOf t j = recOf s j)
        ∧ OnlyRegs [(pgCap k, Off.REC_STAT), (pgCap k, Off.HOLD_PTR)] s t ∧ MemSame s t))
  ∧ (∀ (s : State) (tid k : Nat), k < 8 → judge s tid (pgCap k) Off.REC_CMD = .ok → recEn s k = true → (recOf s k).now = none →
      Reaches (exec (.recStop tid k) s) (fun t => recState t k = 4 ∧ recOf t k = { recOf s k with manual := false, starting := false } ∧ (∀ j, j ≠ k → recOf t j = recOf s j)
        ∧ OnlyRegs [(pgCap k, Off.REC_STAT), (pgCap k, Off.HOLD_PTR)] s t ∧ MemSame s t))
  ∧ (∀ (s : State) (tid k : Nat) (n : RecNow), k < 8 → judge s tid (pgCap k) Off.REC_CMD = .ok → recEn s k = true → (recOf s k).now = some n →
      StateInv s → wrPtr s k < ringSizeOf s k → 64 ≤ ringSizeOf s k →
      Reaches (exec (.recStop tid k) s) (fun t => recState t k = 4 ∧ (recOf t k).now = none
        ∧ (recOf t k).table = (recOf s k).table ++ [⟨n.start, (wrPtr s k + 64) % ringSizeOf s k, n.primary, n.frac, n.unit, true, n.preShort, n.samples, n.first⟩]
        ∧ wrPtr t k = (wrPtr s k + 64) % ringSizeOf s k ∧ regBit t (pgCap k) Off.IRQ_STAT 0 = true
        ∧ (∀ x, (∀ i < 64, x ≠ ringBaseOf s k + (wrPtr s k + i) % ringSizeOf s k) → Memory.read t.mem x = Memory.read s.mem x)
        ∧ (∀ j, j ≠ k → recOf t j = recOf s j)
        ∧ OnlyRegs ([Off.REC_STAT, Off.HOLD_PTR, Off.WR_PTR, Off.IRQ_STAT].map (fun o => (pgCap k, o))) s t))
  ∧ (∀ (s : State) (tid k : Nat), k < 8 → judge s tid (pgCap k) Off.REC_CMD = .ok →
      Reaches (exec (.mtrig tid k) s) (fun t =>
        (recState s k = 2 ∨ recState s k = 3 → recOf t k = { recOf s k with manual := true } ∧ OnlyRegs [] s t)
        ∧ (recState s k ≠ 2 → recState s k ≠ 3 → reg t (pgCap k) Off.MISSED = reg s (pgCap k) Off.MISSED + 1 ∧ regBit t (pgCap k) Off.IRQ_STAT 2 = true
            ∧ (recOf t k).manual = (recOf s k).manual ∧ OnlyRegs [(pgCap k, Off.MISSED), (pgCap k, Off.IRQ_STAT)] s t)
        ∧ (∀ j, j ≠ k → recOf t j = recOf s j) ∧ MemSame s t))
  ∧ ∀ (s : State) (tid k : Nat), k < 8 → judge s tid (pgCap k) Off.REC_CMD = .ok → (recOf s k).starting = false →
      Reaches (exec (.recRelease tid k) s) (fun t =>
        (∀ e rest, (recOf s k).table = e :: rest → (recOf t k).table = rest ∧ recState t k = recState s k ∧ regFld t (pgCap k) Off.REC_STAT 4 5 = rest.length % 32
            ∧ OnlyRegs [(pgCap k, Off.REC_STAT), (pgCap k, Off.HOLD_PTR)] s t)
        ∧ ((recOf s k).table = [] → t.cap = s.cap ∧ regBit t (pgCap k) Off.ERR_STAT 10 = true)
        ∧ (∀ j, j ≠ k → recOf t j = recOf s j) ∧ MemSame s t)

/-- Enabling a partition that passes its checks stores LP_CTRL; one that fails shows its result. LOAD of an image that passes its checks begins its write phase, and one that fails shows code and element; LOAD_DONE puts the program in place with its state reset, and measures it (a load by an opaque signature check: assumption 9). APPLY queues an on-line change for its tick or shows why not, FORCE_SET arms a force entry, FORCE_RELEASE its release, and IDLE_CLR clears every IDLE_MIN. No other partition changes. (11_logic_runner.md R264; 11_logic_runner.md R277; 11_logic_runner.md R278; 11_logic_runner.md R279; 11_logic_runner.md R281; 11_logic_runner.md R284; 11_logic_runner.md R285; 12_tenants.md R302; 16_vault_and_boot.md R398) -/
def Obligations.logic_commands : Prop :=
  (∀ (s : State) (tid p : Nat) (d : Word), p < 16 → judge s tid pgLgr0 (Off.LP_CTRL + 0x40 * p) = .ok → (tenOf s p).job = none → lpEn s p = false → bit d 0 = true →
      lpResult s p (d &&& 0x01FF1FF3) = 0 →
      Reaches (exec (.logicPartitionEnable tid p d) s) (fun t => lp t p Off.LP_CTRL = d &&& 0x01FF1FF3 ∧ lpEn t p = true ∧ fld (lp t p Off.LP_STAT) 24 4 = 0 ∧ t.lgr = s.lgr
        ∧ OnlyRegs [(pgLgr0, Off.LP_CTRL + 0x40 * p), (pgLgr0, Off.LP_STAT + 0x40 * p), (pgLgr0, Off.HW_FREE), (pgLgr0, Off.BUDGET_USED)] s t ∧ MemSame s t))
  ∧ (∀ (s : State) (tid p r : Nat) (d : Word), p < 16 → judge s tid pgLgr0 (Off.LP_CTRL + 0x40 * p) = .ok → (tenOf s p).job = none → lpEn s p = false → bit d 0 = true →
      lpResult s p (d &&& 0x01FF1FF3) = r → r ≠ 0 →
      Reaches (exec (.logicPartitionEnable tid p d) s) (fun t => t.resp = .error ∧ lpEn t p = false ∧ fld (lp t p Off.LP_STAT) 24 4 = r ∧ regBit t pgLgr0 Off.ERR_STAT 8 = true
        ∧ t.lgr = s.lgr ∧ OnlyRegs [(pgLgr0, Off.LP_STAT + 0x40 * p), (pgLgr0, Off.ERR_STAT), (pgLgr0, Off.ERR_INFO), (pgLgr0, Off.IRQ_STAT)] s t ∧ MemSame s t))
  ∧ (∀ (s : State) (tid : Nat), judge s tid pgLgr0 Off.CTRL = .ok →
      Reaches (exec (.idleClr tid) s) (fun t => (∀ p < 16, lp t p Off.IDLE_MIN = 0xFFFFFFFF) ∧ t.lgr = s.lgr
        ∧ OnlyRegs ((List.range 16).map (fun p => (pgLgr0, Off.IDLE_MIN + 0x40 * p))) s t ∧ MemSame s t))
  ∧ (∀ (s : State) (tid p dg : Nat) (d : Word) (es : List (BitVec 64)) (ps : List Nat), judge s tid pgLgr1 Off.LLD_CMD = .ok → fld d 8 4 = p → bit d 0 = true →
      (tenOf s p).job = none → logicCheck (setReg s pgLgr1 Off.LLD_CMD (d &&& 0xF00)) p = .ok (es, ps, dg) →
      Reaches (exec (.logicLoad tid d) s) (fun t => reg t pgLgr1 Off.LLD_STAT = 0x100
        ∧ t.lgr = { s.lgr with load := some ⟨p, es ++ List.replicate (lpElems s p - es.length) 0, ps, s.now / 2 + lpElems s p, dg⟩ }
        ∧ OnlyRegs [(pgLgr1, Off.LLD_CMD), (pgLgr1, Off.LLD_STAT)] s t ∧ MemSame s t))
  ∧ (∀ (s : State) (tid p c i : Nat) (d : Word), judge s tid pgLgr1 Off.LLD_CMD = .ok → fld d 8 4 = p → bit d 0 = true →
      (tenOf s p).job = none → logicCheck (setReg s pgLgr1 Off.LLD_CMD (d &&& 0xF00)) p = .error (c, i) →
      Reaches (exec (.logicLoad tid d) s) (fun t => t.lgr = s.lgr ∧ regFld t pgLgr1 Off.LLD_STAT 0 8 = c % 256 ∧ regFld t pgLgr1 Off.LLD_STAT 16 16 = i % 65536
        ∧ regBit t pgLgr0 Off.IRQ_STAT 1 = true ∧ MemSame s t))
  ∧ (∀ (s : State) (tm : Nat) (l : LLoad), s.lgr.load = some l → l.tid < 16 → l.doneAt ≤ tm / 2 →
      Reaches (exec (.logicLoadDone tm) s) (fun t => t.lgr.load = none ∧ (partOf t l.tid).elems = l.elems ∧ (partOf t l.tid).first = true ∧ (partOf t l.tid).points = []
        ∧ (∀ i < l.presets.length, (tget LTimer.init (partOf t l.tid).timers i).pt = l.presets.getD i 0)
        ∧ (∀ q, q ≠ l.tid → partOf t q = partOf s q) ∧ reg t pgLgr1 Off.LLD_STAT = 0 ∧ bit (lp t l.tid Off.LP_STAT) 20 = true
        ∧ t.vlt.meas = s.vlt.meas.set 5 (Config.sha3_512 (beBytes 64 (s.vlt.meas.getD 5 0) ++ beBytes 64 l.digest))
        ∧ OnlyRegs [(pgLgr1, Off.LLD_STAT), (pgLgr0, Off.LP_STAT + 0x40 * l.tid), (pgLgr1, Off.LTEN_EVT + 4 * l.tid), (pgLgr0, Off.IRQ_STAT)] s t ∧ MemSame s t))
  ∧ (∀ (s : State) (tid r : Nat), judge s tid pgLgr1 Off.ONL_CMD = .ok → (tenOf s (regFld s pgLgr1 Off.ONL_SEL 0 4)).job = none →
      onlResult s (regFld s pgLgr1 Off.ONL_SEL 0 4) (regBit s pgLgr1 Off.ONL_SEL 4) (regFld s pgLgr1 Off.ONL_SEL 16 16) (reg s pgLgr1 Off.ONL_VALUE) = r →
      Reaches (exec (.applyChange tid) s) (fun t => regFld t pgLgr1 Off.ONL_STAT 0 4 = r ∧ t.lgr.parts = s.lgr.parts ∧ t.lgr.forces = s.lgr.forces
        ∧ (r = 0 → ⟨regFld s pgLgr1 Off.ONL_SEL 0 4, regBit s pgLgr1 Off.ONL_SEL 4, regFld s pgLgr1 Off.ONL_SEL 16 16, reg s pgLgr1 Off.ONL_VALUE, reg s pgLgr1 Off.ONL_AT⟩ ∈ t.lgr.changes
            ∧ t.lgr.changes.length ≤ 64)
        ∧ (r ≠ 0 → t.lgr = s.lgr) ∧ OnlyRegs [(pgLgr1, Off.ONL_STAT), (pgLgr1, Off.FRC_STAT)] s t ∧ MemSame s t))
  ∧ (∀ (s : State) (tid k p e : Nat), judge s tid pgLgr1 Off.FRC_CMD = .ok → regFld s pgLgr1 Off.FRC_SEL 0 6 = k → regFld s pgLgr1 Off.FRC_TGT 0 4 = p →
      regFld s pgLgr1 Off.FRC_TGT 16 16 = e → (tenOf s p).job = none → regBit s pgLgr0 Off.LOCK 0 = false → p < numTids s.variant → e < (partOf s p).elems.length →
      (∀ f ∈ s.lgr.forces, f.1 ≠ k → ¬ (f.2.tid = p ∧ f.2.elem = e)) →
      Reaches (exec (.forceSet tid) s) (fun t => regFld t pgLgr1 Off.FRC_STAT 0 4 = 0 ∧ t.lgr.parts = s.lgr.parts ∧ t.lgr.changes = s.lgr.changes
        ∧ (∃ f, t.lgr.forces.find? (fun f => f.1 = k) = some (k, f) ∧ f.tid = p ∧ f.elem = e ∧ f.next = some (reg s pgLgr1 Off.FRC_VAL, reg s pgLgr1 Off.FRC_AT) ∧ f.release = none)
        ∧ OnlyRegs [(pgLgr1, Off.ONL_STAT), (pgLgr1, Off.FRC_STAT)] s t ∧ MemSame s t))
  ∧ (∀ (s : State) (tid k : Nat) (f : LForce), judge s tid pgLgr1 Off.FRC_CMD = .ok → regFld s pgLgr1 Off.FRC_SEL 0 6 = k →
      (tenOf s (regFld s pgLgr1 Off.FRC_TGT 0 4)).job = none → regBit s pgLgr0 Off.LOCK 0 = false → s.lgr.forces.find? (fun f => f.1 = k) = some (k, f) →
      Reaches (exec (.forceRelease tid) s) (fun t => t.lgr.forces.find? (fun f => f.1 = k) = some (k, { f with release := some (reg s pgLgr1 Off.FRC_AT) })
        ∧ regFld t pgLgr1 Off.FRC_STAT 0 4 = 0 ∧ t.lgr.parts = s.lgr.parts ∧ OnlyRegs [(pgLgr1, Off.FRC_STAT)] s t ∧ MemSame s t))
  ∧ ∀ (s : State) (p tm : Nat) (x : LScan), (partOf s p).scan = some x → x.doneAt ≤ tm / 2 + 1 →
      Reaches (exec (.scanComplete p tm) s) (fun t => partOf t p = { partOf s p with scan := none, endAt := some x.doneAt } ∧ (∀ q, q ≠ p → partOf t q = partOf s q)
        ∧ (∀ i < x.image.length, tget unusedEntry t.car.unit (8 * lpOutBase s p + i) = x.image.getD i unusedEntry)
        ∧ (∀ e, (e < 8 * lpOutBase s p ∨ 8 * lpOutBase s p + x.image.length ≤ e) → tget unusedEntry t.car.unit e = tget unusedEntry s.car.unit e)
        ∧ OnlyRegs [] s t ∧ MemSame s t)

/-- ADMIT of an EMPTY tenant makes it LOADED and the owner of its page. START, FREEZE and THAW from LOADED, RUNNING and FROZEN wait for the tick that TEN_AT names, at least two ticks ahead, and a command from another state has result STATE; CANCEL in time withdraws it. At the edge of its tick the command moves the tenant, and THAW shows how many ticks were missed. FAULT waits for a tick edge, at which it, or a reached FAULT_LIMIT, makes the tenant FAULTED with its cause. EVICT of a LOADED tenant that nothing names makes it EMPTY. No other tenant changes. (12_tenants.md R289; 12_tenants.md R290; 12_tenants.md R291; 12_tenants.md R292; 12_tenants.md R301; 12_tenants.md R308; 12_tenants.md R460; 12_tenants.md R461) -/
def Obligations.tenant_commands : Prop :=
  (∀ (s : State) (p : Nat), 1 ≤ p → p < 16 → judge s 0 (pgTen p) Off.TEN_CMD = .ok → tenMode s = true → tenState s p = .empty →
      Reaches (exec (.tenAdmit 0 p) s) (fun t => tenState t p = .loaded ∧ regFld t (pgTen p) Off.TID_OWNER 0 4 = p ∧ reg t (pgTen p) Off.TEN_RESULT = 0
        ∧ (∀ u, u ≠ p → tenOf t u = tenOf s u) ∧ RegsOutside [pgTen p, pgTens, pgIrq0] s t ∧ MemSame s t))
  ∧ (∀ (s : State) (p kind : Nat) (src : TenState) (i : Instr), (kind, src, i) ∈ [(1, .loaded, .tenantStart 0 p), (2, .running, .freeze 0 p), (3, .frozen, .thaw 0 p)] →
      1 ≤ p → p < 16 → judge s 0 (pgTen p) Off.TEN_CMD = .ok → tenMode s = true → tenState s p = src → (kind = 1 → (tenOf s p).dirty = false) →
      2 ≤ s32diff (reg s (pgTen p) Off.TEN_AT) (nowTick s) → (tenOf s p).pend = none →
      Reaches (exec i s) (fun t => tenOf t p = { tenOf s p with pend := some ⟨kind, absTick s (reg s (pgTen p) Off.TEN_AT), false⟩ }
        ∧ reg t (pgTen p) Off.TEN_RESULT = word (kind * 256) ∧ (∀ u, u ≠ p → tenOf t u = tenOf s u) ∧ OnlyRegs [(pgTen p, Off.TEN_RESULT)] s t ∧ MemSame s t))
  ∧ (∀ (s : State) (p kind : Nat) (src : TenState) (i : Instr), (kind, src, i) ∈ [(1, .loaded, .tenantStart 0 p), (2, .running, .freeze 0 p), (3, .frozen, .thaw 0 p)] →
      1 ≤ p → p < 16 → judge s 0 (pgTen p) Off.TEN_CMD = .ok → tenMode s = true → tenState s p ≠ src →
      Reaches (exec i s) (fun t => t.ten = s.ten ∧ reg t (pgTen p) Off.TEN_RESULT = word (1 + kind * 256) ∧ regBit t (pgTen p) Off.TEVT 4 = true
        ∧ OnlyRegs [(pgTen p, Off.TEN_RESULT), (pgTen p, Off.TEVT)] s t ∧ MemSame s t))
  ∧ (∀ (s : State) (p : Nat) (c : AtCmd), 1 ≤ p → p < 16 → judge s 0 (pgTen p) Off.TEN_CMD = .ok → tenMode s = true → (tenOf s p).pend = some c → c.sawPrev = false →
      nowTick s + 1 < c.target →
      Reaches (exec (.tenantCancel 0 p) s) (fun t => tenOf t p = { tenOf s p with pend := none } ∧ reg t (pgTen p) Off.TEN_RESULT = 0xA06
        ∧ (∀ u, u ≠ p → tenOf t u = tenOf s u) ∧ OnlyRegs [(pgTen p, Off.TEN_RESULT)] s t ∧ MemSame s t))
  ∧ (∀ (s : State) (p : Nat), 1 ≤ p → p < 16 → judge s 0 (pgTen p) Off.TEN_CMD = .ok → tenMode s = true → tenState s p = .running ∨ tenState s p = .frozen →
      Reaches (exec (.faultTenant 0 p) s) (fun t => tenOf t p = { tenOf s p with faultPend := true } ∧ reg t (pgTen p) Off.TEN_RESULT = 0x900
        ∧ (∀ u, u ≠ p → tenOf t u = tenOf s u) ∧ OnlyRegs [(pgTen p, Off.TEN_RESULT)] s t ∧ MemSame s t))
  ∧ (∀ (s : State) (p tm kind : Nat) (src dst : TenState) (c : AtCmd) (i : Instr), (kind, src, dst, i) ∈ [(1, .loaded, .running, .tenantStartApply p tm),
        (2, .running, .frozen, .freezeApply p tm), (3, .frozen, .running, .thawApply p tm)] → 1 ≤ p → p < 16 → s.tick.edgeAt = some tm → s.now ≤ tm →
      (tenOf s p).pend = some c → c.kind = kind → c.target = s.tick.count → tenState s p = src → (tenOf s p).faultPend = false → limitReached s p = false →
      Reaches (exec i s) (fun t => tenState t p = dst ∧ (tenOf t p).pend = none ∧ regBit t (pgTen p) Off.TEVT 0 = true ∧ regBit t pgTens Off.IRQ_STAT 0 = true
        ∧ (kind = 2 → (tenOf t p).freezeTick = s.tick.count)
        ∧ (kind = 3 → (tenOf t p).thawTick = s.tick.count ∧ reg t (pgTen p) Off.TMISSED = word (min 0xFFFFFFFF (s.tick.count - (tenOf s p).freezeTick)))
        ∧ (∀ u, u ≠ p → tenOf t u = tenOf s u) ∧ OnlyRegs [(pgTen p, Off.TEVT), (pgTens, Off.IRQ_STAT), (pgTen p, Off.TMISSED)] s t ∧ MemSame s t))
  ∧ (∀ (s : State) (p tm : Nat) (i : Instr), 1 ≤ p → p < 16 → s.tick.edgeAt = some tm → s.now ≤ tm →
      (i = .faultApply p tm ∧ (tenOf s p).faultPend = true) ∨ (i = .faultLimitReached p tm ∧ limitReached s p = true) → tenState s p = .running ∨ tenState s p = .frozen →
      Reaches (exec i s) (fun t => tenState t p = .faulted ∧ (tenOf t p).fcause = (if limitReached s p then 1 else 2) ∧ (tenOf t p).faultPend = false
        ∧ regBit t pgTens Off.IRQ_STAT 2 = true ∧ (∀ u, u ≠ p → tenOf t u = tenOf s u) ∧ OnlyRegs [(pgTen p, Off.TEVT), (pgTens, Off.IRQ_STAT)] s t ∧ MemSame s t))
  ∧ ∀ (s : State) (p : Nat), 1 ≤ p → p < 16 → judge s 0 (pgTen p) Off.TEN_CMD = .ok → tenMode s = true → tenState s p = .loaded → namesTenant s p = false →
      (∀ r < 4, tenOcc s p r = 0) →
      Reaches (exec (.evict 0 p) s) (fun t => tenState t p = .empty ∧ regFld t (pgTen p) Off.TID_OWNER 0 4 = 0 ∧ (∀ r < 4, shareWritten t p r = 0) ∧ (tenOf t p).depth = [0, 0, 0, 0]
        ∧ reg t (pgTen p) Off.TEN_RESULT = 0x800 ∧ (∀ u, u ≠ p → tenOf t u = tenOf s u) ∧ RegsOutside [pgTen p, pgTens, pgIrq0] s t ∧ MemSame s t)

/-- SHARE_WRITE within the total stores the share and applies a reduction at once, and one above it is refused; an increase is applied at a tick edge with room. DDR_WIN_WRITE stores a window that meets no other tenant's, and another is refused. A DDR_ACCESS inside the windows of its TID reads or writes exactly its bytes, and one outside them, or behind the fence, answers an access error and changes no byte. RESET fences a tenant, and the last of the drains makes it LOADED. (12_tenants.md R288; 12_tenants.md R293; 12_tenants.md R295; 12_tenants.md R296; 12_tenants.md R297; 12_tenants.md R298; 12_tenants.md R299; 12_tenants.md R311) -/
def Obligations.tenant_resources : Prop :=
  (∀ (s : State) (tid p r : Nat) (d : Word), p < 16 → r < 4 → judge s tid (pgTen p) (Off.SHARE + 4 * r) = .ok →
      (List.range (numTids s.variant)).foldl (fun a u => a + (if u = p then 0 else shareWritten s u r)) 0 + fld d 0 11 ≤ shareTotal r →
      Reaches (exec (.shareWrite tid p r d) s) (fun t => reg t (pgTen p) (Off.SHARE + 4 * r) = word (fld d 0 11)
        ∧ (tenOf t p).depth = (if fld d 0 11 ≤ shareOf s p r then (tenOf s p).depth.set r (fld d 0 11) else (tenOf s p).depth)
        ∧ (∀ u, u ≠ p → tenOf t u = tenOf s u) ∧ OnlyRegs [(pgTen p, Off.SHARE + 4 * r)] s t ∧ MemSame s t))
  ∧ (∀ (s : State) (tid p r : Nat) (d : Word), p < 16 → r < 4 → judge s tid (pgTen p) (Off.SHARE + 4 * r) = .ok →
      shareTotal r < (List.range (numTids s.variant)).foldl (fun a u => a + (if u = p then 0 else shareWritten s u r)) 0 + fld d 0 11 →
      Reaches (exec (.shareWrite tid p r d) s) (fun t => t.resp = .error ∧ t.ten = s.ten ∧ regBit t (pgTen p) Off.ERR_STAT 9 = true
        ∧ OnlyRegs [(pgTen p, Off.ERR_STAT), (pgTen p, Off.ERR_INFO), (pgTen p, Off.IRQ_STAT)] s t ∧ MemSame s t))
  ∧ (∀ (s : State) (p r tm : Nat), p < 16 → r < 4 → s.tick.edgeAt = some tm → s.now ≤ tm → shareOf s p r < shareWritten s p r →
      shareWritten s p r + (List.range (numTids s.variant)).foldl (fun a u => a + (if u = p then 0 else max (shareOf s u r) (tenOcc s u r))) 0 ≤ shareTotal r →
      Reaches (exec (.shareIncreaseApply p r tm) s) (fun t => (tenOf t p).depth = (tenOf s p).depth.set r (shareWritten s p r) ∧ regBit t (pgTen p) Off.TEVT 5 = true
        ∧ (∀ u, u ≠ p → tenOf t u = tenOf s u) ∧ OnlyRegs [(pgTen p, Off.TEVT)] s t ∧ MemSame s t))
  ∧ (∀ (s : State) (tid p w : Nat) (d : Word), 1 ≤ p → p < 16 → w < 4 → judge s tid (pgTen p) (Off.DDR_WIN + 4 * w) = .ok →
      Reaches (exec (.ddrWinWrite tid p w d) s) (fun t =>
        (windowBad s p d = false → reg t (pgTen p) (Off.DDR_WIN + 4 * w) = d &&& 0x3FFF3FFF ∧ OnlyRegs [(pgTen p, Off.DDR_WIN + 4 * w)] s t)
        ∧ (windowBad s p d = true → t.resp = .error ∧ regBit t (pgTen p) Off.ERR_STAT 8 = true
            ∧ OnlyRegs [(pgTen p, Off.ERR_STAT), (pgTen p, Off.ERR_INFO), (pgTen p, Off.IRQ_STAT)] s t)
        ∧ t.ten = s.ten ∧ MemSame s t))
  ∧ (∀ (s : State) (tid addr len : Nat) (bs : List Byte), StateInv s → tid = 0 ∨ tenState s tid ≠ .resetting → inWindow s tid addr len = true → bs.length = len →
      Reaches (exec (.ddrAccess tid addr len (some bs)) s) (fun t => t.resp = .done ∧ MemOutside addr len s t ∧ (∀ i < len, Memory.read t.mem (addr + i) = bs[i]?)
        ∧ OnlyRegs [] s t))
  ∧ (∀ (s : State) (tid addr len : Nat), tid = 0 ∨ tenState s tid ≠ .resetting → inWindow s tid addr len = true → readableMem s addr len = true →
      Reaches (exec (.ddrAccess tid addr len none) s) (fun t => t.resp = .bytes (readMem s addr len) ∧ OnlyRegs [] s t ∧ MemSame s t))
  ∧ (∀ (s : State) (tid addr len : Nat) (w : Option (List Byte)), (tid ≠ 0 ∧ tenState s tid = .resetting) ∨ inWindow s tid addr len = false →
      Reaches (exec (.ddrAccess tid addr len w) s) (fun t => t.resp = .error ∧ OnlyRegs [] s t ∧ MemSame s t))
  ∧ (∀ (s : State) (tid p : Nat), 1 ≤ p → p < 16 → judge s tid (pgTen p) Off.TEN_CMD = .ok → tenMode s = true → tenState s p ≠ .empty → tenState s p ≠ .resetting →
      Reaches (exec (.tenantReset tid p) s) (fun t => tenState t p = .resetting ∧ (tenOf t p).draining = List.range 13 ∧ (tenOf t p).pend = none ∧ (tenOf t p).job = none
        ∧ (tenOf t p).faultPend = false ∧ reg t (pgTen p) Off.TEN_RESULT = 0x400 ∧ (∀ u, u ≠ p → tenOf t u = tenOf s u) ∧ (∀ f ∈ t.fabric, f.tid ≠ p)))
  ∧ (∀ (s : State) (p row tm : Nat), p < 16 → tenState s p = .resetting → row ∈ (tenOf s p).draining → (tenOf s p).draining.filter (· ≠ row) ≠ [] →
      Reaches (exec (.engineDrainComplete p row tm) s) (fun t => tenOf t p = { tenOf s p with draining := (tenOf s p).draining.filter (· ≠ row), lastDrain := row }
        ∧ (∀ u, u ≠ p → tenOf t u = tenOf s u) ∧ OnlyRegs [] s t ∧ MemSame s t))
  ∧ ∀ (s : State) (p row tm : Nat), p < 16 → tenState s p = .resetting → row ∈ (tenOf s p).draining → (tenOf s p).draining.filter (· ≠ row) = [] →
      Reaches (exec (.engineDrainComplete p row tm) s) (fun t => tenState t p = .loaded ∧ reg t (pgTen p) Off.FAULT_RUN = 0 ∧ regBit t (pgTen p) Off.TEVT 1 = true
        ∧ regBit t pgTens Off.IRQ_STAT 1 = true ∧ regFld t (pgTen p) Off.TDRAIN_LAST 16 16 = row % 65536 ∧ (∀ u, u ≠ p → tenOf t u = tenOf s u))

/-- SAVE of a FROZEN tenant with keys and room begins its job, and SAVE_DONE leaves the image at MIG_ADDR, MIG_USED its length, and no other byte changed. RESTORE and RELOAD of a LOADED tenant begin their job if every check passes and otherwise show the first failing code; RESTORE_DONE makes the tenant FROZEN at the image's tick, RELOAD_DONE clears DIRTY, and each writes only the pieces of the tenant's own regions. (12_tenants.md R300; 12_tenants.md R302; 12_tenants.md R303; 12_tenants.md R306; 12_tenants.md R307; 12_tenants.md R310; 12_tenants.md R311) -/
def Obligations.tenant_migration : Prop :=
  (∀ (s : State) (p : Nat), 1 ≤ p → p < 16 → judge s 0 (pgTen p) Off.TEN_CMD = .ok → tenMode s = true → tenState s p = .frozen → (tenOf s p).job = none →
      0x800000000 ≤ migAddr s p → migAddr s p + migSize (payloadSections s p).flatten.length ≤ 0xC00000000 → migSize (payloadSections s p).flatten.length ≤ migLen s p →
      migKeyOk s 1 = true → migKeyOk s 2 = true → s.vlt.entropyOk = true →
      Reaches (exec (.save 0 p) s) (fun t => (tenOf t p).job = some ⟨5, migImage s p, (tenOf s p).freezeTick⟩ ∧ tenState t p = .frozen
        ∧ (∀ u, u ≠ p → tenOf t u = tenOf s u) ∧ OnlyRegs [] s t ∧ MemSame s t))
  ∧ (∀ (s : State) (p tm : Nat) (j : TenJob), StateInv s → p < 16 → (tenOf s p).job = some j → j.op = 5 →
      Reaches (exec (.saveDone p tm) s) (fun t => (tenOf t p).job = none ∧ (tenOf t p).lastStamp = j.freezeTick ∧ reg t (pgTen p) Off.MIG_USED = word j.data.length
        ∧ reg t (pgTen p) Off.TEN_RESULT = 0x500 ∧ regBit t (pgTen p) Off.TEVT 2 = true ∧ MemOutside (migAddr s p) j.data.length s t
        ∧ (∀ i < j.data.length, Memory.read t.mem (migAddr s p + i) = j.data[i]?) ∧ (∀ u, u ≠ p → tenOf t u = tenOf s u)
        ∧ OnlyRegs [(pgTen p, Off.MIG_USED), (pgTen p, Off.TEN_RESULT), (pgTen p, Off.TEVT)] s t))
  ∧ (∀ (s : State) (p : Nat), 1 ≤ p → p < 16 → judge s 0 (pgTen p) Off.TEN_CMD = .ok → tenMode s = true → tenState s p = .loaded → (tenOf s p).job = none →
      Reaches (exec (.restore 0 p) s) (fun t => (match restoreCheck s p with
          | .ok (b, f) => (tenOf t p).job = some ⟨6, b, f⟩ ∧ OnlyRegs [] s t
          | .error c => t.ten = s.ten ∧ reg t (pgTen p) Off.TEN_RESULT = word (c + 6 * 256) ∧ OnlyRegs [(pgTen p, Off.TEN_RESULT), (pgTen p, Off.TEVT)] s t)
        ∧ tenState t p = .loaded ∧ (∀ u, u ≠ p → tenOf t u = tenOf s u) ∧ MemSame s t))
  ∧ (∀ (s : State) (p tm : Nat) (j : TenJob), StateInv s → p < 16 → tenState s p = .loaded → (tenOf s p).job = some j → j.op = 6 → tenUnpowered s p = false →
      Reaches (exec (.restoreDone p tm) s) (fun t => tenState t p = .frozen ∧ (tenOf t p).job = none ∧ (tenOf t p).freezeTick = j.freezeTick ∧ (tenOf t p).restored = true
        ∧ (tenOf t p).lastStamp = j.freezeTick ∧ reg t (pgTen p) Off.TEN_RESULT = 0x600 ∧ regBit t (pgTen p) Off.TEVT 3 = true ∧ (∀ u, u ≠ p → tenOf t u = tenOf s u)
        ∧ ∀ k, (∀ a bs, .put a bs ∈ restoreOps s p (parsePayload (j.data.length / 64) j.data) → k < a ∨ a + bs.length ≤ k) → Memory.read t.mem k = Memory.read s.mem k))
  ∧ (∀ (s : State) (p : Nat), 1 ≤ p → p < 16 → judge s 0 (pgTen p) Off.TEN_CMD = .ok → tenMode s = true → tenState s p = .loaded → (tenOf s p).job = none →
      Reaches (exec (.reload 0 p) s) (fun t => (match reloadCheck s p with
          | .ok b => (tenOf t p).job = some ⟨7, b, 0⟩ ∧ OnlyRegs [] s t
          | .error c => t.ten = s.ten ∧ reg t (pgTen p) Off.TEN_RESULT = word (0x17 + 7 * 256 + c * 65536) ∧ OnlyRegs [(pgTen p, Off.TEN_RESULT), (pgTen p, Off.TEVT)] s t)
        ∧ tenState t p = .loaded ∧ (∀ u, u ≠ p → tenOf t u = tenOf s u) ∧ MemSame s t))
  ∧ ∀ (s : State) (p tm : Nat) (j : TenJob), StateInv s → p < 16 → (tenOf s p).job = some j → j.op = 7 → tenUnpowered s p = false →
      Reaches (exec (.reloadDone p tm) s) (fun t => (tenOf t p).job = none ∧ (tenOf t p).dirty = false ∧ tenState t p = tenState s p ∧ reg t (pgTen p) Off.TEN_RESULT = 0x700
        ∧ (∀ u, u ≠ p → tenOf t u = tenOf s u) ∧ OnlyRegs [(pgTen p, Off.TEN_RESULT), (pgTen p, Off.TEVT)] s t
        ∧ ∀ k, (∀ a bs, .put a bs ∈ reloadOps s p j.data → k < a ∨ a + bs.length ≤ k) → (∀ a n, .zero a n ∈ reloadOps s p j.data → k < a ∨ a + n ≤ k) →
            Memory.read t.mem k = Memory.read s.mem k)

/-- JOIN in CONFIGURE starts admission, FENCED; LEAVE closes the gate and returns to CONFIGURE; SOLO takes a solo Top, ACTIVE and with the gate open, at the next edge. HANDOVER and DRILL record the result of their check; HO_ABORT in time aborts. At H − 1 the Top holder checks its skew, at H it closes its gate, becomes standby and loads its copy; REVERT proposes a handover. A lease that expires, or a lost tick, closes the gate and fences; an expired copy, or a RESIGN, lets the standby claim a solo Top. A command out of its mode is refused with CMD_BAD. (13_redundant_pair.md R314; 13_redundant_pair.md R315; 13_redundant_pair.md R322; 13_redundant_pair.md R323; 13_redundant_pair.md R324; 13_redundant_pair.md R325; 13_redundant_pair.md R326; 13_redundant_pair.md R327; 13_redundant_pair.md R334; 13_redundant_pair.md R335; 13_redundant_pair.md R336; 13_redundant_pair.md R340) -/
def Obligations.pair_commands_and_edges : Prop :=
  (∀ (s : State) (tid : Nat), judge s tid pgPair0 Off.PAIR_CMD = .ok → mode s = mConfigure → s.pair.link = 0 →
      Reaches (exec (.join tid) s) (fun t => mode t = mFenced ∧ t.pair.link = 1 ∧ t.pair.role = .none ∧ t.pair.hello = none ∧ MemSame s t))
  ∧ (∀ (s : State) (tid : Nat) (i : Instr), i ∈ [.leave tid, .solo tid, .handover tid, .drill tid] → judge s tid pgPair0 Off.PAIR_CMD = .ok → mode s = mConfigure →
      Reaches (exec i s) (fun t => t.resp = .error ∧ regBit t pgPair0 Off.ERR_STAT 9 = true ∧ t.pair = s.pair
        ∧ OnlyRegs [(pgPair0, Off.ERR_STAT), (pgPair0, Off.ERR_INFO), (pgPair0, Off.IRQ_STAT)] s t ∧ MemSame s t))
  ∧ (∀ (s : State) (tid : Nat), judge s tid pgPair0 Off.PAIR_CMD = .ok → mode s = mShadow ∨ mode s = mFenced ∨ mode s = mMaintain ∨ (mode s = mTest ∧ holdsTop s = false) →
      Reaches (exec (.leave tid) s) (fun t => mode t = mConfigure ∧ t.pair.link = 0 ∧ t.pair.role = .none ∧ t.pair.copyAt = none ∧ gateOpen t = false))
  ∧ (∀ (s : State) (tid : Nat), judge s tid pgPair0 Off.PAIR_CMD = .ok → mode s = mShadow ∨ mode s = mFenced →
      Reaches (exec (.solo tid) s) (fun t => t.pair = { s.pair with soloPend := true } ∧ OnlyRegs [] s t ∧ MemSame s t))
  ∧ (∀ (s : State) (tm : Nat), s.pair.soloPend = true → s.tick.edgeAt = some tm → s.now ≤ tm → mode s = mShadow ∨ mode s = mFenced → holdsTop s = false →
      Reaches (exec (.soloTake tm) s) (fun t => t.pair.role = .solo ∧ mode t = mActive ∧ gateOpen t = true ∧ t.pair.soloPend = false))
  ∧ (∀ (s : State) (tid kind r : Nat) (i : Instr), (kind, i) ∈ [(0, .handover tid), (2, .drill tid)] → judge s tid pgPair0 Off.PAIR_CMD = .ok → hoMode s = true →
      hoCheck s kind (hoTick s) = r →
      Reaches (exec i s) (fun t => t.pair.ho = (if r = 3 then { s.pair.ho with result := 3 }
          else { PairHo.init with state := if r = 0 then 1 else 4, kind := kind, result := r, h := hoTick s })
        ∧ t.pair.role = s.pair.role ∧ t.pair.link = s.pair.link ∧ gateOpen t = gateOpen s))
  ∧ (∀ (s : State) (tid : Nat), judge s tid pgPair0 Off.PAIR_CMD = .ok → hoPending s = true → nowTick s + 1 < s.pair.ho.h →
      Reaches (exec (.hoAbort tid) s) (fun t => t.pair.ho.state = 5 ∧ t.pair.ho.result = 6 ∧ t.pair.role = s.pair.role))
  ∧ (∀ (s : State) (tid : Nat), judge s tid pgPair0 Off.PAIR_CMD = .ok → cfgDiff s = false →
      Reaches (exec (.fitSet tid) s) (fun t => t.pair = { s.pair with fit := true } ∧ OnlyRegs [] s t ∧ MemSame s t))
  ∧ (∀ (s : State) (tm : Nat), s.pair.ho.state = 2 → s.pair.ho.kind ≠ 2 → s.pair.role = .leased → s.tick.edgeAt = some tm → s.now ≤ tm → s.tick.count + 1 = s.pair.ho.h →
      Reaches (exec (.handoverPrecheck tm) s) (fun t => (skewOk s = true → t.pair = { s.pair with ho := { s.pair.ho with checked := true } })
        ∧ (skewOk s = false → t.pair.ho.state = 5 ∧ t.pair.ho.result = 6) ∧ t.pair.role = .leased ∧ gateOpen t = gateOpen s))
  ∧ (∀ (s : State) (tm : Nat), s.pair.ho.state = 2 → s.pair.ho.kind ≠ 2 → s.pair.ho.checked = true → s.pair.role = .leased → s.tick.edgeAt = some tm → s.now ≤ tm →
      s.tick.count = s.pair.ho.h → mode s ≠ mTest →
      Reaches (exec (.handoverRelease tm) s) (fun t => t.pair.role = .standby ∧ t.pair.ho.state = 3 ∧ mode t = mShadow ∧ gateOpen t = false
        ∧ t.pair.copyAt = some (tm + pairLease s * (if rateHz s = 4000 then 300480 else 250400))))
  ∧ (∀ (s : State) (tm : Nat), s.tick.edgeAt = some tm → s.now ≤ tm → ownUnit s = 0 → regBit s pgPair0 Off.PAIR_CFG 16 = true → hoPending s = false →
      regFld s pgPair0 Off.REVERT_HOLD 0 12 * rateHz s ≤ s.pair.revert →
      Reaches (exec (.revert tm) s) (fun t => t.pair.revert = 0 ∧ t.pair.role = s.pair.role
        ∧ (hoCheck (advance s tm) 1 (s.tick.count + 8) = 0 → t.pair.ho = { PairHo.init with state := 1, kind := 1, h := s.tick.count + 8 })))
  ∧ (∀ (s : State) (tm : Nat) (i : Instr), (i = .leaseExpiry tm ∧ s.pair.role = .leased ∧ s.tick.edgeAt = some tm ∧ s.now ≤ tm ∧ s.pair.expiry ≤ s.tick.count)
        ∨ (i = .tickLoss tm ∧ holdsTop s = true ∧ ∃ e, s.tick.edgeAt = some e ∧ e + (if rateHz s = 4000 then 300500 else 250500) ≤ tm) →
      Reaches (exec i s) (fun t => t.pair.role = .none ∧ mode t = mFenced ∧ gateOpen t = false))
  ∧ (∀ (s : State) (sense : Bool) (tm : Nat), Reaches (exec (.gateSense sense tm) s) (fun t => regBit t pgPair0 Off.GATE_STAT 1 = sense ∧ gateOpen t = gateOpen s
        ∧ (sense ≠ gateOpen s → regBit t pgPair0 Off.ERR_STAT 10 = true) ∧ t.pair = s.pair
        ∧ OnlyRegs [(pgPair0, Off.GATE_STAT), (pgPair0, Off.ERR_STAT), (pgPair0, Off.ERR_INFO), (pgPair0, Off.IRQ_STAT)] s t ∧ MemSame s t))
  ∧ (∀ (s : State) (tm c : Nat), s.pair.copyAt = some c → c ≤ tm → holdsTop s = false →
      Reaches (exec (.copyExpiry tm) s) (fun t => t.pair = { s.pair with copyOut := true } ∧ OnlyRegs [] s t ∧ MemSame s t))
  ∧ (∀ (s : State) (tm : Nat) (i : Instr), (i = .claim tm ∧ s.pair.copyAt.isSome = true ∧ 2 ≤ s.pair.copyEdges ∧ s.pair.grantSent = true ∧ s.pair.resigned = false)
        ∨ (i = .resignClaim tm ∧ s.pair.claimPend = true) → s.tick.edgeAt = some tm → s.now ≤ tm → mode s = mShadow → holdsTop s = false → unfitToClaim s = false →
      Reaches (exec i s) (fun t => t.pair.role = .solo ∧ mode t = mActive ∧ gateOpen t = true ∧ reg t pgPair1 (Off.PAIR_CNT + 28) = reg s pgPair1 (Off.PAIR_CNT + 28) + 1))
  ∧ (∀ (s : State) (tm f : Nat), s.pair.firstHello = some f → s.pair.link = 1 → s.tick.edgeAt = some tm → s.now ≤ tm → f + 16 ≤ s.tick.count →
      Reaches (exec (.admissionTimeout tm) s) (fun t => t.pair.link = 1 ∧ t.pair.firstHello = none ∧ t.pair.hello = none ∧ reg t pgPair0 Off.ADMIT_STAT = 6
        ∧ OnlyRegs [(pgPair0, Off.ADMIT_STAT), (pgPair0, Off.IRQ_STAT)] s t ∧ MemSame s t))
  ∧ (∀ (s : State) (tm : Nat), s.pair.link = 2 → s.tick.edgeAt = some tm → s.now ≤ tm → max s.pair.lastString s.pair.lastBackup + pairLease s + 2 < s.tick.count →
      Reaches (exec (.admissionEnd tm) s) (fun t => t.pair.link = 1 ∧ t.pair.role = s.pair.role ∧ t.pair.expiry = s.pair.expiry ∧ OnlyRegs [] s t ∧ MemSame s t))
  ∧ ∀ (s : State) (backup : Bool) (tm : Nat), s.pair.link ≠ 0 → (if backup then s.pair.backupDown else s.pair.stringDown) = false → s.tick.edgeAt = some tm → s.now ≤ tm →
      (if backup then s.pair.lastBackup else s.pair.lastString) + 2 < s.tick.count →
      Reaches (exec (.pathDown backup tm) s) (fun t => t.pair = (if backup then { s.pair with backupDown := true } else { s.pair with stringDown := true })
        ∧ regBit t pgPair0 Off.IRQ_STAT 4 = true ∧ OnlyRegs [(pgPair0, Off.IRQ_STAT)] s t ∧ MemSame s t)

/-- A message of an admitted peer with a wrong tag is dropped and counted, and changes nothing of the pair; a copy has no effect. A valid DIGEST or HEARTBEAT records the peer's flags, CFG, RUN and requests, and a standby in SHADOW answers the Top holder with a GRANT and loads its copy. GRANT extends a lease; HANDOVER is checked and answered, its ACK agrees or refuses it, RELEASE gives the Top, ABORT cancels; RESIGN leaves a Top holder solo and lets a standby claim. HELLO and a verified RESPONSE of the other letter with an equal CFG admit the peer (the tag function is opaque: assumption 9). (13_redundant_pair.md R315; 13_redundant_pair.md R319; 13_redundant_pair.md R320; 13_redundant_pair.md R323; 13_redundant_pair.md R324; 13_redundant_pair.md R327; 13_redundant_pair.md R334; 13_redundant_pair.md R335; 13_redundant_pair.md R337) -/
def Obligations.pair_messages : Prop :=
  (∀ (s : State) (path tm type : Nat) (msg : List Byte) (i : Instr), (type, i) ∈ [(0x10, .digest path msg tm), (0x11, .heartbeat path msg tm), (0x12, .grant path msg tm),
        (0x20, .handoverMessage path msg tm), (0x21, .handoverAck path msg tm), (0x22, .releaseMessage path msg tm), (0x23, .abortMessage path msg tm), (0x30, .resign path msg tm)] →
      s.pair.link = 2 → pairMode s = true → (parsePair msg).type = type →
      ((parsePair msg).tag ≠ pairTag (keyOf s.vlt 8) (parsePair msg).body →
        Reaches (exec i s) (fun t => t.pair = s.pair ∧ regBit t pgPair0 Off.ERR_STAT 11 = true ∧ reg t pgPair1 (Off.PAIR_CNT + 16) = reg s pgPair1 (Off.PAIR_CNT + 16) + 1
          ∧ OnlyRegs [(pgPair0, Off.ERR_STAT), (pgPair0, Off.ERR_INFO), (pgPair0, Off.IRQ_STAT), (pgPair1, Off.PAIR_CNT + 16)] s t ∧ MemSame s t))
      ∧ (PairValid s type msg → msgKey (parsePair msg) ∈ s.pair.seen →
        Reaches (exec i s) (fun t => t.pair.role = s.pair.role ∧ t.pair.ho = s.pair.ho ∧ t.pair.expiry = s.pair.expiry ∧ t.pair.seen = s.pair.seen ∧ t.pair.peerFlags = s.pair.peerFlags
          ∧ OnlyRegs [(pgPair0, Off.IRQ_STAT)] s t ∧ MemSame s t)))
  ∧ (∀ (s : State) (path tm type cfgAt : Nat) (msg : List Byte) (x : PairMsg) (i : Instr), (type, cfgAt, i) ∈ [(0x10, 0x1C, .digest path msg tm), (0x11, 4, .heartbeat path msg tm)] →
      PairValid s type msg → x = parsePair msg → msgKey x ∉ s.pair.seen →
      Reaches (exec i s) (fun t => t.pair.peerFlags = payNat x 2 2 ∧ t.pair.peerRun = payNat x 0 2 ∧ t.pair.peerCfg = some (payNat x cfgAt 4) ∧ t.pair.peerMode = x.mode
        ∧ msgKey x ∈ t.pair.seen
        ∧ (s.pair.role = .standby → s.pair.resigned = false → mode s = mShadow → x.mode ≠ mFenced → payNat x 2 2 % 2 = 1 → s.pair.granted = none → s.pair.ho.state = 0 →
            t.pair.granted = some x.tick ∧ t.pair.grantSent = true
              ∧ t.pair.copyAt = some (max s.now tm + pairLease s * (if rateHz s = 4000 then 300480 else 250400)))))
  ∧ (∀ (s : State) (path tm : Nat) (msg : List Byte) (x : PairMsg), PairValid s 0x12 msg → x = parsePair msg → msgKey x ∉ s.pair.seen → payNat x 0 8 ≤ s.tick.count →
      s.pair.role = .leased → mode s ≠ mFenced →
      Reaches (exec (.grant path msg tm) s) (fun t => t.pair.role = .leased ∧ t.pair.expiry = max s.pair.expiry (payNat x 0 8 + pairLease s + 1)
        ∧ OnlyRegs [(pgPair0, Off.IRQ_STAT), (pgPair1, Off.PAIR_CNT + 12)] s t ∧ MemSame s t))
  ∧ (∀ (s u : State) (path tm r : Nat) (msg : List Byte) (x : PairMsg), PairValid s 0x20 msg → x = parsePair msg → msgKey x ∉ s.pair.seen →
      u = updPair (fun p => { p with seen := p.seen ++ [msgKey x], peerMode := x.mode }) (pathValid path (advance s tm)) → hoCheck u (payNat x 0 1) (payNat x 8 8) = r →
      Reaches (exec (.handoverMessage path msg tm) s) (fun t => t.pair.ho = (if r = 3 then { s.pair.ho with result := 3 }
          else { PairHo.init with state := if r = 0 then 2 else 4, kind := payNat x 0 1, result := r, h := payNat x 8 8 }) ∧ t.pair.role = s.pair.role))
  ∧ (∀ (s : State) (path tm : Nat) (msg : List Byte) (x : PairMsg), PairValid s 0x21 msg → x = parsePair msg → msgKey x ∉ s.pair.seen → s.pair.ho.state = 1 →
      payNat x 8 8 = s.pair.ho.h →
      Reaches (exec (.handoverAck path msg tm) s) (fun t => (payNat x 1 1 = 0 → t.pair.ho = { s.pair.ho with state := 2 })
        ∧ (payNat x 1 1 ≠ 0 → t.pair.ho.state = 4 ∧ t.pair.ho.result = payNat x 1 1 % 16) ∧ t.pair.role = s.pair.role ∧ OnlyRegs [(pgPair0, Off.IRQ_STAT)] s t ∧ MemSame s t))
  ∧ (∀ (s : State) (path tm : Nat) (msg : List Byte) (x : PairMsg), PairValid s 0x22 msg → x = parsePair msg → msgKey x ∉ s.pair.seen → s.pair.ho.state = 2 → s.pair.ho.kind ≠ 2 →
      payNat x 0 8 = s.pair.ho.h → s.pair.role = .standby →
      Reaches (exec (.releaseMessage path msg tm) s) (fun t =>
        (s.tick.count < s.pair.ho.h → t.pair.ho = { s.pair.ho with released := true } ∧ t.pair.role = .standby ∧ gateOpen t = gateOpen s)
        ∧ (s.pair.ho.h ≤ s.tick.count → t.pair.role = .leased ∧ t.pair.expiry = s.pair.ho.h + 2 ∧ t.pair.ho.state = 3 ∧ gateOpen t = true ∧ (mode s ≠ mTest → mode t = mActive))))
  ∧ (∀ (s : State) (path tm : Nat) (msg : List Byte) (x : PairMsg), PairValid s 0x23 msg → x = parsePair msg → msgKey x ∉ s.pair.seen → hoPending s = true →
      payNat x 0 8 = s.pair.ho.h →
      Reaches (exec (.abortMessage path msg tm) s) (fun t => t.pair.ho.state = 5 ∧ t.pair.ho.result = 6 ∧ t.pair.role = s.pair.role ∧ OnlyRegs [(pgPair0, Off.IRQ_STAT)] s t ∧ MemSame s t))
  ∧ (∀ (s : State) (path tm : Nat) (msg : List Byte) (x : PairMsg), PairValid s 0x30 msg → x = parsePair msg → msgKey x ∉ s.pair.seen →
      Reaches (exec (.resign path msg tm) s) (fun t => regBit t pgPair0 Off.IRQ_STAT 7 = true
        ∧ (holdsTop s = true → t.pair.role = .solo ∧ t.pair.peerResigned = true)
        ∧ (holdsTop s = false → peerHasTop s = true → mode s = mShadow ∨ mode s = mTest → t.pair.claimPend = true ∧ t.pair.role = s.pair.role)
        ∧ OnlyRegs [(pgPair0, Off.IRQ_STAT)] s t ∧ MemSame s t))
  ∧ (∀ (s : State) (path tm : Nat) (msg : List Byte) (x : PairMsg), s.pair.link = 1 → pairMode s = true → x = parsePair msg → x.type = 0x01 → x.ver = 1 → x.lenOk = true →
      msgKey x ∉ s.pair.seen → s.pair.answered = none →
      Reaches (exec (.hello path msg tm) s) (fun t => t.pair.hello = some (x.payload.take 32, payNat x 32 4, payNat x 36 2, x.unit)
        ∧ t.pair.firstHello = some (s.pair.firstHello.getD s.tick.count) ∧ t.pair.link = 1 ∧ msgKey x ∈ t.pair.seen
        ∧ (slotPresent s.vlt 7 = false → s.pair.hello = none → reg t pgPair0 Off.ADMIT_STAT = 5)))
  ∧ ∀ (s : State) (path tm cfg flags unit : Nat) (msg : List Byte) (x : PairMsg), s.pair.link = 1 → pairMode s = true → x = parsePair msg → x.type = 0x02 → x.ver = 1 →
      x.lenOk = true → msgKey x ∉ s.pair.seen → slotPresent s.vlt 7 = true → (x.payload.drop 32).take 32 = s.pair.nonce →
      (x.payload.drop 64).take 32 = responseOf (keyOf s.vlt 7) s.pair.nonce (x.payload.take 32) x.unit →
      s.pair.hello = some (x.payload.take 32, cfg, flags, unit) → cfg = ownCfg s → unit ≠ ownUnit s →
      Reaches (exec (.response path msg tm) s) (fun t => t.pair.link = 2 ∧ t.pair.peerFlags = flags ∧ t.pair.peerCfg = some cfg ∧ reg t pgPair0 Off.ADMIT_STAT = 1
        ∧ slotPresent t.vlt 8 = true ∧ (mode s = mFenced → mode t = mShadow) ∧ (s.pair.role = .none → t.pair.role = .standby))

/-- PORT_POWER_UP sets EN_ACK; LINK_UP and LINK_DOWN set LINK_CHG and begin or end verification; VERIFY_TIMER and RESPOND_MPACKET carry verification on. A frame that has ended is counted, and the descriptor of a tenant frame reads SENT with HEAD behind it. An accepted transmit tail is stored and its descriptor checked: at a failure it completes with the status, otherwise its frame begins on a silent port. A tail that a rule refuses is answered with an access error and counted. A pause that ends releases its frame, and a pause is repeated. Nothing else changes. (14_network_ports.md R344; 14_network_ports.md R345; 14_network_ports.md R347; 14_network_ports.md R349; 14_network_ports.md R351; 14_network_ports.md R353; 14_network_ports.md R355; 14_network_ports.md R360; 14_network_ports.md R361) -/
def Obligations.links_and_transmission : Prop :=
  (∀ (s : State) (p tm : Nat), hasPort s p = true → regBit s (pgPort p) Off.CTRL 0 = true →
      Reaches (exec (.portPowerUp p tm) s) (fun t => regBit t (pgPort p) Off.STAT 0 = true ∧ regBit t pgClk Off.PLL_STAT (1 + pllOf s p) = true ∧ t.net = s.net
        ∧ OnlyRegs [(pgPort p, Off.STAT), (pgClk, Off.PLL_STAT)] s t ∧ MemSame s t))
  ∧ (∀ (s : State) (p tm : Nat), hasPort s p = true → regBit s (pgPort p) Off.CTRL 0 = true → regBit s (pgPort p) Off.STAT 0 = true → linkUp s p = false → Silent s p →
      Reaches (exec (.linkUp p tm) s) (fun t => linkUp t p = true ∧ regBit t (pgPort p) Off.LINK_STAT 1 = true ∧ regBit t (pgPort p) Off.IRQ_STAT 0 = true
        ∧ preemptActive t p = (preemptActive s p || (p != 4 && regBit s (pgPort p) Off.PCFG 12 && !(regBit s (pgPort p) Off.PCFG 13)))
        ∧ portOf t p = (if p ≠ 4 ∧ regBit s (pgPort p) Off.PCFG 12 = true ∧ regBit s (pgPort p) Off.PCFG 13 = true
            then { portOf s p with verifying := true, attempts := 0, verifyAt := tm } else portOf s p)
        ∧ (∀ q, q ≠ p → portOf t q = portOf s q) ∧ OnlyRegs [(pgPort p, Off.LINK_STAT), (pgPort p, Off.IRQ_STAT), (pgClk, Off.PLL_STAT)] s t ∧ MemSame s t))
  ∧ (∀ (s : State) (p tm : Nat), hasPort s p = true → linkUp s p = true → Silent s p →
      Reaches (exec (.linkDown p tm) s) (fun t => reg t (pgPort p) Off.LINK_STAT = reg s (pgPort p) Off.LINK_STAT &&& 0xD0 ∧ linkUp t p = false
        ∧ regBit t (pgPort p) Off.IRQ_STAT 0 = true ∧ portOf t p = { portOf s p with verifying := false } ∧ (∀ q, q ≠ p → portOf t q = portOf s q)
        ∧ OnlyRegs [(pgPort p, Off.LINK_STAT), (pgPort p, Off.IRQ_STAT)] s t ∧ MemSame s t))
  ∧ (∀ (s : State) (p tm : Nat), (portOf s p).verifying = true → (portOf s p).verifyAt ≤ tm →
      Reaches (exec (.verifyTimer p tm) s) (fun t =>
        ((portOf s p).attempts < 3 → portOf t p = { portOf s p with attempts := (portOf s p).attempts + 1, verifyAt := tm + verifyTime s p } ∧ OnlyRegs [] s t)
        ∧ (3 ≤ (portOf s p).attempts → portOf t p = { portOf s p with verifying := false } ∧ regBit t (pgPort p) Off.IRQ_STAT 2 = true ∧ OnlyRegs [(pgPort p, Off.IRQ_STAT)] s t)
        ∧ (∀ q, q ≠ p → portOf t q = portOf s q) ∧ MemSame s t))
  ∧ (∀ (s : State) (p tm : Nat), (portOf s p).verifying = true → 0 < (portOf s p).attempts →
      Reaches (exec (.respondMpacket p tm) s) (fun t => (portOf t p).verifying = false ∧ (portOf t p).queue = (portOf s p).queue ∧ preemptActive t p = true
        ∧ regBit t (pgPort p) Off.IRQ_STAT 1 = true ∧ (∀ q, q ≠ p → portOf t q = portOf s q)
        ∧ OnlyRegs [(pgPort p, Off.LINK_STAT), (pgPort p, Off.IRQ_STAT)] s t ∧ MemSame s t))
  ∧ (∀ (s : State) (p tm : Nat) (w : TxWire), hasPort s p = true → (portOf s p).wire = some w → w.cut = none → w.dead = false → w.frame.src ∈ [.pair, .forwarded, .supervision] →
      w.endAt ≤ 25 * tm → (portOf s p).queue = [] → (portOf s p).pauses = [] → (portOf s p).preempted = none →
      Reaches (exec (.txFrameEnd p tm) s) (fun t => portOf t p = { portOf s p with wire := none }
        ∧ reg t (pgPort p) (Off.PCNT + 4 * cTxOk) = reg s (pgPort p) (Off.PCNT + 4 * cTxOk) + 1 ∧ (∀ q, q ≠ p → portOf t q = portOf s q)
        ∧ OnlyRegs [(pgPort p, Off.PCNT + 4 * cTxOk)] s t ∧ MemSame s t))
  ∧ (∀ (s : State) (p tm n d : Nat) (st : Bool) (w : TxWire), StateInv s → p < numPorts s.variant → n < 16 → (portOf s p).wire = some w → w.cut = none → w.dead = false →
      w.frame.src = .ring n d st → w.endAt ≤ 25 * tm → (portOf s p).queue = [] → (portOf s p).pauses = [] → (portOf s p).preempted = none → tget [] (portOf s p).done n = [] →
      ringHead s (txRing p n) = d → ringSize s (txRing p n) ≤ 4096 → inWindow s n (ringDesc s (txRing p n) d) 32 = true →
      Reaches (exec (.txFrameEnd p tm) s) (fun t => Memory.read t.mem (ringDesc s (txRing p n) d + 0x10) = some 1
        ∧ (st = false → ∀ i < 8, Memory.read t.mem (ringDesc s (txRing p n) d + 0x18 + i) = some 0)
        ∧ ringHead t (txRing p n) = (d + 1) % ringSize s (txRing p n) ∧ regBit t (pgPort p) (Off.DB_EVT + 0x10 * n) 1 = true ∧ (portOf t p).wire = none
        ∧ reg t (pgPort p) (Off.PCNT + 4 * cTxOk) = reg s (pgPort p) (Off.PCNT + 4 * cTxOk) + 1 ∧ (∀ q, q ≠ p → portOf t q = portOf s q)
        ∧ OnlyRegs [(pgPort p, Off.PCNT + 4 * cTxOk), (pgPort p, Off.DB_HEADS + 0x10 * n), (pgPort p, Off.DB_EVT + 0x10 * n)] s t
        ∧ MemOutside (ringDesc s (txRing p n) d + 0x10) 16 s t))
  ∧ (∀ (s : State) (tid p n : Nat) (data : Word), p < 4 → n < 16 → judge s tid (pgPort p) (Off.DB_TX_TAIL + 0x10 * n) = .ok → (tenOf s n).state ≠ .resetting →
      Reaches (exec (.txTail tid p n data) s) (fun t =>
        (tailResult s (txRing p n) (fld data 0 12) = 1 → t.resp = .error ∧ regBit t (pgPort p) Off.ERR_STAT 11 = true ∧ t.net = s.net ∧ MemSame s t
            ∧ OnlyRegs [(pgPort p, Off.TX_REFUSED + 0x20 * n), (pgPort p, Off.ERR_STAT), (pgPort p, Off.ERR_INFO), (pgPort p, Off.IRQ_STAT)] s t)
        ∧ (tailResult s (txRing p n) (fld data 0 12) = 2 → t.resp = .error ∧ regBit t (pgTen n) Off.TEVT 6 = true ∧ t.net = s.net ∧ MemSame s t
            ∧ OnlyRegs [(pgPort p, Off.TX_REFUSED + 0x20 * n), (pgTen n, Off.TEVT)] s t)
        ∧ (tailResult s (txRing p n) (fld data 0 12) ≠ 0 →
            reg t (pgPort p) (Off.TX_REFUSED + 0x20 * n) = reg s (pgPort p) (Off.TX_REFUSED + 0x20 * n) + 1)))
  ∧ (∀ (s : State) (tid p n : Nat) (data : Word), StateInv s → p < 4 → n < 16 → judge s tid (pgPort p) (Off.DB_TX_TAIL + 0x10 * n) = .ok → (tenOf s n).state ≠ .resetting →
      tailResult s (txRing p n) (fld data 0 12) = 0 → ringHead s (txRing p n) = ringTail s (txRing p n) →
      fld data 0 12 = (ringTail s (txRing p n) + 1) % ringSize s (txRing p n) → 16 ≤ ringSize s (txRing p n) → ringTail s (txRing p n) < ringSize s (txRing p n) →
      tget [] (portOf s p).done n = [] → inWindow s n (ringDesc s (txRing p n) (ringTail s (txRing p n))) 32 = true →
      Reaches (exec (.txTail tid p n data) s) (fun t => t.resp = .done ∧ ringTail t (txRing p n) = fld data 0 12
        ∧ match txCheck s (txRing p n) p (ringTail s (txRing p n)) with
          | .error st => Memory.read t.mem (ringDesc s (txRing p n) (ringTail s (txRing p n)) + 0x10) = some (BitVec.ofNat 8 st) ∧ ringHead t (txRing p n) = fld data 0 12
              ∧ regBit t (pgPort p) (Off.DB_EVT + 0x10 * n) 1 = true ∧ (portOf t p).queue = (portOf s p).queue
              ∧ OnlyRegs [(pgPort p, Off.DB_TX_TAIL + 0x10 * n), (pgPort p, Off.DB_HEADS + 0x10 * n), (pgPort p, Off.DB_EVT + 0x10 * n)] s t
              ∧ MemOutside (ringDesc s (txRing p n) (ringTail s (txRing p n)) + 0x10) 16 s t
          | .ok (f, q, st, single) => Silent s p → (portOf s p).pauseUntil = none → redMode s (p / 2) = 0 ∨ single = true →
              OnWire t p ⟨q, f, .ring n (ringTail s (txRing p n)) st⟩ ∧ ringHead t (txRing p n) = ringHead s (txRing p n)
              ∧ (∀ r, r ≠ p → portOf t r = portOf s r) ∧ OnlyRegs [(pgPort p, Off.DB_TX_TAIL + 0x10 * n)] s t ∧ MemSame s t))
  ∧ (∀ (s : State) (tid p n : Nat) (data : Word), p < 4 → n < 16 → judge s tid (pgPort p) (Off.DB_RX_TAIL + 0x10 * n) = .ok → (tenOf s n).state ≠ .resetting →
      Reaches (exec (.rxTail tid p n data) s) (fun t =>
        (tailResult s (rxRing p n) (fld data 0 12) = 0 → t.resp = .done ∧ ringTail t (rxRing p n) = fld data 0 12 ∧ OnlyRegs [(pgPort p, Off.DB_RX_TAIL + 0x10 * n)] s t)
        ∧ (tailResult s (rxRing p n) (fld data 0 12) = 1 → t.resp = .error ∧ regBit t (pgPort p) Off.ERR_STAT 11 = true
            ∧ OnlyRegs [(pgPort p, Off.ERR_STAT), (pgPort p, Off.ERR_INFO), (pgPort p, Off.IRQ_STAT)] s t)
        ∧ (tailResult s (rxRing p n) (fld data 0 12) = 2 → t.resp = .error ∧ regBit t (pgTen n) Off.TEVT 6 = true ∧ OnlyRegs [(pgTen n, Off.TEVT)] s t)
        ∧ t.net = s.net ∧ MemSame s t))
  ∧ (∀ (s : State) (p tm e : Nat) (f : TxFrame), s.now ≤ tm → (portOf s p).pauseUntil = some e → e ≤ 25 * tm → (portOf s p).queue = [f] → f.queue < 8 → f.src = .forwarded →
      (portOf s p).pauses = [] → (portOf s p).wire = none → (portOf s p).preempted = none →
      Reaches (exec (.pauseTimerExpiry p tm) s) (fun t => (portOf t p).pauseUntil = none ∧ regBit t (pgPort p) Off.LINK_STAT 6 = false ∧ OnWire t p f
        ∧ (∀ q, q ≠ p → portOf t q = portOf s q) ∧ OnlyRegs [(pgPort p, Off.LINK_STAT)] s t ∧ MemSame s t))
  ∧ (∀ (s : State) (p tm e : Nat), (portOf s p).pauseUntil = some e → e ≤ 25 * tm → Silent s p →
      Reaches (exec (.pauseTimerExpiry p tm) s) (fun t => portOf t p = { portOf s p with pauseUntil := none } ∧ regBit t (pgPort p) Off.LINK_STAT 6 = false
        ∧ (∀ q, q ≠ p → portOf t q = portOf s q) ∧ OnlyRegs [(pgPort p, Off.LINK_STAT)] s t ∧ MemSame s t))
  ∧ ∀ (s : State) (p tm : Nat), p < 4 → s.now ≤ tm → (portOf s p).pausing = true → rxLo s p < fifoLevel s p →
      (portOf s p).pauseAt + pauseTime s p * 32 * octet s p ≤ 25 * tm →
      Reaches (exec (.pauseRepeat p tm) s) (fun t =>
        (Silent s p → OnWire t p (pauseFrame s p (pauseTime s p)) ∧ (portOf t p).pauseAt = 25 * tm ∧ (portOf t p).pauses = [] ∧ OnlyRegs [] s t ∧ MemSame s t)
        ∧ (∀ w, (portOf s p).wire = some w → 25 * tm < w.endAt →
            portOf t p = { portOf s p with pauses := (portOf s p).pauses ++ [pauseTime s p], pauseAt := 25 * tm } ∧ OnlyRegs [] s t ∧ MemSame s t))

/-- A bad frame is counted and dropped. A good frame goes to its consumer: a sampled value or GOOSE frame is handed on, a pause sets the timer, any other enters the FIFO for its ring, or is counted where no ring takes it. On a PRP pair the second copy of a frame is discarded and the first handed on with its LAN. A frame at the head of the FIFO is written to its buffer and descriptor, and HEAD advances. A ring is enabled if it is good, and its disabling completes what it holds. RED_CFG is written or refused, a supervision frame goes out on both ports, and a node not seen for long is forgotten. (14_network_ports.md R350; 14_network_ports.md R352; 14_network_ports.md R354; 14_network_ports.md R356; 14_network_ports.md R357; 14_network_ports.md R359; 14_network_ports.md R360; 14_network_ports.md R362; 14_network_ports.md R364; 14_network_ports.md R366) -/
def Obligations.rings_reception_and_pairs : Prop :=
  (∀ (s : State) (p tm i : Nat) (f : List Byte) (err : RxError), hasPort s p = true → linkUp s p = true →
      (List.range 5).find? (fun i => rxFlags s p f err / 2 ^ i % 2 = 1) = some i → p = 4 ∨ regBit s (pgPort p) Off.PCFG 5 = false →
      Reaches (exec (.frameReceived p f err tm) s) (fun t => reg t (pgPort p) (Off.PCNT + 4 * (cRxFcs + i)) = reg s (pgPort p) (Off.PCNT + 4 * (cRxFcs + i)) + 1
        ∧ t.net = s.net ∧ t.red = s.red ∧ t.handed = s.handed ∧ OnlyRegs [(pgPort p, Off.PCNT + 4 * (cRxFcs + i))] s t ∧ MemSame s t))
  ∧ (∀ (s : State) (p tm : Nat) (f : List Byte), p < 4 → hasPort s p = true → linkUp s p = true → rxFlags s p f .none = 0 → redMode s (p / 2) = 0 →
      (∀ g < 2, ¬(redBox s g = true ∧ redIl s g = p)) → (etherHeader f).2.2.2.1 = 0x88BA ∨ (etherHeader f).2.2.2.1 = 0x88B8 →
      Reaches (exec (.frameReceived p f .none tm) s) (fun t => (∃ st c, t.handed = s.handed ++ [⟨p, f, st, c, 0⟩])
        ∧ reg t (pgPort p) (Off.PCNT + 4 * cRxOk) = reg s (pgPort p) (Off.PCNT + 4 * cRxOk) + 1 ∧ t.net = s.net ∧ t.red = s.red
        ∧ OnlyRegs [(pgPort p, Off.PCNT + 4 * cRxOk)] s t ∧ MemSame s t))
  ∧ (∀ (s : State) (p tm : Nat) (f : List Byte), p < 4 → hasPort s p = true → linkUp s p = true → rxFlags s p f .none = 0 → redMode s (p / 2) = 0 →
      (∀ g < 2, ¬(redBox s g = true ∧ redIl s g = p)) → (etherHeader f).2.2.2.1 = 0x8808 → beNat ((etherHeader f).2.2.2.2.take 2) = 1 →
      (etherHeader f).1 = 0x0180C2000001 ∨ (etherHeader f).1 = portAddr s p → regFld s (pgPort p) Off.PCFG 8 2 ≠ 0 → Silent s p →
      Reaches (exec (.frameReceived p f .none tm) s) (fun t =>
        portOf t p = { portOf s p with pauseUntil := pauseEnd (beNat (((etherHeader f).2.2.2.2.drop 2).take 2)) (25 * tm) (octet s p) }
        ∧ regBit t (pgPort p) Off.LINK_STAT 6 = decide (beNat (((etherHeader f).2.2.2.2.drop 2).take 2) ≠ 0)
        ∧ reg t (pgPort p) (Off.PCNT + 4 * cRxPause) = reg s (pgPort p) (Off.PCNT + 4 * cRxPause) + 1 ∧ t.handed = s.handed ∧ (∀ q, q ≠ p → portOf t q = portOf s q)
        ∧ OnlyRegs [(pgPort p, Off.PCNT + 4 * cRxOk), (pgPort p, Off.PCNT + 4 * cRxPause), (pgPort p, Off.LINK_STAT)] s t ∧ MemSame s t))
  ∧ (∀ (s : State) (p tm n : Nat) (f : List Byte), p < 4 → hasPort s p = true → linkUp s p = true → rxFlags s p f .none = 0 → redMode s (p / 2) = 0 →
      (∀ g < 2, ¬(redBox s g = true ∧ redIl s g = p)) → (etherHeader f).2.2.2.1 ∉ [0x8808, 0x88FB, 0x88B5, 0x88F7, 0x88BA, 0x88B8] →
      (List.range 32).find? (fun e => clMatch s p e (etherHeader f).1 (etherHeader f).2.1 (etherHeader f).2.2.2.1) = none → regFld s (pgPort p) Off.PCFG 20 4 = n →
      fifoLevel s p + f.length ≤ 65536 →
      Reaches (exec (.frameReceived p f .none tm) s) (fun t => t.handed = s.handed ∧ MemSame s t
        ∧ (regBit s (pgPort p) Off.PCFG 24 = true → reg t (pgPort p) (Off.PCNT + 4 * cRxUnsteered) = reg s (pgPort p) (Off.PCNT + 4 * cRxUnsteered) + 1 ∧ t.net = s.net
            ∧ OnlyRegs [(pgPort p, Off.PCNT + 4 * cRxOk), (pgPort p, Off.PCNT + 4 * cRxUnsteered)] s t)
        ∧ (regBit s (pgPort p) Off.PCFG 24 = false → ringEn s (rxRing p n) = true → 0 < freeDescs s p n → regBit s (pgPort p) Off.PCFG 10 = false →
            (portOf t p).fifo.map (fun x => (x.bytes, x.tids, x.entry)) = (portOf s p).fifo.map (fun x => (x.bytes, x.tids, x.entry)) ++ [(f, [n], 0x3F)]
            ∧ OnlyRegs [(pgPort p, Off.PCNT + 4 * cRxOk)] s t)
        ∧ (regBit s (pgPort p) Off.PCFG 24 = false → ringEn s (rxRing p n) = false ∨ freeDescs s p n = 0 →
            reg t (pgPort p) (Off.RX_NODESC + 0x20 * n) = reg s (pgPort p) (Off.RX_NODESC + 0x20 * n) + 1 ∧ regBit t (pgPort p) (Off.DB_EVT + 0x10 * n) 2 = true ∧ t.net = s.net
            ∧ OnlyRegs [(pgPort p, Off.PCNT + 4 * cRxOk), (pgPort p, Off.RX_NODESC + 0x20 * n), (pgPort p, Off.DB_EVT + 0x10 * n)] s t)))
  ∧ (∀ (s : State) (p tm seq : Nat) (f : List Byte), p < 4 → hasPort s p = true → linkUp s p = true → rxFlags s p f .none = 0 → redMode s (p / 2) = 1 →
      trailerOf f = some (seq, 0xA + p % 2) → (etherHeader (f.take (f.length - 6))).2.2.2.1 = 0x88BA → (liveKeys s (p / 2) tm (redOf s (p / 2)).keys).length < 4096 →
      Reaches (exec (.frameReceived p f .none tm) s) (fun t => t.net = s.net ∧ MemSame s t
        ∧ reg t pgRed (Off.RED_CNT0 + 0x40 * (p / 2) + 4 * (3 + p % 2)) = reg s pgRed (Off.RED_CNT0 + 0x40 * (p / 2) + 4 * (3 + p % 2)) + 1
        ∧ ((liveKeys s (p / 2) tm (redOf s (p / 2)).keys).any (fun k => k.1 = beNat ((f.drop 6).take 6) && k.2.1 = seq) = true → t.handed = s.handed
            ∧ reg t pgRed (Off.RED_CNT0 + 0x40 * (p / 2)) = reg s pgRed (Off.RED_CNT0 + 0x40 * (p / 2)) + 1
            ∧ (redOf t (p / 2)).keys = liveKeys s (p / 2) tm (redOf s (p / 2)).keys)
        ∧ ((liveKeys s (p / 2) tm (redOf s (p / 2)).keys).any (fun k => k.1 = beNat ((f.drop 6).take 6) && k.2.1 = seq) = false →
            (∃ st c, t.handed = s.handed ++ [⟨p, f.take (f.length - 6), st, c, p % 2 + 1⟩])
            ∧ (redOf t (p / 2)).keys = liveKeys s (p / 2) tm (redOf s (p / 2)).keys ++ [(beNat ((f.drop 6).take 6), seq, tm)]
            ∧ reg t pgRed (Off.RED_CNT0 + 0x40 * (p / 2)) = reg s pgRed (Off.RED_CNT0 + 0x40 * (p / 2)))
        ∧ OnlyRegs [(pgPort p, Off.PCNT + 4 * cRxOk), (pgRed, Off.RED_CNT0 + 0x40 * (p / 2)), (pgRed, Off.RED_CNT0 + 0x40 * (p / 2) + 4 * (3 + p % 2))] s t))
  ∧ (∀ (s : State) (p tm n : Nat) (f : RxFrame) (rest : List RxFrame) (w : List Byte), StateInv s → n < 16 → f.ringPort < 4 → (portOf s p).fifo = f :: rest → f.tids = [n] →
      f.flags = 0 → regBit s (pgPort p) Off.PCFG 6 = false → regBit s (pgPort p) Off.PCFG 10 = false → ringSize s (rxRing f.ringPort n) ≤ 4096 →
      inWindow s n (ringDesc s (rxRing f.ringPort n) (ringHead s (rxRing f.ringPort n))) 32 = true →
      dmaRead s n (ringDesc s (rxRing f.ringPort n) (ringHead s (rxRing f.ringPort n))) 8 = some w → inWindow s n (leNat (w.take 6) / 64 * 64) f.bytes.length = true →
      leNat (w.take 6) / 64 * 64 + f.bytes.length ≤ ringDesc s (rxRing f.ringPort n) (ringHead s (rxRing f.ringPort n)) + 8
        ∨ ringDesc s (rxRing f.ringPort n) (ringHead s (rxRing f.ringPort n)) + 24 ≤ leNat (w.take 6) / 64 * 64 →
      Reaches (exec (.rxDescriptorComplete p tm) s) (fun t => (∀ i < f.bytes.length, Memory.read t.mem (leNat (w.take 6) / 64 * 64 + i) = f.bytes[i]?)
        ∧ Memory.read t.mem (ringDesc s (rxRing f.ringPort n) (ringHead s (rxRing f.ringPort n)) + 0xA) = some 1
        ∧ (∀ k, (k < leNat (w.take 6) / 64 * 64 ∨ leNat (w.take 6) / 64 * 64 + f.bytes.length ≤ k) →
            (k < ringDesc s (rxRing f.ringPort n) (ringHead s (rxRing f.ringPort n)) + 8 ∨ ringDesc s (rxRing f.ringPort n) (ringHead s (rxRing f.ringPort n)) + 24 ≤ k) →
            Memory.read t.mem k = Memory.read s.mem k)
        ∧ ringHead t (rxRing f.ringPort n) = (ringHead s (rxRing f.ringPort n) + 1) % ringSize s (rxRing f.ringPort n)
        ∧ regBit t (pgPort f.ringPort) (Off.DB_EVT + 0x10 * n) 0 = true ∧ portOf t p = { portOf s p with fifo := rest } ∧ (∀ q, q ≠ p → portOf t q = portOf s q)
        ∧ OnlyRegs [(pgPort f.ringPort, Off.DB_HEADS + 0x10 * n), (pgPort f.ringPort, Off.DB_EVT + 0x10 * n)] s t))
  ∧ (∀ (s : State) (tid pg off p n : Nat) (tx : Bool) (r : Ring) (data : Word), ringAt pg off = some (p, n, tx) → r = (if tx then txRing p n else rxRing p n) →
      judge s tid pg off = .ok → bit data 0 = true →
      Reaches (exec (.ringEnable tid pg off data) s) (fun t => t.net = s.net ∧ MemSame s t
        ∧ (ringEn s r = true → fld data 4 4 ≠ regFld s pg off 4 4 → t.resp = .error ∧ regBit t pg Off.ERR_STAT 8 = true
            ∧ OnlyRegs [(pg, Off.ERR_STAT), (pg, Off.ERR_INFO), (pg, Off.IRQ_STAT)] s t)
        ∧ (ringEn s r = false → ringGood s r data = false → t.resp = .error ∧ regBit t pg Off.ERR_STAT 10 = true
            ∧ OnlyRegs [(pg, Off.ERR_STAT), (pg, Off.ERR_INFO), (pg, Off.IRQ_STAT)] s t)
        ∧ (ringEn s r = false → ringGood s r data = true → t.resp = .done ∧ ringEn t r = true ∧ regBit t pg off 1 = true ∧ ringSize t r = 2 ^ fld data 4 4
            ∧ ringHead t r = ringHead s r % 2 ^ fld data 4 4 ∧ ringTail t r = ringTail s r % 2 ^ fld data 4 4
            ∧ OnlyRegs [(pg, off), (pg, r.head), (pg, r.tail)] s t)))
  ∧ (∀ (s : State) (tid pg off p n : Nat) (tx : Bool) (r : Ring) (data : Word), StateInv s → ringAt pg off = some (p, n, tx) → r = (if tx then txRing p n else rxRing p n) →
      judge s tid pg off = .ok → ringEn s r = true → bit data 0 = false → fld data 4 4 = regFld s pg off 4 4 → (tx = true → Silent s p ∧ ringOcc s r = 0) →
      inWindow s n (ringBase s r) (32 * ringSize s r) = true → ringSize s r ≤ 4096 → ringHead s r < ringSize s r → ringTail s r < ringSize s r →
      Reaches (exec (.ringDisable tid pg off data) s) (fun t => t.resp = .done ∧ ringEn t r = false ∧ regBit t pg off 1 = regBit s pg off 1 ∧ ringHead t r = ringTail s r
        ∧ ringTail t r = ringTail s r ∧ MemOutside (ringBase s r) (32 * ringSize s r) s t
        ∧ (tx = false → ∀ d ∈ ringOwned s r, Memory.read t.mem (ringDesc s r d + 0xA) = some 3)
        ∧ (ringOcc s r = 0 → OnlyRegs [(pg, off)] s t ∧ MemSame s t)
        ∧ (0 < ringOcc s r → regBit t pg (Off.DB_EVT + 0x10 * n) 0 = true ∧ OnlyRegs [(pg, off), (pg, r.head), (pg, Off.DB_EVT + 0x10 * n)] s t)))
  ∧ (∀ (s : State) (pg off tm p n : Nat) (tx : Bool) (r : Ring), ringAt pg off = some (p, n, tx) → r = (if tx then txRing p n else rxRing p n) → ringEn s r = false →
      ringOcc s r = 0 → (tx = true → Silent s p) →
      Reaches (exec (.ringDisableDone pg off tm) s) (fun t => reg t pg off = reg s pg off &&& ~~~2 ∧ t.net = s.net ∧ OnlyRegs [(pg, off)] s t ∧ MemSame s t))
  ∧ (∀ (s : State) (tid g : Nat) (data : Word), g < 2 → judge s tid pgRed (Off.RED_CFG + 4 * g) = .ok →
      Reaches (exec (.redCfgWrite tid g data) s) (fun t => t.red = s.red ∧ t.net = s.net ∧ MemSame s t
        ∧ (s.variant ≠ .wln4820 ∨ (fld data 0 3 ∉ [2, 3, 4] ∧ (g = 0 ∨ fld data 0 3 = 0)) →
            (redCfgBad s g data = false → t.resp = .done ∧ redMode t g = fld data 0 3 ∧ redIl t g = fld data 4 3
              ∧ regFld t pgRed (Off.RED_CFG + 4 * g) 16 10 = fld data 16 10 ∧ OnlyRegs [(pgRed, Off.RED_CFG + 4 * g)] s t)
            ∧ (redCfgBad s g data = true → t.resp = .error ∧ regBit t pgRed Off.ERR_STAT 8 = true
              ∧ OnlyRegs [(pgRed, Off.ERR_STAT), (pgRed, Off.ERR_INFO), (pgRed, Off.IRQ_STAT)] s t))))
  ∧ (∀ (s : State) (g tm : Nat), g < 2 → redMode s g ≠ 0 → redBox s g = false → regBit s pgRed (Off.SUP_CFG + 4 * g) 0 = true →
      (∀ l, (redOf s g).lastSup = some l → l + regFld s pgRed (Off.SUP_CFG + 4 * g) 16 10 * 120000000 ≤ tm) →
      Silent s (2 * g) → Silent s (2 * g + 1) → (portOf s (2 * g)).pauseUntil = none → (portOf s (2 * g + 1)).pauseUntil = none → 38 ≤ maxLen s (2 * g) →
      Reaches (exec (.supervisionTimer g tm) s) (fun t => (∃ f, OnWire t (2 * g) ⟨7, f, .supervision⟩) ∧ (∃ f, OnWire t (2 * g + 1) ⟨7, f, .supervision⟩)
        ∧ redOf t g = { redOf s g with lastSup := some tm, supSeq := ((redOf s g).supSeq + 1) % 65536, seqNr := ((redOf s g).seqNr + 1) % 65536 }
        ∧ (∀ h, h ≠ g → redOf t h = redOf s h) ∧ reg t pgRed (Off.RED_CNT0 + 0x40 * g + 32) = reg s pgRed (Off.RED_CNT0 + 0x40 * g + 32) + 1
        ∧ OnlyRegs [(pgRed, Off.RED_CNT0 + 0x40 * g + 32)] s t ∧ MemSame s t))
  ∧ (∀ (s : State) (g n tm a seen : Nat), (n, a, seen) ∈ (redOf s g).proxy → seen + regFld s pgRed (Off.NODE_CFG + 4 * g) 0 12 * 1200000000 ≤ tm →
      Reaches (exec (.nodeForget g n true tm) s) (fun t => redOf t g = { redOf s g with proxy := tdel (redOf s g).proxy n } ∧ (∀ h, h ≠ g → redOf t h = redOf s h)
        ∧ OnlyRegs [] s t ∧ MemSame s t))
  ∧ ∀ (s : State) (g n tm : Nat) (x : RedNode), (n, x) ∈ (redOf s g).nodes → x.seen + regFld s pgRed (Off.NODE_CFG + 4 * g) 0 12 * 1200000000 ≤ tm →
      Reaches (exec (.nodeForget g n false tm) s) (fun t => redOf t g = { redOf s g with nodes := tdel (redOf s g).nodes n } ∧ (∀ h, h ≠ g → redOf t h = redOf s h)
        ∧ regBit t pgRed Off.IRQ_STAT 1 = true ∧ OnlyRegs [(pgRed, Off.IRQ_STAT)] s t ∧ MemSame s t)

/-- START loads the set value and arms the step; STOP holds the value; SET is accepted in STOPPED and FREERUN, for TB0 only while the generator is off; SLEW needs a running time base. A switch that waits is judged at the edge and flips REF or records its refusal. A time base without measurements enters HOLDOVER with RATE = I, and after HOLD_MAX is no longer SYNCED. TICK_CFG takes a new rate only while off and in PROVISION or CONFIGURE. A PPS edge is stamped and measures the time bases that name it, and one too early is counted. A compare unit that is due fires and rearms or disarms; PPS outputs rise by their MODE and return low. (02_tick_contract.md R49; 15_time_unit.md R377; 15_time_unit.md R378; 15_time_unit.md R379; 15_time_unit.md R380; 15_time_unit.md R381; 15_time_unit.md R382; 15_time_unit.md R383; 15_time_unit.md R384; 15_time_unit.md R385; 15_time_unit.md R386) -/
def Obligations.time_base_commands : Prop :=
  (∀ (s : State) (tid d : Nat), d < 5 → judge s tid pgTime1 (Off.TB_CMD + 0x40 * d) = .ok →
      Reaches (exec (.tbStart tid d) s) (fun t => t.resp = .done ∧ MemSame s t ∧ (∀ e, e ≠ d → tbOf t e = tbOf s e)
        ∧ ((tbOf s d).state = .stopped → (tbOf t d).state = .freerun ∧ (tbOf t d).base = setValue s d ∧ (tbOf t d).since = s.now / 2 ∧ (tbOf t d).stepArmed = true
            ∧ (tbOf t d).rate = (tbOf s d).rate ∧ regBit t pgTime1 Off.IRQ_STAT d = true ∧ OnlyRegs [(pgTime1, Off.IRQ_STAT)] s t)
        ∧ ((tbOf s d).state ≠ .stopped → tbOf t d = tbOf s d ∧ OnlyRegs [] s t)))
  ∧ (∀ (s : State) (tid d : Nat), d < 5 → judge s tid pgTime1 (Off.TB_CMD + 0x40 * d) = .ok →
      Reaches (exec (.tbStop tid d) s) (fun t => (tbOf t d).state = .stopped ∧ (tbOf t d).base = tbUnits (tbOf s d) (s.now / 2) ∧ (tbOf t d).slewing = false
        ∧ (tbOf t d).switching = false ∧ (d = 0 → t.tick.running = false) ∧ t.tick.count = s.tick.count ∧ MemSame s t
        ∧ (d ≠ 0 → d ≠ 4 → (∀ e, e ≠ d → tbOf t e = tbOf s e) ∧ OnlyRegs [(pgTime1, Off.IRQ_STAT)] s t)))
  ∧ (∀ (s : State) (tid d : Nat), d < 5 → judge s tid pgTime1 (Off.TB_CMD + 0x40 * d) = .ok →
      Reaches (exec (.tbSet tid d) s) (fun t => MemSame s t ∧ (∀ e, e ≠ d → tbOf t e = tbOf s e)
        ∧ (((tbOf s d).state = .stopped ∨ (tbOf s d).state = .freerun) → ¬(d = 0 ∧ regBit s pgTime0 Off.TICK_CFG 0 = true) →
            t.resp = .done ∧ tbOf t d = { tbOf s d with base := setValue s d, since := s.now / 2, stepArmed := true } ∧ OnlyRegs [] s t)
        ∧ (¬((tbOf s d).state = .stopped ∨ (tbOf s d).state = .freerun) ∨ (d = 0 ∧ regBit s pgTime0 Off.TICK_CFG 0 = true) →
            t.resp = .error ∧ tbOf t d = tbOf s d ∧ regBit t pgTime1 Off.ERR_STAT 8 = true
            ∧ OnlyRegs [(pgTime1, Off.ERR_STAT), (pgTime1, Off.ERR_INFO), (pgTime1, Off.IRQ_STAT)] s t)))
  ∧ (∀ (s : State) (tid d : Nat), d < 5 → judge s tid pgTime1 (Off.TB_CMD + 0x40 * d) = .ok →
      Reaches (exec (.slew tid d) s) (fun t => MemSame s t ∧ (∀ e, e ≠ d → tbOf t e = tbOf s e)
        ∧ ((tbOf s d).state ≠ .stopped → t.resp = .done ∧ tbOf t d = { tbOf s d with slewing := true } ∧ OnlyRegs [] s t)
        ∧ ((tbOf s d).state = .stopped → t.resp = .error ∧ tbOf t d = tbOf s d ∧ regBit t pgTime1 Off.ERR_STAT 10 = true
            ∧ OnlyRegs [(pgTime1, Off.ERR_STAT), (pgTime1, Off.ERR_INFO), (pgTime1, Off.IRQ_STAT)] s t)))
  ∧ (∀ (s : State) (tid : Nat), judge s tid pgTime1 Off.TB_CMD = .ok →
      Reaches (exec (.switchRef tid) s) (fun t => t.resp = .done ∧ tbOf t 0 = { tbOf s 0 with swPend := true } ∧ (∀ e, e ≠ 0 → tbOf t e = tbOf s e) ∧ OnlyRegs [] s t ∧ MemSame s t))
  ∧ (∀ (s : State) (tm : Nat), s.tick.edgeAt = some tm → s.now ≤ tm → (tbOf s 0).swPend = true →
      Reaches (exec (.switchStart tm) s) (fun t => (∀ e, e ≠ 0 → tbOf t e = tbOf s e) ∧ MemSame s t ∧ (tbOf t 0).swPend = false ∧ (tbOf t 0).swResult = switchResult s tm
        ∧ (switchResult s tm = 0 → (tbOf t 0).refS = !(tbOf s 0).refS ∧ (tbOf t 0).switching = true ∧ OnlyRegs [] s t)
        ∧ (switchResult s tm ≠ 0 → (tbOf t 0).refS = (tbOf s 0).refS ∧ (tbOf t 0).switching = (tbOf s 0).switching ∧ regBit t pgTime1 Off.IRQ_STAT 17 = true
            ∧ OnlyRegs [(pgTime1, Off.IRQ_STAT)] s t)))
  ∧ (∀ (s : State) (d tm : Nat), d < 5 → s.now ≤ tm → (tbOf s d).state = .locking ∨ (tbOf s d).state = .locked → (tbOf s d).lastMeas + lossCycles s d ≤ tm →
      Reaches (exec (.holdoverEntry d tm) s) (fun t => (tbOf t d).state = .holdover ∧ (tbOf t d).integ = (tbOf s d).integ ∧ (tbOf t d).rate = (tbOf s d).integ
        ∧ (tbOf t d).base = tbUnits (tbOf s d) (tm / 2 + 1) ∧ (tbOf t d).since = tm / 2 + 1 ∧ (tbOf t d).holdSince = tm ∧ synced t d = true
        ∧ (d = 0 → (tbOf s 0).refS = false → bit (tbReg s 0 Off.TB_CFG) 14 = true → (tbOf t 0).swPend = true)
        ∧ regBit t pgTime1 Off.IRQ_STAT d = true ∧ (∀ e, e ≠ d → tbOf t e = tbOf s e) ∧ OnlyRegs [(pgTime1, Off.IRQ_STAT)] s t ∧ MemSame s t))
  ∧ (∀ (s : State) (d tm : Nat), d < 5 → (tbOf s d).state = .holdover → (tbOf s d).holdSince + fld (tbReg s d Off.HOLD_MAX) 0 16 * 1200000000 ≤ tm →
      Reaches (exec (.holdMaxExpiry d tm) s) (fun t => tbOf t d = { tbOf s d with holdSpent := true } ∧ synced t d = false ∧ (∀ e, e ≠ d → tbOf t e = tbOf s e)
        ∧ OnlyRegs [] s t ∧ MemSame s t))
  ∧ (∀ (s : State) (tid : Nat) (data : Word), judge s tid pgTime0 Off.TICK_CFG = .ok →
      Reaches (exec (.tickCfgWrite tid data) s) (fun t => t.tick.count = s.tick.count ∧ t.tim = s.tim ∧ MemSame s t
        ∧ (bit data 1 ≠ regBit s pgTime0 Off.TICK_CFG 1 → regBit s pgTime0 Off.TICK_CFG 0 = true ∨ (mode s ≠ mProvision ∧ mode s ≠ mConfigure) →
            t.resp = .error ∧ regBit t pgTime0 Off.ERR_STAT 8 = true ∧ OnlyRegs [(pgTime0, Off.ERR_STAT), (pgTime0, Off.ERR_INFO), (pgTime0, Off.IRQ_STAT)] s t)
        ∧ (bit data 1 ≠ regBit s pgTime0 Off.TICK_CFG 1 → regBit s pgTime0 Off.TICK_CFG 0 = false → mode s = mProvision ∨ mode s = mConfigure →
            t.resp = .done ∧ reg t pgTime0 Off.TICK_CFG = data &&& 3 ∧ regFld t pgCar0 Off.PUB_POINT 0 20 ≤ latestP t ∧ t.car.pubPoint ≤ latestP t
            ∧ OnlyRegs [(pgTime0, Off.TICK_CFG), (pgCar0, Off.PUB_POINT), (pgCar0, Off.ERR_STAT), (pgCar0, Off.ERR_INFO), (pgCar0, Off.IRQ_STAT)] s t)
        ∧ (bit data 1 = regBit s pgTime0 Off.TICK_CFG 1 → t.resp = .done ∧ reg t pgTime0 Off.TICK_CFG = data &&& 3 ∧ t.car = s.car
            ∧ t.tick.running = (s.tick.running && bit data 0) ∧ OnlyRegs [(pgTime0, Off.TICK_CFG)] s t)))
  ∧ (∀ (s : State) (i tm d : Nat), i < 2 → regBit s pgTime0 (Off.PPS_IN_CFG + 4 * i) 0 = true →
      (∀ l, (tget PpsIn.init s.tim.ppsIn i).lastAt = some l → l + 600000000 ≤ tm) → (∀ e < 5, e ≠ d → fld (tbReg s e Off.TB_CFG) 0 3 ≠ 2 + i) →
      Reaches (exec (.ppsInEdge i tm) s) (fun t => (tget PpsIn.init t.tim.ppsIn i).lastAt = some tm ∧ (tget PpsIn.init t.tim.ppsIn i).count = (tget PpsIn.init s.tim.ppsIn i).count + 1
        ∧ (tget PpsIn.init t.tim.ppsIn i).stamp = tbNs s (regFld s pgTime0 (Off.PPS_IN_CFG + 4 * i) 1 3) tm - regFld s pgTime0 (Off.PPS_IN_CFG + 4 * i) 16 16
        ∧ regBit t pgTime0 Off.IRQ_STAT (1 + i) = true ∧ MemSame s t
        ∧ (5 ≤ d → t.tim.tbs = s.tim.tbs ∧ OnlyRegs [(pgTime0, Off.IRQ_STAT)] s t)
        ∧ (Servoed s d → fld (tbReg s d Off.TB_CFG) 0 3 = 2 + i →
            ((fromSecond (ppsStamp s d tm (regFld s pgTime0 (Off.PPS_IN_CFG + 4 * i) 16 16) * 2 ^ 16)).natAbs ≤ jumpThresh s d →
              Measured d (fromSecond (ppsStamp s d tm (regFld s pgTime0 (Off.PPS_IN_CFG + 4 * i) 16 16) * 2 ^ 16)) (10 ^ 9) s t
              ∧ OnlyRegs [(pgTime0, Off.IRQ_STAT), (pgTime1, Off.TB_ACCEPTED + 0x40 * d), (pgTime1, Off.IRQ_STAT)] s t)
            ∧ (jumpThresh s d < (fromSecond (ppsStamp s d tm (regFld s pgTime0 (Off.PPS_IN_CFG + 4 * i) 16 16) * 2 ^ 16)).natAbs → (tbOf s d).refusedRun < 7 → Refused d s t
              ∧ OnlyRegs [(pgTime0, Off.IRQ_STAT), (pgTime1, Off.TB_REFUSED + 0x40 * d), (pgTime1, Off.IRQ_STAT)] s t))))
  ∧ (∀ (s : State) (i tm l : Nat), i < 2 → regBit s pgTime0 (Off.PPS_IN_CFG + 4 * i) 0 = true → (tget PpsIn.init s.tim.ppsIn i).lastAt = some l → tm < l + 600000000 →
      Reaches (exec (.ppsInEdge i tm) s) (fun t => reg t pgTime0 (Off.PPS_GLITCH + 4 * i) = reg s pgTime0 (Off.PPS_GLITCH + 4 * i) + 1 ∧ t.tim = s.tim
        ∧ OnlyRegs [(pgTime0, Off.PPS_GLITCH + 4 * i)] s t ∧ MemSame s t))
  ∧ (∀ (s : State) (o tm m : Nat), o < 2 → regFld s pgTime0 (Off.PPS_OUT_CFG + 8 * o) 0 2 = m → m ≠ 0 →
      (m = 1 → (tbOf s (regFld s pgTime0 (Off.PPS_OUT_CFG + 8 * o) 2 3)).state ≠ .stopped
        ∧ (regBit s pgTime0 (Off.PPS_OUT_CFG + 8 * o) 5 = true → synced s (regFld s pgTime0 (Off.PPS_OUT_CFG + 8 * o) 2 3) = true)) →
      (m = 2 → s.tick.edgeAt = some tm ∧ s.now ≤ tm) →
      Reaches (exec (.ppsOutPulse o tm) s) (fun t => tget PpsOut.init t.tim.ppsOut o
          = ⟨true, tm + (if m = 2 then (if rateHz s = 4000 then 150000 else 125000) else regFld s pgTime0 (Off.PPS_OUT_WIDTH + 8 * o) 0 19 * 1200)⟩
        ∧ (∀ q, q ≠ o → tget PpsOut.init t.tim.ppsOut q = tget PpsOut.init s.tim.ppsOut q) ∧ t.tim.tbs = s.tim.tbs ∧ OnlyRegs [] s t ∧ MemSame s t))
  ∧ (∀ (s : State) (o tm : Nat), (tget PpsOut.init s.tim.ppsOut o).high = true → (tget PpsOut.init s.tim.ppsOut o).endAt ≤ tm →
      Reaches (exec (.ppsOutEnd o tm) s) (fun t => (tget PpsOut.init t.tim.ppsOut o).high = false ∧ (∀ q, q ≠ o → tget PpsOut.init t.tim.ppsOut q = tget PpsOut.init s.tim.ppsOut q)
        ∧ t.tim.tbs = s.tim.tbs ∧ OnlyRegs [] s t ∧ MemSame s t))
  ∧ (∀ (s : State) (k tm : Nat), k < 16 → regBit s pgTime3 (Off.CMP_CFG + 0x10 * k) 0 = true →
      regFld s pgTime3 (Off.CMP_CFG + 0x10 * k) 1 3 < 5 ∨ (s.tick.edgeAt = some tm ∧ s.now ≤ tm) →
      0 ≤ (compareNow s k tm - reg s pgTime3 (Off.CMP_TARGET + 0x10 * k)).toInt →
      Reaches (exec (.compareFire k tm) s) (fun t => reg t pgTime3 (Off.CMP_COUNT + 0x10 * k) = reg s pgTime3 (Off.CMP_COUNT + 0x10 * k) + 1
        ∧ regBit t pgTime3 Off.IRQ_STAT k = true
        ∧ (reg s pgTime3 (Off.CMP_PERIOD + 0x10 * k) = 0 → reg t pgTime3 (Off.CMP_CFG + 0x10 * k) = reg s pgTime3 (Off.CMP_CFG + 0x10 * k) &&& ~~~1
            ∧ reg t pgTime3 (Off.CMP_TARGET + 0x10 * k) = reg s pgTime3 (Off.CMP_TARGET + 0x10 * k))
        ∧ (reg s pgTime3 (Off.CMP_PERIOD + 0x10 * k) ≠ 0 → reg t pgTime3 (Off.CMP_CFG + 0x10 * k) = reg s pgTime3 (Off.CMP_CFG + 0x10 * k)
            ∧ reg t pgTime3 (Off.CMP_TARGET + 0x10 * k) = reg s pgTime3 (Off.CMP_TARGET + 0x10 * k) + reg s pgTime3 (Off.CMP_PERIOD + 0x10 * k))
        ∧ t.tim = s.tim ∧ OnlyRegs [(pgTime3, Off.CMP_COUNT + 0x10 * k), (pgTime3, Off.IRQ_STAT), (pgTime3, Off.CMP_CFG + 0x10 * k), (pgTime3, Off.CMP_TARGET + 0x10 * k)] s t ∧ MemSame s t))
  ∧ ∀ (s : State) (tid k : Nat) (data : Word), k < 16 → judge s tid pgTime3 (Off.CMP_CFG + 0x10 * k) = .ok →
      Reaches (exec (.arm tid k data) s) (fun t => t.tim = s.tim ∧ MemSame s t
        ∧ (fld data 1 3 < 6 → t.resp = .done ∧ reg t pgTime3 (Off.CMP_CFG + 0x10 * k) = (data &&& 0xF) ||| (reg s pgTime3 (Off.CMP_CFG + 0x10 * k) &&& 1)
            ∧ OnlyRegs [(pgTime3, Off.CMP_CFG + 0x10 * k)] s t)
        ∧ (6 ≤ fld data 1 3 → t.resp = .error ∧ regBit t pgTime3 Off.ERR_STAT 8 = true
            ∧ OnlyRegs [(pgTime3, Off.ERR_STAT), (pgTime3, Off.ERR_INFO), (pgTime3, Off.IRQ_STAT)] s t))

/-- A one-step Sync of a time base's reference is a measurement of it, and a two-step one waits for its Follow_Up, which completes it. A Pdelay_Req of a known domain is answered at once; a response to the own request, alone or with its Follow_Up, gives a new MEAN_DELAY. Pdelay_Req and Sync leave when they are due with the next sequenceId, and the third missed answer clears PD_VALID. The tails of the PTP rings are stored or refused, and a descriptor that names no port completes with its status. The octets of the messages are the model's choice (log entry 26). (15_time_unit.md R373; 15_time_unit.md R374; 15_time_unit.md R375; 15_time_unit.md R376; 15_time_unit.md R377; 15_time_unit.md R379; 15_time_unit.md R389) -/
def Obligations.ptp_messages : Prop :=
  (∀ (s : State) (p d tm : Nat) (frame : List Byte) (m : PtpMsg) (h : (Nat × Int × Nat) × State) (o : Int), Timed s p 0 frame m → d < 5 → takeHandedRaw p frame tm (advance s tm) = h →
      (∀ e < 5, ofReference s p e m = true ↔ e = d) →
      Reaches (exec (.syncReceived p frame tm) s) (fun t => MemSame s t
        ∧ (m.twoStep = true → tbOf t d = { tbOf s d with pendSync := some ⟨m.seq, stampIn s d (25 * h.1.1) (-h.1.2.1), m.corr, tm⟩ }
            ∧ (∀ e, e ≠ d → tbOf t e = tbOf s e) ∧ OnlyRegs [] s t)
        ∧ (m.twoStep = false → Servoed s d → (ptpOf s p).valid = true → o = (stampIn s d (25 * h.1.1) (-h.1.2.1) : Int) - m.time - m.corr - (ptpOf s p).meanDelay →
            (o.natAbs ≤ jumpThresh s d → Measured d o (refNs s d) s t ∧ (tbOf t d).pendSync = none
              ∧ OnlyRegs [(pgTime1, Off.TB_ACCEPTED + 0x40 * d), (pgTime1, Off.IRQ_STAT)] s t)
            ∧ (jumpThresh s d < o.natAbs → (tbOf s d).refusedRun < 7 → Refused d s t ∧ OnlyRegs [(pgTime1, Off.TB_REFUSED + 0x40 * d), (pgTime1, Off.IRQ_STAT)] s t))
        ∧ (m.twoStep = false → (ptpOf s p).valid = false → (tbOf t d).rate = (tbOf s d).rate ∧ (tbOf t d).integ = (tbOf s d).integ ∧ OnlyRegs [] s t)))
  ∧ (∀ (s : State) (p d tm : Nat) (frame : List Byte) (m : PtpMsg) (w : PendSync) (o : Int), Timed s p 8 frame m → d < 5 → (tbOf s d).pendSync = some w → ofReference s p d m = true →
      (∀ e < 5, e ≠ d → ofReference s p e m = false) → w.seq = m.seq → tm ≤ w.tm + pow2Of 1200000000 (logSync s p) → (ptpOf s p).valid = true → Servoed s d →
      o = w.t2 - m.time - (w.corr + m.corr) - (ptpOf s p).meanDelay →
      Reaches (exec (.followUpReceived p frame tm) s) (fun t => MemSame s t ∧ (tbOf t d).pendSync = none
        ∧ (o.natAbs ≤ jumpThresh s d → Measured d o (refNs s d) s t ∧ OnlyRegs [(pgTime1, Off.TB_ACCEPTED + 0x40 * d), (pgTime1, Off.IRQ_STAT)] s t)
        ∧ (jumpThresh s d < o.natAbs → (tbOf s d).refusedRun < 7 → Refused d s t ∧ OnlyRegs [(pgTime1, Off.TB_REFUSED + 0x40 * d), (pgTime1, Off.IRQ_STAT)] s t)))
  ∧ (∀ (s : State) (p tm : Nat) (frame : List Byte) (m : PtpMsg) (h : (Nat × Int × Nat) × State), Timed s p 2 frame m → takeHandedRaw p frame tm (advance s tm) = h →
      m.domain = pdDomain s p ∨ (∃ d < 5, (tbOf s d).state ≠ .stopped ∧ tbDomain s d = m.domain) → Ready s p tm →
      Reaches (exec (.pdelayReqReceived p frame tm) s) (fun t =>
        Sent p tm (responseFrame s p m.seq (beBytes 10 m.source) m.domain (localStamp (25 * h.1.1) (-h.1.2.1)) m.corr (ppOneStep s p) 0) s t
        ∧ t.tim = s.tim ∧ (∀ q, q ≠ p → portOf t q = portOf s q) ∧ OnlyRegs [(pgTime2, Off.TX_EVT + 0x40 * p)] s t ∧ MemSame s t))
  ∧ (∀ (s : State) (p tm : Nat) (frame : List Byte) (m : PtpMsg) (h : (Nat × Int × Nat) × State), Timed s p 3 frame m → takeHandedRaw p frame tm (advance s tm) = h →
      answers s p m = true →
      Reaches (exec (.pdelayRespReceived p frame tm) s) (fun t => t.net = s.net ∧ OnlyRegs [] s t ∧ MemSame s t
        ∧ (m.twoStep = true → ptpOf t p = { ptpOf s p with resp := some (localStamp (25 * h.1.1) (-h.1.2.1), m.time, m.corr) } ∧ t.tim.tbs = s.tim.tbs)
        ∧ (m.twoStep = false → (ptpOf t p).nrr = (ptpOf s p).nrr ∧ Exchanged p (localStamp (25 * h.1.1) (-h.1.2.1)) m.corr s t)))
  ∧ (∀ (s : State) (p tm : Nat) (frame : List Byte) (m : PtpMsg) (t4 t2 c : Int), Timed s p 10 frame m → answers s p m = true → (ptpOf s p).resp = some (t4, t2, c) →
      Reaches (exec (.pdelayRespFollowUpReceived p frame tm) s) (fun t => Exchanged p t4 (m.time - t2 + c + m.corr) s t ∧ (ptpOf t p).last = some (m.time, t4)
        ∧ (∀ a0 b0, (ptpOf s p).last = some (a0, b0) → t4 ≠ b0 → (ptpOf t p).nrr = ((m.time - a0) - (t4 - b0)) * 2 ^ 32 / (t4 - b0))
        ∧ t.net = s.net ∧ OnlyRegs [] s t ∧ MemSame s t))
  ∧ (∀ (s : State) (p tm : Nat), p < numPorts s.variant → p < 4 → ppEn s p = true → (∀ a, (ptpOf s p).reqAt = some a → a + pow2Of 1200000000 (logPdelay s p) ≤ tm) → Ready s p tm →
      Reaches (exec (.pdelayReqSend p tm) s) (fun t => Sent p tm (requestFrame s p (((ptpOf s p).seq + 1) % 65536)) s t
        ∧ (ptpOf t p).seq = ((ptpOf s p).seq + 1) % 65536 ∧ (ptpOf t p).waiting = true ∧ (ptpOf t p).reqAt = some tm
        ∧ (ptpOf t p).missed = (ptpOf s p).missed + (if (ptpOf s p).waiting then 1 else 0)
        ∧ ((ptpOf s p).waiting = true → (ptpOf s p).missed = 2 → (ptpOf t p).valid = false ∧ reg t pgTime2 (Off.PD_FAIL + 0x40 * p) = reg s pgTime2 (Off.PD_FAIL + 0x40 * p) + 1)
        ∧ (¬((ptpOf s p).waiting = true ∧ (ptpOf s p).missed = 2) → (ptpOf t p).valid = (ptpOf s p).valid ∧ reg t pgTime2 (Off.PD_FAIL + 0x40 * p) = reg s pgTime2 (Off.PD_FAIL + 0x40 * p))
        ∧ (∀ q, q ≠ p → portOf t q = portOf s q ∧ ptpOf t q = ptpOf s q) ∧ t.tim.tbs = s.tim.tbs
        ∧ OnlyRegs [(pgTime2, Off.TX_EVT + 0x40 * p), (pgTime2, Off.PD_FAIL + 0x40 * p)] s t ∧ MemSame s t))
  ∧ (∀ (s : State) (p d tm : Nat), p < numPorts s.variant → p < 4 → d < 5 → sendsSync s p d = true →
      tbNs s d tm / pow2Of (10 ^ 9) (logSync s p) ≠ tbNs s d (tm - 2) / pow2Of (10 ^ 9) (logSync s p) → Ready s p tm →
      Reaches (exec (.syncSend p d tm) s) (fun t => Sent p tm (syncFrame s p d (tget 0 (ptpOf s p).syncSeq d) (ppOneStep s p) (tbSub s d tm)) s t
        ∧ tget 0 (ptpOf t p).syncSeq d = (tget 0 (ptpOf s p).syncSeq d + 1) % 65536 ∧ t.tim.tbs = s.tim.tbs ∧ (∀ q, q ≠ p → portOf t q = portOf s q ∧ ptpOf t q = ptpOf s q)
        ∧ OnlyRegs [(pgTime2, Off.TX_EVT + 0x40 * p)] s t ∧ MemSame s t))
  ∧ (∀ (s : State) (tid : Nat) (data : Word), judge s tid pgTime2 Off.PTP_TAILS = .ok → (tenOf s 0).state ≠ .resetting → fld data 16 12 = ringTail s ptpTxRing →
      fld data 0 12 ≠ ringTail s ptpRxRing →
      Reaches (exec (.ptpTail tid data) s) (fun t => t.net = s.net ∧ MemSame s t
        ∧ (tailResult s ptpRxRing (fld data 0 12) = 0 → t.resp = .done ∧ ringTail t ptpRxRing = fld data 0 12 ∧ ringTail t ptpTxRing = ringTail s ptpTxRing
            ∧ OnlyRegs [(pgTime2, Off.PTP_TAILS)] s t)
        ∧ (tailResult s ptpRxRing (fld data 0 12) = 1 → t.resp = .error ∧ regBit t pgTime2 Off.ERR_STAT 9 = true
            ∧ OnlyRegs [(pgTime2, Off.ERR_STAT), (pgTime2, Off.ERR_INFO), (pgTime2, Off.IRQ_STAT)] s t)
        ∧ (tailResult s ptpRxRing (fld data 0 12) = 2 → t.resp = .error ∧ regBit t (pgTen 0) Off.TEVT 6 = true ∧ OnlyRegs [(pgTen 0, Off.TEVT)] s t)))
  ∧ ∀ (s : State) (tid : Nat) (data : Word) (w : List Byte), StateInv s → judge s tid pgTime2 Off.PTP_TAILS = .ok → (tenOf s 0).state ≠ .resetting →
      fld data 0 12 = ringTail s ptpRxRing → tailResult s ptpTxRing (fld data 16 12) = 0 → ringHead s ptpTxRing = ringTail s ptpTxRing → 16 ≤ ringSize s ptpTxRing →
      ringTail s ptpTxRing < ringSize s ptpTxRing → fld data 16 12 = (ringTail s ptpTxRing + 1) % ringSize s ptpTxRing → tget [] (portOf s 0).done 16 = [] →
      inWindow s 0 (ringDesc s ptpTxRing (ringTail s ptpTxRing)) 32 = true → dmaRead s 0 (ringDesc s ptpTxRing (ringTail s ptpTxRing)) 16 = some w →
      4 ≤ leNat ((w.drop 11).take 1) →
      Reaches (exec (.ptpTail tid data) s) (fun t => t.resp = .done ∧ Memory.read t.mem (ringDesc s ptpTxRing (ringTail s ptpTxRing) + 0x10) = some 7
        ∧ ringHead t ptpTxRing = fld data 16 12 ∧ ringTail t ptpTxRing = fld data 16 12 ∧ regBit t pgTime2 Off.IRQ_STAT 1 = true
        ∧ OnlyRegs [(pgTime2, Off.PTP_TAILS), (pgTime2, Off.PTP_HEADS), (pgTime2, Off.IRQ_STAT)] s t
        ∧ MemOutside (ringDesc s ptpTxRing (ringTail s ptpTxRing) + 0x10) 16 s t)

/-- The command at the head of the ring served next completes with its STATUS, HEAD and event. DERIVE and IMPORT create a slot below another; INVALIDATE advances GEN; DELETE empties a slot; REG_VK fills a verify slot; SIGN, MAC, SEAL, UNSEAL, QUOTE, EXPORT_PUB, RANDOM and SLOT_INFO answer in the output buffer; VERIFY reports the signature that fails; EXTEND extends MEAS6; OTP advances a counter or revokes an entry; PROV_IMPORT installs the owner's roots; CLR_TAMPER clears latches. A failed command changes no slot, no count and no OTP bit. The layout of SLOT_INFO is a free value (log entry 21). (16_vault_and_boot.md R398; 16_vault_and_boot.md R399; 16_vault_and_boot.md R400; 16_vault_and_boot.md R401; 16_vault_and_boot.md R404; 16_vault_and_boot.md R405; 16_vault_and_boot.md R406; 16_vault_and_boot.md R408; 16_vault_and_boot.md R409; 16_vault_and_boot.md R410; 16_vault_and_boot.md R412) -/
def Obligations.vault_commands : Prop :=
  (∀ (s : State) (tm op st : Nat) (c : VqCmd) (i : Instr) (body : VqCmd → State → VqResult), (op, i, body) ∈ [(0x01, .deriveKey tm, opDerive), (0x02, .invalidate tm, opInvalidate),
        (0x03, .delete tm, opDelete), (0x04, .sign tm, opSign), (0x05, .verify tm, opVerify), (0x06, .mac tm, opMac), (0x07, .sealBlob tm, opSeal), (0x08, .unsealBlob tm, opUnseal),
        (0x09, .importKey tm, opImport), (0x0A, .regVk tm, opRegVk), (0x0B, .quote tm, opQuote), (0x0C, .exportPub tm, opExportPub), (0x0D, .randomBytes tm, opRandom),
        (0x0E, .extendMeas tm, opExtend), (0x0F, .otp tm, opOtp), (0x10, .provImport tm, opProvImport), (0x11, .clrTamper tm, opClrTamper), (0x12, .slotInfo tm, opSlotInfo)] →
      Serves s tm op c →
      (s.vlt.otp.lifecycle = 0 ∧ op ≤ 0xC ∧ st = 0xE)
        ∨ (¬(s.vlt.otp.lifecycle = 0 ∧ op ≤ 0xC) ∧ body c { advance s tm with vlt := { s.vlt with lastTid := c.tid } } = .error st) →
      Reaches (exec i s) (fun t => VqFails c st s t))
  ∧ (∀ (s : State) (tm : Nat) (c : VqCmd), Serves s tm 0x01 c → s.vlt.otp.lifecycle ≠ 0 → slotStatus s.vlt c.slot c.tid 1 = 0 → 16 ≤ c.slot2 → c.flags % 4 ≠ 3 →
      slotPresent s.vlt c.slot2 = false → (slotInfoOf s.vlt c.slot).depth < 8 →
      Reaches (exec (.deriveKey tm) s) (fun t => VqDone c s t ∧ Created c (belowSlot s c { KeySlot.init with kind := .derived, label := c.arg }) s t))
  ∧ (∀ (s : State) (tm : Nat) (c : VqCmd), Serves s tm 0x02 c → s.vlt.otp.lifecycle ≠ 0 → 16 ≤ c.slot → slotStatus s.vlt c.slot c.tid 0 = 0 →
      Reaches (exec (.invalidate tm) s) (fun t => VqDone c s t ∧ slotOf t.vlt c.slot = { slotOf s.vlt c.slot with gen := (slotOf s.vlt c.slot).gen + 1 }
        ∧ (∀ j, j ≠ c.slot → slotOf t.vlt j = slotOf s.vlt j) ∧ t.vlt.gen = s.vlt.gen + (if (slotOf s.vlt c.slot).persist then 1 else 0)
        ∧ ((slotOf s.vlt c.slot).persist = true → t.vlt.epoch = max s.vlt.epoch s.vlt.otp.recEpoch + 1 ∧ t.vlt.otp.recEpoch = t.vlt.epoch)))
  ∧ (∀ (s : State) (tm : Nat) (c : VqCmd), Serves s tm 0x03 c → s.vlt.otp.lifecycle ≠ 0 → 16 ≤ c.slot → (slotOf s.vlt c.slot).kind ≠ .empty →
      c.tid = 0 ∨ (slotOf s.vlt c.slot).tid = c.tid →
      Reaches (exec (.delete tm) s) (fun t => VqDone c s t ∧ slotOf t.vlt c.slot = { KeySlot.init with gen := (slotOf s.vlt c.slot).gen + 1 }
        ∧ (∀ j, j ≠ c.slot → slotOf t.vlt j = slotOf s.vlt j) ∧ t.vlt.gen = s.vlt.gen + (if (slotOf s.vlt c.slot).persist then 1 else 0)
        ∧ ((slotOf s.vlt c.slot).persist = true → t.vlt.epoch = max s.vlt.epoch s.vlt.otp.recEpoch + 1 ∧ t.vlt.otp.recEpoch = t.vlt.epoch)))
  ∧ (∀ (s : State) (tm : Nat) (c : VqCmd) (m : List Byte), Serves s tm 0x04 c → s.vlt.otp.lifecycle ≠ 0 → slotStatus s.vlt c.slot c.tid 2 = 0 →
      dmaRead s c.tid c.inAddr c.inLen = some m → s.vlt.entropyOk = true →
      Reaches (exec (.sign tm) s) (fun t => VqOut c (envelopeOf (keyOf s.vlt c.slot) (sha512 m) (Config.random s.free 32)) (Spent c.slot s) s t))
  ∧ (∀ (s : State) (tm : Nat) (c : VqCmd) (b : List Byte), Serves s tm 0x05 c → s.vlt.otp.lifecycle ≠ 0 → slotStatus s.vlt c.slot 0 64 = 0 → 3384 ≤ c.inLen →
      dmaRead s c.tid c.inAddr c.inLen = some b →
      Reaches (exec (.verify tm) s) (fun t => t.vlt = { s.vlt with lastTid := c.tid } ∧ MemOutside (headDesc s c + 3) 1 s t
        ∧ VqEnds c (match checkEnvelope (slotOf s.vlt c.slot).pub (sha512 (b.take (c.inLen - 3384))) (b.drop (c.inLen - 3384)) with | 1 => 9 | 2 => 0xA | _ => 1) s t))
  ∧ (∀ (s : State) (tm : Nat) (c : VqCmd) (m : List Byte), Serves s tm 0x06 c → s.vlt.otp.lifecycle ≠ 0 → slotStatus s.vlt c.slot c.tid 4 = 0 →
      dmaRead s c.tid c.inAddr c.inLen = some m →
      Reaches (exec (.mac tm) s) (fun t => VqOut c (beBytes 32 (Config.kmac256 (keyOf s.vlt c.slot) m 256 (String.ofList (c.arg.map (fun b => Char.ofNat b.toNat))))) (Spent c.slot s) s t))
  ∧ (∀ (s : State) (tm : Nat) (c : VqCmd) (m : List Byte), Serves s tm 0x07 c → s.vlt.otp.lifecycle ≠ 0 → slotStatus s.vlt c.slot c.tid 8 = 0 →
      dmaRead s c.tid c.inAddr c.inLen = some m → s.vlt.entropyOk = true →
      Reaches (exec (.sealBlob tm) s) (fun t => VqOut c (Config.random s.free 12 ++ Config.gcmSeal (keyOf s.vlt c.slot) (Config.random s.free 12) c.arg m) (Spent c.slot s) s t))
  ∧ (∀ (s : State) (tm : Nat) (c : VqCmd) (b : List Byte), Serves s tm 0x08 c → s.vlt.otp.lifecycle ≠ 0 → slotStatus s.vlt c.slot c.tid 8 = 0 → 28 ≤ c.inLen →
      dmaRead s c.tid c.inAddr c.inLen = some b →
      Reaches (exec (.unsealBlob tm) s) (fun t => match Config.gcmOpen (keyOf s.vlt c.slot) (b.take 12) c.arg (b.drop 12) with
        | some p => VqOut c p (Spent c.slot s) s t
        | none => VqFails c 0xB s t))
  ∧ (∀ (s : State) (tm : Nat) (c : VqCmd) (b : List Byte), Serves s tm 0x09 c → s.vlt.otp.lifecycle ≠ 0 → slotStatus s.vlt c.slot c.tid 16 = 0 → 16 ≤ c.slot2 → c.flags % 4 ≠ 3 →
      slotPresent s.vlt c.slot2 = false → c.inLen = 60 → (slotInfoOf s.vlt c.slot).depth < 8 → dmaRead s c.tid c.inAddr 60 = some b →
      Reaches (exec (.importKey tm) s) (fun t => match Config.gcmOpen (keyOf s.vlt c.slot) (b.take 12) c.arg (b.drop 12) with
        | some p => VqDone c s t ∧ Created c (belowSlot s c { KeySlot.init with kind := .imported, key := beNat p }) s t
        | none => VqFails c 0xB s t))
  ∧ (∀ (s : State) (tm : Nat) (c : VqCmd) (b : List Byte), Serves s tm 0x0A c → s.vlt.otp.lifecycle ≠ 0 → c.tid = 0 → 16 ≤ c.slot2 → c.flags / 2 % 2 = 0 →
      leNat ((c.arg.drop 8).take 1) ≤ 2 → leNat ((c.arg.drop 9).take 1) < numTids s.variant →
      (∀ x ∈ s.vlt.slots, x.2.kind = .verify → x.2.keyId ≠ leNat (c.arg.take 8)) → slotPresent s.vlt c.slot2 = false →
      (s.vlt.slots.filter (fun x => x.2.kind = .verify)).length < 64 → c.inLen = 1984 → dmaRead s 0 c.inAddr 1984 = some b →
      Reaches (exec (.regVk tm) s) (fun t => VqDone c s t ∧ t.vlt.gen = s.vlt.gen + 1 ∧ (∀ j, j ≠ c.slot2 → slotOf t.vlt j = slotOf s.vlt j)
        ∧ slotOf t.vlt c.slot2 = ⟨.verify, 64, leNat ((c.arg.drop 9).take 1), 0, 0, [], 0, (slotOf s.vlt c.slot2).gen, true, false, 0, 0, b, leNat (c.arg.take 8), leNat ((c.arg.drop 8).take 1)⟩))
  ∧ (∀ (s : State) (tm : Nat) (c : VqCmd), Serves s tm 0x0B c → s.vlt.otp.lifecycle ≠ 0 → s.vlt.entropyOk = true →
      Reaches (exec (.quote tm) s) (fun t => VqOut c (quoteBody c (advance s tm) ++ envelopeOf (keyOf s.vlt 4) (sha512 (quoteBody c (advance s tm))) (Config.random s.free 32))
        (fun t => t.vlt = { s.vlt with lastTid := c.tid }) s t))
  ∧ (∀ (s : State) (tm : Nat) (c : VqCmd), Serves s tm 0x0C c → s.vlt.otp.lifecycle ≠ 0 → slotStatus s.vlt c.slot 0 (if c.slot = 4 then 0 else 2) = 0 →
      Reaches (exec (.exportPub tm) s) (fun t => VqOut c (publicKeys (keyOf s.vlt c.slot)) (Spent c.slot s) s t))
  ∧ (∀ (s : State) (tm : Nat) (c : VqCmd), Serves s tm 0x0D c → c.outLen ≤ 4096 → s.vlt.entropyOk = true →
      Reaches (exec (.randomBytes tm) s) (fun t => VqOut c (Config.random s.free c.outLen) (fun t => t.vlt = { s.vlt with lastTid := c.tid }) s t))
  ∧ (∀ (s : State) (tm : Nat) (c : VqCmd) (b : List Byte), Serves s tm 0x0E c → c.tid = 0 → dmaRead s 0 c.inAddr 32 = some b →
      Reaches (exec (.extendMeas tm) s) (fun t => VqDone c s t
        ∧ t.vlt = { s.vlt with lastTid := 0, meas := s.vlt.meas.set 6 (Config.sha3_512 (beBytes 64 (s.vlt.meas.getD 6 0) ++ (c.arg ++ b))) }))
  ∧ (∀ (s : State) (tm k : Nat) (c : VqCmd), Serves s tm 0x0F c → c.tid = 0 → leNat ((c.arg.drop 1).take 1) = k →
      Reaches (exec (.otp tm) s) (fun t =>
        (leNat (c.arg.take 1) = 0 → k ≤ 1 → (if k = 0 then s.vlt.otp.bootVer else s.vlt.otp.stringVer) < leNat ((c.arg.drop 2).take 2) → leNat ((c.arg.drop 2).take 2) ≤ 1023 →
            VqDone c s t ∧ t.vlt.gen = s.vlt.gen + 1 ∧ t.vlt.otp = (if k = 0 then { s.vlt.otp with bootVer := leNat ((c.arg.drop 2).take 2) }
              else { s.vlt.otp with stringVer := leNat ((c.arg.drop 2).take 2) }))
        ∧ (leNat (c.arg.take 1) = 1 → mode s = mProvision → k < 4 → (List.range 4).filter (fun i => bkUsed s.vlt.otp i && s.vlt.otp.revoke / 2 ^ i % 2 = 0) ≠ [k] →
            s.vlt.otp.revoke / 2 ^ k % 2 = 0 → VqDone c s t ∧ t.vlt.otp.revoke = s.vlt.otp.revoke + 2 ^ k ∧ t.vlt.otp.recEpoch = max s.vlt.epoch s.vlt.otp.recEpoch + 1)
        ∧ (1 ≤ leNat (c.arg.take 1) → leNat (c.arg.take 1) ≤ 2 → mode s ≠ mProvision → VqFails c 0xE s t)))
  ∧ (∀ (s : State) (tm n : Nat) (c : VqCmd) (b : List Byte), Serves s tm 0x10 c → c.tid = 0 → mode s = mProvision → s.vlt.otp.lifecycle = 0 ∨ slotPresent s.vlt 1 = false →
      1 ≤ n → n ≤ 4 → c.inLen = 92 + 64 * n → s.vlt.otp.ownerBk.length + n ≤ 4 → dmaRead s 0 c.inAddr c.inLen = some b →
      Reaches (exec (.provImport tm) s) (fun t => match Config.gcmOpen (keyOf s.vlt 3) (b.take 12) [] (b.drop 12) with
        | some p => VqDone c s t ∧ t.vlt.otp.lifecycle = 1 ∧ (slotOf t.vlt 1).kind = .root ∧ (slotOf t.vlt 1).key = beNat (p.take 32)
            ∧ (slotOf t.vlt 2).kind = .root ∧ (slotOf t.vlt 2).key = beNat ((p.drop 32).take 32) ∧ (slotOf t.vlt 1).gen = (slotOf s.vlt 1).gen + 1
            ∧ (∀ j, j ≠ 1 → j ≠ 2 → slotOf t.vlt j = slotOf s.vlt j)
            ∧ t.vlt.otp.ownerBk = (addDigests ((List.range n).map (fun i => (p.drop (64 + 64 * i)).take 64)) s.vlt.otp).ownerBk
        | none => VqFails c 0xB s t))
  ∧ (∀ (s : State) (tm : Nat) (c : VqCmd), Serves s tm 0x11 c → c.tid = 0 → mode s = mProvision →
      Reaches (exec (.clrTamper tm) s) (fun t => VqDone c s t ∧ t.vlt.slots = s.vlt.slots ∧ t.vlt.otp = s.vlt.otp
        ∧ ∀ i < 4, t.vlt.vbat.latch / 2 ^ i % 2 = (if leNat (c.arg.take 1) / 2 ^ i % 2 = 1 then 0 else s.vlt.vbat.latch / 2 ^ i % 2)))
  ∧ ∀ (s : State) (tm : Nat) (c : VqCmd), Serves s tm 0x12 c → slotPresent s.vlt c.slot = true →
      Reaches (exec (.slotInfo tm) s) (fun t => ∃ out, out.length = 64 ∧ VqOut c out (fun t => t.vlt = { s.vlt with lastTid := c.tid }) s t)

/-- From VERIFY onward the SAFE command, a vault fault, the loss of the DDR PLL, an expired watchdog with ACTION 0, a second bad window of the clock monitor and a tamper with ACTION from 1 each enter SAFE with their cause and the gate closed. A tamper sets its latch and counts, and ERASE clears the key store. A failing entropy source is shown, and one that passes again. RTC_LOAD loads the clock, and a lost RTC stops the monitor's judgement. A tail of a vault ring is stored or refused. (16_vault_and_boot.md R407; 16_vault_and_boot.md R414; 16_vault_and_boot.md R417; 16_vault_and_boot.md R418; 16_vault_and_boot.md R419; 17_modes_clocks_power.md R425; 17_modes_clocks_power.md R428; 17_modes_clocks_power.md R433) -/
def Obligations.safe_causes_and_vault_events : Prop :=
  (∀ (s : State) (tid : Nat) (data : Word), judge s tid pgMode Off.MODE_CMD = .ok → data &&& 0x5F = 0 →
      Reaches (exec (.safeMode tid data) s) (fun t => (canSafe s → Safed 6 t ∧ reg t pgMode Off.MODE_RESULT = 0) ∧ (¬canSafe s → ModeRefused 1 s t)))
  ∧ (∀ (s : State) (tm : Nat), Reaches (exec (.vaultFault tm) s) (fun t => (canSafe s → Safed 7 t) ∧ (¬canSafe s → mode t = mode s ∧ OnlyRegs [] s t ∧ MemSame s t)))
  ∧ (∀ (s : State) (tm : Nat), Reaches (exec (.ddrPllLoss tm) s) (fun t => (canSafe s → Safed 4 t)
      ∧ (¬canSafe s → reg t pgClk Off.PLL_STAT = reg s pgClk Off.PLL_STAT &&& ~~~8 ∧ OnlyRegs [(pgClk, Off.PLL_STAT)] s t ∧ MemSame s t)))
  ∧ (∀ (s : State) (tm w : Nat), StateInv s → s.mod.wdogAt = some w → w ≤ tm →
      Reaches (exec (.watchdogExpiry tm) s) (fun t => (regBit s pgMode Off.WDOG_CFG 1 = false → canSafe s → Safed 5 t)
        ∧ (regBit s pgMode Off.WDOG_CFG 1 = true → s.mod.power = true → SysReset 3 s t)))
  ∧ (∀ (s : State) (cycles tm : Nat), Reaches (exec (.clockMonitorWindow cycles tm) s) (fun t =>
        (((cycles : Int) - 25000000) % 25 = 0 → (canSafe s → (((cycles : Int) - 25000000).natAbs ≤ 10000 ∨ s.mod.monBad = 0)) →
            reg t pgClk Off.MON_PPM = BitVec.ofInt 32 (((cycles : Int) - 25000000) / 25))
        ∧ (((cycles : Int) - 25000000).natAbs ≤ 10000 → t.mod = { s.mod with monBad := 0 } ∧ OnlyRegs [(pgClk, Off.MON_PPM), (pgClk, Off.MON_CFG)] s t ∧ MemSame s t)
        ∧ (10000 < ((cycles : Int) - 25000000).natAbs → s.mod.monBad = 0 → t.mod = { s.mod with monBad := 1 }
            ∧ OnlyRegs [(pgClk, Off.MON_PPM), (pgClk, Off.MON_CFG)] s t ∧ MemSame s t)
        ∧ (10000 < ((cycles : Int) - 25000000).natAbs → 1 ≤ s.mod.monBad → regBit s pgClk Off.MON_CFG 0 = true → canSafe s → Safed 3 t)))
  ∧ (∀ (s : State) (i tm : Nat), i < 4 → bit (tampCfg s.vlt i) 0 = true → s.mod.power = true →
      Reaches (exec (.tamperEvent i tm) s) (fun t => t.vlt.vbat.latch = s.vlt.vbat.latch ||| 2 ^ i ∧ t.vlt.vbat.tampers = s.vlt.vbat.tampers + 1
        ∧ tget 0 t.vlt.vbat.times i = rtcTicks s tm / 32768 % 2 ^ 32
        ∧ (fld (tampCfg s.vlt i) 2 2 = 0 → regBit t pgVlt Off.IRQ_STAT 0 = true ∧ t.vlt.slots = s.vlt.slots ∧ mode t = mode s
            ∧ OnlyRegs [(pgVlt, Off.IRQ_STAT), (pgVlt, Off.VLT_STAT), (pgVlt, Off.CNT_OTP), (pgVlt, Off.CNT_OTP + 4), (pgVlt, Off.CNT_OTP + 8), (pgVlt, Off.REC_GEN), (pgVlt, Off.SLOTS_USED)] s t
            ∧ MemSame s t)
        ∧ (1 ≤ fld (tampCfg s.vlt i) 2 2 → canSafe s → Safed 2 t)
        ∧ (2 ≤ fld (tampCfg s.vlt i) 2 2 → t.vlt.slots = [] ∧ t.vlt.areas = [] ∧ t.vlt.gen = 0)))
  ∧ (∀ (s : State) (i tm : Nat), i < 4 → bit (tampCfg s.vlt i) 0 = true → s.mod.power = false → s.mod.vbat = true →
      Reaches (exec (.tamperEvent i tm) s) (fun t => t.vlt.vbat.latch = s.vlt.vbat.latch ||| 2 ^ i ∧ t.vlt.vbat.tampers = s.vlt.vbat.tampers + 1 ∧ t.vlt.slots = s.vlt.slots
        ∧ OnlyRegs [] s t ∧ MemSame s t))
  ∧ (∀ (s : State) (tm : Nat), Reaches (exec (.entropyFail tm) s) (fun t => t.vlt = { s.vlt with entropyOk := false } ∧ regBit t pgVlt Off.IRQ_STAT 2 = true
        ∧ regBit t pgVlt Off.VLT_STAT 5 = false
        ∧ OnlyRegs [(pgVlt, Off.IRQ_STAT), (pgVlt, Off.VLT_STAT), (pgVlt, Off.CNT_OTP), (pgVlt, Off.CNT_OTP + 4), (pgVlt, Off.CNT_OTP + 8), (pgVlt, Off.REC_GEN), (pgVlt, Off.SLOTS_USED)] s t
        ∧ MemSame s t))
  ∧ (∀ (s : State) (tm : Nat), Reaches (exec (.entropyOk tm) s) (fun t => t.vlt = { s.vlt with entropyOk := true } ∧ regBit t pgVlt Off.VLT_STAT 5 = true
        ∧ OnlyRegs [(pgVlt, Off.VLT_STAT), (pgVlt, Off.CNT_OTP), (pgVlt, Off.CNT_OTP + 4), (pgVlt, Off.CNT_OTP + 8), (pgVlt, Off.REC_GEN), (pgVlt, Off.SLOTS_USED)] s t ∧ MemSame s t))
  ∧ (∀ (s : State) (tm : Nat), s.now ≤ tm → Reaches (exec (.rtcLoad tm) s) (fun t => t.vlt.vbat.rtcAt = tm
        ∧ t.vlt.vbat.rtcSec = (tget 0 s.vlt.vbat.regs 0x10).toNat + fld (tget 0 s.vlt.vbat.regs 0x14) 0 16 * 2 ^ 32 ∧ t.vlt.slots = s.vlt.slots ∧ OnlyRegs [] s t ∧ MemSame s t))
  ∧ (∀ (s : State) (tm : Nat), Reaches (exec (.rtcLost tm) s) (fun t => t.mod = { s.mod with monBad := 0 } ∧ regBit t pgClk Off.MON_CFG 1 = true
        ∧ regBit t pgClk Off.IRQ_STAT 0 = true ∧ OnlyRegs [(pgClk, Off.MON_CFG), (pgClk, Off.IRQ_STAT)] s t ∧ MemSame s t))
  ∧ ∀ (s : State) (tid n : Nat) (data : Word), n < 16 → judge s tid pgVlt (Off.VQ_PTR + 0x10 * n) = .ok → (tenOf s n).state ≠ .resetting →
      Reaches (exec (.vqTail tid n data) s) (fun t => t.vlt = s.vlt ∧ MemSame s t
        ∧ (fld data 0 8 < vqSize s n → vqOcc s n ≤ vqDist s n (fld data 0 8) (vqHead s n) → vqDist s n (fld data 0 8) (vqHead s n) ≤ shareOf s n 0 → vqEn s n = true →
            t.resp = .done ∧ vqTailOf t n = fld data 0 8 ∧ vqHead t n = vqHead s n ∧ OnlyRegs [(pgVlt, Off.VQ_PTR + 0x10 * n)] s t)
        ∧ (vqSize s n ≤ fld data 0 8 ∨ vqDist s n (fld data 0 8) (vqHead s n) < vqOcc s n → t.resp = .error ∧ regBit t pgVlt Off.ERR_STAT 9 = true
            ∧ OnlyRegs [(pgVlt, Off.ERR_STAT), (pgVlt, Off.ERR_INFO), (pgVlt, Off.IRQ_STAT)] s t)
        ∧ (fld data 0 8 < vqSize s n → vqOcc s n ≤ vqDist s n (fld data 0 8) (vqHead s n) → shareOf s n 0 < vqDist s n (fld data 0 8) (vqHead s n) →
            t.resp = .error ∧ regBit t (pgTen n) Off.TEVT 6 = true ∧ OnlyRegs [(pgTen n, Off.TEVT)] s t))

/-- CONFIGURE leaves PROVISION only when the device is owned and its roots are present, and TID 0 then runs. TEST and TEST_END wait for their tick, and are refused out of their modes, behind another, or late; at their edge the mode changes. MAINTAIN and MAINT_END act at once. SYS_RST needs its key. A hart is released once at its entry. The watchdog is configured and kicked. A cluster powers down only if its engines are stopped, and is ready with memories cleared. The loss of a SerDes PLL takes its links down. (17_modes_clocks_power.md R422; 17_modes_clocks_power.md R423; 17_modes_clocks_power.md R424; 17_modes_clocks_power.md R428; 17_modes_clocks_power.md R430; 17_modes_clocks_power.md R435; 17_modes_clocks_power.md R436) -/
def Obligations.modes_harts_and_clusters : Prop :=
  (∀ (s : State) (tid : Nat) (data : Word), judge s tid pgMode Off.MODE_CMD = .ok → data &&& 0x7E = 0 →
      Reaches (exec (.configure tid data) s) (fun t => (mode s ≠ mProvision → ModeRefused 1 s t)
        ∧ (mode s = mProvision → ¬(s.vlt.otp.lifecycle = 1 ∧ slotPresent s.vlt 1 = true ∧ slotPresent s.vlt 2 = true) → ModeRefused 4 s t)
        ∧ (mode s = mProvision → s.vlt.otp.lifecycle = 1 → slotPresent s.vlt 1 = true → slotPresent s.vlt 2 = true →
            mode t = mConfigure ∧ regFld t pgMode Off.MODE_STAT 4 4 = mProvision ∧ (tenOf t 0).state = .running ∧ reg t pgMode Off.MODE_RESULT = 0
            ∧ regBit t pgMode Off.IRQ_STAT 0 = true
            ∧ OnlyRegs [(pgMode, Off.MODE_CMD), (pgMode, Off.MODE_STAT), (pgMode, Off.MODE_RESULT), (pgMode, Off.IRQ_STAT), (pgTen 0, Off.TEVT), (pgTens, Off.IRQ_STAT)] s t ∧ MemSame s t)))
  ∧ (∀ (s : State) (tid kind : Nat) (data : Word) (i : Instr), (kind, i) ∈ [(1, .testMode tid (data &&& 0xFF000002)), (2, .testEnd tid (data &&& 0xFF000004))] →
      judge s tid pgMode Off.MODE_CMD = .ok →
      Reaches (exec i s) (fun t =>
        (¬(kind = 1 ∧ (mode s = mShadow ∨ mode s = mActive)) → ¬(kind = 2 ∧ mode s = mTest) → ModeRefused 1 s t)
        ∧ ((kind = 1 ∧ (mode s = mShadow ∨ mode s = mActive)) ∨ (kind = 2 ∧ mode s = mTest) →
            (s.mod.pend ≠ none → ModeRefused 2 s t)
            ∧ (s.mod.pend = none → s32diff (reg s pgMode Off.MODE_AT) (nowTick s) < 2 → ModeRefused 3 s t)
            ∧ (s.mod.pend = none → 2 ≤ s32diff (reg s pgMode Off.MODE_AT) (nowTick s) →
                t.mod = { s.mod with pend := some ⟨kind, absTick s (reg s pgMode Off.MODE_AT), false⟩ } ∧ mode t = mode s ∧ regFld t pgMode Off.MODE_STAT 8 3 = kind
                ∧ OnlyRegs [(pgMode, Off.MODE_CMD), (pgMode, Off.MODE_STAT)] s t ∧ MemSame s t))))
  ∧ (∀ (s : State) (tid src dst : Nat) (data : Word) (i : Instr), (src, dst, i) ∈ [(mShadow, mMaintain, .maintain tid (data &&& 0xFF000008)), (mMaintain, mShadow, .maintEnd tid (data &&& 0xFF000010))] →
      judge s tid pgMode Off.MODE_CMD = .ok →
      Reaches (exec i s) (fun t => (mode s ≠ src → ModeRefused 1 s t) ∧ (mode s = src → s.mod.pend ≠ none → ModeRefused 2 s t)
        ∧ (mode s = src → s.mod.pend = none → mode t = dst ∧ regFld t pgMode Off.MODE_STAT 4 4 = src ∧ reg t pgMode Off.MODE_RESULT = 0 ∧ t.mod = s.mod
            ∧ OnlyRegs [(pgMode, Off.MODE_CMD), (pgMode, Off.MODE_STAT), (pgMode, Off.MODE_RESULT), (pgMode, Off.IRQ_STAT)] s t ∧ MemSame s t)))
  ∧ (∀ (s : State) (tid : Nat) (data : Word), StateInv s → judge s tid pgMode Off.MODE_CMD = .ok → data &&& 0x3F = 0 →
      Reaches (exec (.sysRst tid data) s) (fun t => (fld data 24 8 = 0xA5 → s.mod.power = true → SysReset 2 s t) ∧ (fld data 24 8 ≠ 0xA5 → ModeRefused 6 s t)))
  ∧ (∀ (s : State) (tm kind dst : Nat) (c : AtCmd) (i : Instr), (kind, dst, i) ∈ [(1, mTest, .testEntry tm), (2, if holdsTop s then mActive else mShadow, .testExit tm)] →
      s.tick.edgeAt = some tm → s.now ≤ tm → s.mod.pend = some c → c.kind = kind → c.target = s.tick.count →
      Reaches (exec i s) (fun t => mode t = dst ∧ t.mod = { s.mod with pend := none } ∧ reg t pgMode Off.MODE_RESULT = 0
        ∧ OnlyRegs [(pgMode, Off.MODE_STAT), (pgMode, Off.MODE_RESULT), (pgMode, Off.IRQ_STAT)] s t ∧ MemSame s t))
  ∧ (∀ (s : State) (tid h : Nat) (data : Word), judge s tid pgMode Off.HART_REL = .ok → mProvision ≤ mode s → 1 ≤ h → h ≤ 3 →
      Reaches (exec (.hartRelease tid data) s) (fun t => t.resp = .done ∧ OnlyRegs [] s t ∧ MemSame s t
        ∧ (bit data h = true → s.mod.harts.any (fun x => x.1 = h) = false → tget 0 t.mod.harts h
            = (reg s pgMode (Off.HART_ENTRY_LO + 8 * (h - 1))).toNat + regFld s pgMode (Off.HART_ENTRY_HI + 8 * (h - 1)) 0 16 * 2 ^ 32)
        ∧ (bit data h = false ∨ s.mod.harts.any (fun x => x.1 = h) = true → tget 0 t.mod.harts h = tget 0 s.mod.harts h)))
  ∧ (∀ (s : State) (tid : Nat) (data : Word), judge s tid pgMode Off.WDOG_CFG = .ok →
      Reaches (exec (.wdogCfgWrite tid data) s) (fun t => MemSame s t
        ∧ (bit data 0 = true → fld data 16 16 = 0 → t.resp = .error ∧ regBit t pgMode Off.ERR_STAT 8 = true ∧ t.mod = s.mod
            ∧ OnlyRegs [(pgMode, Off.ERR_STAT), (pgMode, Off.ERR_INFO), (pgMode, Off.IRQ_STAT)] s t)
        ∧ (bit data 0 = false ∨ fld data 16 16 ≠ 0 → t.resp = .done ∧ reg t pgMode Off.WDOG_CFG = data &&& 0xFFFF0003
            ∧ t.mod = { s.mod with wdogAt := if bit data 0 then some (s.now + fld data 16 16 * 1200000) else s.mod.wdogAt } ∧ OnlyRegs [(pgMode, Off.WDOG_CFG)] s t)))
  ∧ (∀ (s : State) (tid : Nat), judge s tid pgMode Off.WDOG_KICK = .ok →
      Reaches (exec (.kick tid) s) (fun t => t.mod = { s.mod with wdogAt := s.mod.wdogAt.map (fun _ => s.now + regFld s pgMode Off.WDOG_CFG 16 16 * 1200000) }
        ∧ t.resp = .done ∧ OnlyRegs [] s t ∧ MemSame s t))
  ∧ (∀ (s : State) (tid : Nat) (data new : Word), judge s tid pgClk Off.CLU_PD = .ok → new = data &&& word (2 ^ numClusters s.variant - 1) →
      Reaches (exec (.cluPdWrite tid data) s) (fun t => MemSame s t ∧ t.eng = s.eng
        ∧ ((∀ c < 4, bit new c = true → bit (reg s pgClk Off.CLU_PD) c = false → clusterStopped s c = true) → t.resp = .done ∧ reg t pgClk Off.CLU_PD = new
            ∧ reg t pgClk Off.PD_STAT = reg s pgClk Off.PD_STAT &&& ~~~new ∧ OnlyRegs [(pgClk, Off.CLU_PD), (pgClk, Off.PD_STAT)] s t)
        ∧ ((∃ c < 4, bit new c = true ∧ bit (reg s pgClk Off.CLU_PD) c = false ∧ clusterStopped s c = false) → t.resp = .error ∧ regBit t pgClk Off.ERR_STAT 8 = true
            ∧ OnlyRegs [(pgClk, Off.ERR_STAT), (pgClk, Off.ERR_INFO), (pgClk, Off.IRQ_STAT)] s t)))
  ∧ (∀ (s : State) (c tm : Nat), StateInv s → c < numClusters s.variant → regBit s pgClk Off.CLU_PD c = false → regBit s pgClk Off.PD_STAT c = false →
      Reaches (exec (.clusterReady c tm) s) (fun t => reg t pgClk Off.PD_STAT = reg s pgClk Off.PD_STAT ||| ((1 : Word) <<< c) ∧ OnlyRegs [(pgClk, Off.PD_STAT)] s t
        ∧ ∀ x, Memory.read t.mem x = (if (clmPhys c 0 ≤ x ∧ x < clmPhys (c + 1) 0) ∨ (imemPhys (4 * c) 0 ≤ x ∧ x < imemPhys (4 * c + 4) 0) then unlisted x else Memory.read s.mem x)))
  ∧ ∀ (s : State) (k tm : Nat), k < 2 → regBit s pgClk Off.PLL_STAT (1 + k) = true → (∀ p < 5, Silent s p) →
      Reaches (exec (.serdesPllLoss k tm) s) (fun t => regBit t pgClk Off.PLL_STAT (1 + k) = false ∧ regBit t pgClk Off.PLL_STAT (8 + k) = true
        ∧ regBit t pgClk Off.IRQ_STAT 1 = true ∧ (∀ p < 5, pllOf s p = k → hasPort s p = true → linkUp t p = false ∧ (linkUp s p = true → regBit t (pgPort p) Off.IRQ_STAT 0 = true))
        ∧ (∀ p < 5, pllOf s p ≠ k → linkUp t p = linkUp s p ∧ portOf t p = portOf s p) ∧ MemSame s t
        ∧ OnlyRegs ([(pgClk, Off.PLL_STAT), (pgClk, Off.IRQ_STAT)] ++ (List.range 5).flatMap (fun p => [(pgPort p, Off.LINK_STAT), (pgPort p, Off.IRQ_STAT)])) s t)

/-- A POR resets every register outside the VBAT domain, and the straps are latched anew by PORST_RELEASE, or as they were after a supply monitor's trip (log entry 6); a SYS reset leaves the straps and causes; both clear on-chip memory and keep OTP, flash and VBAT. A power warning closes the gate and 20 us later resets. Without main power the mode is RETAIN or OFF; a fall of VBAT resets its domain. RESET_RELEASE checks the boot slots in order: the first image that passes boots, with MEAS1 and MEAS2 extended, and none passing stops in SAFE with the codes. BOOT_COMPLETE puts PLAT_FW into LPDDR4X and releases hart 0 in PROVISION, or stops in SAFE. The reset values that the model chose are its own (log entries 6, 7, 35). (16_vault_and_boot.md R394; 16_vault_and_boot.md R396; 16_vault_and_boot.md R397; 16_vault_and_boot.md R398; 16_vault_and_boot.md R418; 17_modes_clocks_power.md R422; 17_modes_clocks_power.md R426; 17_modes_clocks_power.md R427; 17_modes_clocks_power.md R431; 17_modes_clocks_power.md R434) -/
def Obligations.resets_supplies_and_boot : Prop :=
  (∀ (s : State) (tm i : Nat) (c : Instr), (i, c) ∈ [(1, .sysrstLow tm), (5, .rootPllLoss tm)] → StateInv s → s.mod.power = true → Reaches (exec c s) (fun t => SysReset i s t))
  ∧ (∀ (s : State) (tm : Nat), StateInv s → s.mod.power = true → Reaches (exec (.supplyMonitorTrip tm) s) (fun t =>
      mode t = mReset ∧ reg t pgMode Off.RST_CAUSE = (if regBit s pgMode Off.STRAPS 1 then 0x81 else 1) ∧ reg t pgMode Off.STRAPS = reg s pgMode Off.STRAPS
        ∧ (∀ pg off, off < 0x1000 → (pg, off) ∉ [(pgMode, Off.RST_CAUSE), (pgMode, Off.STRAPS)] → reg t pg off = resetWord s.variant pg off) ∧ Cleared s t))
  ∧ (∀ (s : State) (tm : Nat), StateInv s → s.mod.power = true → Reaches (exec (.porstLow tm) s) (fun t => PorReset s t ∧ t.mod.porst = true))
  ∧ (∀ (s : State) (pref mfg : Bool) (tm : Nat), s.mod.porst = true → s.mod.power = true →
      Reaches (exec (.porstRelease pref mfg tm) s) (fun t => t.mod = { s.mod with porst := false } ∧ reg t pgMode Off.STRAPS = word (b2n pref + b2n mfg * 2)
        ∧ reg t pgMode Off.RST_CAUSE = (if mfg then reg s pgMode Off.RST_CAUSE ||| 0x80 else reg s pgMode Off.RST_CAUSE)
        ∧ OnlyRegs [(pgMode, Off.STRAPS), (pgMode, Off.RST_CAUSE)] s t ∧ MemSame s t))
  ∧ (∀ (s : State) (tm : Nat), StateInv s → s.mod.power = false → Reaches (exec (.mainPowerOn tm) s) (fun t => PorReset s t ∧ t.mod.power = true ∧ t.mod.porst = true))
  ∧ (∀ (s : State) (tm : Nat), StateInv s → s.mod.power = true →
      Reaches (exec (.mainPowerOff tm) s) (fun t => mode t = (if s.mod.vbat then mRetain else mOff) ∧ t.mod.power = false ∧ t.eng = [] ∧ t.net = []
        ∧ t.vlt.otp = s.vlt.otp ∧ t.vlt.areas = s.vlt.areas ∧ t.vlt.vbat = { s.vlt.vbat with retainSeen := s.vlt.vbat.retainSeen || s.mod.vbat } ∧ t.vlt.slots = []
        ∧ ∀ x, Memory.read t.mem x = (if 0x60000000 ≤ x ∧ x < 0x70000000 then Memory.read s.mem x else unlisted x)))
  ∧ (∀ (s : State) (tm : Nat), Reaches (exec (.vbatRise tm) s) (fun t => t.mod = { s.mod with vbat := true } ∧ MemSame s t
        ∧ (s.mod.power = true → t.vlt = s.vlt ∧ OnlyRegs [] s t) ∧ (s.mod.power = false → mode t = mRetain ∧ OnlyRegs [(pgMode, Off.MODE_STAT)] s t)))
  ∧ (∀ (s : State) (tm : Nat), s.now ≤ tm → Reaches (exec (.vbatFall tm) s) (fun t => t.mod = { s.mod with vbat := false } ∧ t.vlt = { s.vlt with vbat := { Vbat.init with rtcAt := tm } }
        ∧ (s.mod.power = false → mode t = mOff) ∧ (s.mod.power = true → mode t = mode s) ∧ MemSame s t))
  ∧ (∀ (s : State) (tm : Nat), s.now ≤ tm → s.mod.power = true → s.mod.failLow = false →
      Reaches (exec (.powerFailWarning tm) s) (fun t => gateOpen t = false ∧ regFld t pgPair0 Off.GATE_STAT 4 4 = 6 ∧ regBit t pgMode Off.IRQ_STAT 2 = true
        ∧ t.mod = { s.mod with warnAt := some tm, failLow := true } ∧ (s.pair.link ≠ 0 → t.pair.resigned = true)))
  ∧ (∀ (s : State) (tm w : Nat), StateInv s → s.mod.warnAt = some w → w + 24000 ≤ tm → s.mod.power = true → Reaches (exec (.powerFailReset tm) s) (fun t => SysReset 4 s t))
  ∧ (∀ (s : State) (tm : Nat), Reaches (exec (.powerFailReturn tm) s) (fun t => t.mod = { s.mod with failLow := false } ∧ OnlyRegs [] s t ∧ MemSame s t))
  ∧ (∀ (s : State) (tm : Nat), Reaches (exec (.tapReset tm) s) (fun t => t = { s with now := max s.now tm }))
  ∧ (∀ (s : State) (flash : List (Nat × Byte)) (tm a b : Nat), resetReleased s = true → latched s.vlt 1 3 = false → slotOrder flash = [a, b] →
      Reaches (exec (.resetRelease flash tm) s) (fun t => t.vlt.vbat.boots = s.vlt.vbat.boots + 1 ∧ t.vlt.slots = s.vlt.slots ∧ regBit t pgClk Off.PLL_STAT 0 = true
        ∧ t.vlt.meas.getD 0 0 = (s.vlt.meas.set 0 (Config.sha3_512 (beBytes 64 (s.vlt.meas.getD 0 0) ++ sha512 (otpImage s.vlt.otp ++ Config.romRevision)))).getD 0 0
        ∧ match checkSlot s flash a, checkSlot s flash b with
          | .ok img, _ => mode t = mVerify ∧ t.mod.boot = some img ∧ regFld t pgVlt Off.BOOT_INFO (4 * a) 4 = 0
          | .error c, .ok img => mode t = mVerify ∧ t.mod.boot = some img ∧ regFld t pgVlt Off.BOOT_INFO (4 * a) 4 = c ∧ regFld t pgVlt Off.BOOT_INFO (4 * b) 4 = 0
          | .error c, .error d => mode t = mSafe ∧ reg t pgMode Off.SAFE_CAUSE = 1 ∧ regFld t pgVlt Off.BOOT_INFO (4 * a) 4 = c ∧ regFld t pgVlt Off.BOOT_INFO (4 * b) 4 = d))
  ∧ ∀ (s : State) (ddrOk : Bool) (plat : List Byte) (tm : Nat) (img : BootImage), StateInv s → s.mod.boot = some img → mode s = mVerify → img.slot < 2 →
      Reaches (exec (.bootComplete ddrOk plat tm) s) (fun t =>
        if ddrOk = false then mode t = mSafe ∧ reg t pgMode Off.SAFE_CAUSE = 1 ∧ regFld t pgVlt Off.BOOT_INFO (4 * img.slot) 4 = 10
        else if sha512 plat ≠ sha512 img.plat then mode t = mSafe ∧ reg t pgMode Off.SAFE_CAUSE = 1 ∧ regFld t pgVlt Off.BOOT_INFO (4 * img.slot) 4 = 9
        else mode t = mProvision ∧ t.mod.boot = none ∧ tget 0 t.mod.harts 0 = leAt img.plat 8 8 ∧ reg t pgVlt Off.BOOT_VERSION = word img.version
          ∧ regFld t pgVlt Off.BOOT_INFO 8 1 = img.slot ∧ (∀ i < (img.plat.drop 16).length, Memory.read t.mem (leAt img.plat 0 8 + i) = (img.plat.drop 16)[i]?)
          ∧ MemOutside (leAt img.plat 0 8) (img.plat.drop 16).length s t)
end

