-- ==== Sys2Proof/Laws/State.lean ====
section
/-!
SUPPORT. What each named update of the state leaves unchanged: one lemma for each field, so that no proof unfolds a record update.
-/
namespace Sys2Proof.Machine

/-! `advance` -/

@[simp] theorem advance_variant (s : State) (tm : Nat) : (advance s tm).variant = s.variant := rfl
@[simp] theorem advance_pending (s : State) (tm : Nat) : (advance s tm).pending = s.pending := rfl
@[simp] theorem advance_free (s : State) (tm : Nat) : (advance s tm).free = s.free := rfl
@[simp] theorem advance_resp (s : State) (tm : Nat) : (advance s tm).resp = s.resp := rfl
@[simp] theorem advance_regs (s : State) (tm : Nat) : (advance s tm).regs = s.regs := rfl
@[simp] theorem advance_mem (s : State) (tm : Nat) : (advance s tm).mem = s.mem := rfl
@[simp] theorem advance_epoch (s : State) (tm : Nat) : (advance s tm).epoch = s.epoch := rfl
@[simp] theorem advance_eccUe (s : State) (tm : Nat) : (advance s tm).eccUe = s.eccUe := rfl
@[simp] theorem advance_eccCe (s : State) (tm : Nat) : (advance s tm).eccCe = s.eccCe := rfl
@[simp] theorem advance_mbx (s : State) (tm : Nat) : (advance s tm).mbx = s.mbx := rfl
@[simp] theorem advance_held (s : State) (tm : Nat) : (advance s tm).held = s.held := rfl
@[simp] theorem advance_ind (s : State) (tm : Nat) : (advance s tm).ind = s.ind := rfl
@[simp] theorem advance_irq (s : State) (tm : Nat) : (advance s tm).irq = s.irq := rfl
@[simp] theorem advance_handed (s : State) (tm : Nat) : (advance s tm).handed = s.handed := rfl
@[simp] theorem advance_tick (s : State) (tm : Nat) : (advance s tm).tick = s.tick := rfl
@[simp] theorem advance_eng (s : State) (tm : Nat) : (advance s tm).eng = s.eng := rfl
@[simp] theorem advance_clu (s : State) (tm : Nat) : (advance s tm).clu = s.clu := rfl
@[simp] theorem advance_xfers (s : State) (tm : Nat) : (advance s tm).xfers = s.xfers := rfl
@[simp] theorem advance_fabric (s : State) (tm : Nat) : (advance s tm).fabric = s.fabric := rfl
@[simp] theorem advance_car (s : State) (tm : Nat) : (advance s tm).car = s.car := rfl
@[simp] theorem advance_hop (s : State) (tm : Nat) : (advance s tm).hop = s.hop := rfl
@[simp] theorem advance_ten (s : State) (tm : Nat) : (advance s tm).ten = s.ten := rfl
@[simp] theorem advance_tim (s : State) (tm : Nat) : (advance s tm).tim = s.tim := rfl
@[simp] theorem advance_dec (s : State) (tm : Nat) : (advance s tm).dec = s.dec := rfl
@[simp] theorem advance_net (s : State) (tm : Nat) : (advance s tm).net = s.net := rfl
@[simp] theorem advance_red (s : State) (tm : Nat) : (advance s tm).red = s.red := rfl
@[simp] theorem advance_vlt (s : State) (tm : Nat) : (advance s tm).vlt = s.vlt := rfl
@[simp] theorem advance_gse (s : State) (tm : Nat) : (advance s tm).gse = s.gse := rfl
@[simp] theorem advance_met (s : State) (tm : Nat) : (advance s tm).met = s.met := rfl
@[simp] theorem advance_cap (s : State) (tm : Nat) : (advance s tm).cap = s.cap := rfl
@[simp] theorem advance_lgr (s : State) (tm : Nat) : (advance s tm).lgr = s.lgr := rfl
@[simp] theorem advance_pair (s : State) (tm : Nat) : (advance s tm).pair = s.pair := rfl
@[simp] theorem advance_str (s : State) (tm : Nat) : (advance s tm).str = s.str := rfl
@[simp] theorem advance_mod (s : State) (tm : Nat) : (advance s tm).mod = s.mod := rfl
@[simp] theorem advance_pma (s : State) (tm : Nat) : (advance s tm).pma = s.pma := rfl
@[simp] theorem advance_hits (s : State) (tm : Nat) : (advance s tm).hits = s.hits := rfl

/-! `noteFlags` -/

@[simp] theorem noteFlags_variant (pg o : Nat) (m : Word) (s : State) : (noteFlags pg o m s).variant = s.variant := rfl
@[simp] theorem noteFlags_pending (pg o : Nat) (m : Word) (s : State) : (noteFlags pg o m s).pending = s.pending := rfl
@[simp] theorem noteFlags_now (pg o : Nat) (m : Word) (s : State) : (noteFlags pg o m s).now = s.now := rfl
@[simp] theorem noteFlags_free (pg o : Nat) (m : Word) (s : State) : (noteFlags pg o m s).free = s.free := rfl
@[simp] theorem noteFlags_resp (pg o : Nat) (m : Word) (s : State) : (noteFlags pg o m s).resp = s.resp := rfl
@[simp] theorem noteFlags_mem (pg o : Nat) (m : Word) (s : State) : (noteFlags pg o m s).mem = s.mem := rfl
@[simp] theorem noteFlags_epoch (pg o : Nat) (m : Word) (s : State) : (noteFlags pg o m s).epoch = s.epoch := rfl
@[simp] theorem noteFlags_eccUe (pg o : Nat) (m : Word) (s : State) : (noteFlags pg o m s).eccUe = s.eccUe := rfl
@[simp] theorem noteFlags_eccCe (pg o : Nat) (m : Word) (s : State) : (noteFlags pg o m s).eccCe = s.eccCe := rfl
@[simp] theorem noteFlags_mbx (pg o : Nat) (m : Word) (s : State) : (noteFlags pg o m s).mbx = s.mbx := rfl
@[simp] theorem noteFlags_held (pg o : Nat) (m : Word) (s : State) : (noteFlags pg o m s).held = s.held := rfl
@[simp] theorem noteFlags_ind (pg o : Nat) (m : Word) (s : State) : (noteFlags pg o m s).ind = s.ind := rfl
@[simp] theorem noteFlags_irq (pg o : Nat) (m : Word) (s : State) : (noteFlags pg o m s).irq = s.irq := rfl
@[simp] theorem noteFlags_handed (pg o : Nat) (m : Word) (s : State) : (noteFlags pg o m s).handed = s.handed := rfl
@[simp] theorem noteFlags_tick (pg o : Nat) (m : Word) (s : State) : (noteFlags pg o m s).tick = s.tick := rfl
@[simp] theorem noteFlags_eng (pg o : Nat) (m : Word) (s : State) : (noteFlags pg o m s).eng = s.eng := rfl
@[simp] theorem noteFlags_clu (pg o : Nat) (m : Word) (s : State) : (noteFlags pg o m s).clu = s.clu := rfl
@[simp] theorem noteFlags_xfers (pg o : Nat) (m : Word) (s : State) : (noteFlags pg o m s).xfers = s.xfers := rfl
@[simp] theorem noteFlags_fabric (pg o : Nat) (m : Word) (s : State) : (noteFlags pg o m s).fabric = s.fabric := rfl
@[simp] theorem noteFlags_car (pg o : Nat) (m : Word) (s : State) : (noteFlags pg o m s).car = s.car := rfl
@[simp] theorem noteFlags_hop (pg o : Nat) (m : Word) (s : State) : (noteFlags pg o m s).hop = s.hop := rfl
@[simp] theorem noteFlags_ten (pg o : Nat) (m : Word) (s : State) : (noteFlags pg o m s).ten = s.ten := rfl
@[simp] theorem noteFlags_tim (pg o : Nat) (m : Word) (s : State) : (noteFlags pg o m s).tim = s.tim := rfl
@[simp] theorem noteFlags_dec (pg o : Nat) (m : Word) (s : State) : (noteFlags pg o m s).dec = s.dec := rfl
@[simp] theorem noteFlags_net (pg o : Nat) (m : Word) (s : State) : (noteFlags pg o m s).net = s.net := rfl
@[simp] theorem noteFlags_red (pg o : Nat) (m : Word) (s : State) : (noteFlags pg o m s).red = s.red := rfl
@[simp] theorem noteFlags_vlt (pg o : Nat) (m : Word) (s : State) : (noteFlags pg o m s).vlt = s.vlt := rfl
@[simp] theorem noteFlags_gse (pg o : Nat) (m : Word) (s : State) : (noteFlags pg o m s).gse = s.gse := rfl
@[simp] theorem noteFlags_met (pg o : Nat) (m : Word) (s : State) : (noteFlags pg o m s).met = s.met := rfl
@[simp] theorem noteFlags_cap (pg o : Nat) (m : Word) (s : State) : (noteFlags pg o m s).cap = s.cap := rfl
@[simp] theorem noteFlags_lgr (pg o : Nat) (m : Word) (s : State) : (noteFlags pg o m s).lgr = s.lgr := rfl
@[simp] theorem noteFlags_pair (pg o : Nat) (m : Word) (s : State) : (noteFlags pg o m s).pair = s.pair := rfl
@[simp] theorem noteFlags_str (pg o : Nat) (m : Word) (s : State) : (noteFlags pg o m s).str = s.str := rfl
@[simp] theorem noteFlags_mod (pg o : Nat) (m : Word) (s : State) : (noteFlags pg o m s).mod = s.mod := rfl
@[simp] theorem noteFlags_pma (pg o : Nat) (m : Word) (s : State) : (noteFlags pg o m s).pma = s.pma := rfl
@[simp] theorem noteFlags_regs (pg o : Nat) (m : Word) (s : State) : (noteFlags pg o m s).regs = s.regs := rfl

/-! `noteCount` -/

@[simp] theorem noteCount_variant (pg o n : Nat) (s : State) : (noteCount pg o n s).variant = s.variant := rfl
@[simp] theorem noteCount_pending (pg o n : Nat) (s : State) : (noteCount pg o n s).pending = s.pending := rfl
@[simp] theorem noteCount_now (pg o n : Nat) (s : State) : (noteCount pg o n s).now = s.now := rfl
@[simp] theorem noteCount_free (pg o n : Nat) (s : State) : (noteCount pg o n s).free = s.free := rfl
@[simp] theorem noteCount_resp (pg o n : Nat) (s : State) : (noteCount pg o n s).resp = s.resp := rfl
@[simp] theorem noteCount_mem (pg o n : Nat) (s : State) : (noteCount pg o n s).mem = s.mem := rfl
@[simp] theorem noteCount_epoch (pg o n : Nat) (s : State) : (noteCount pg o n s).epoch = s.epoch := rfl
@[simp] theorem noteCount_eccUe (pg o n : Nat) (s : State) : (noteCount pg o n s).eccUe = s.eccUe := rfl
@[simp] theorem noteCount_eccCe (pg o n : Nat) (s : State) : (noteCount pg o n s).eccCe = s.eccCe := rfl
@[simp] theorem noteCount_mbx (pg o n : Nat) (s : State) : (noteCount pg o n s).mbx = s.mbx := rfl
@[simp] theorem noteCount_held (pg o n : Nat) (s : State) : (noteCount pg o n s).held = s.held := rfl
@[simp] theorem noteCount_ind (pg o n : Nat) (s : State) : (noteCount pg o n s).ind = s.ind := rfl
@[simp] theorem noteCount_irq (pg o n : Nat) (s : State) : (noteCount pg o n s).irq = s.irq := rfl
@[simp] theorem noteCount_handed (pg o n : Nat) (s : State) : (noteCount pg o n s).handed = s.handed := rfl
@[simp] theorem noteCount_tick (pg o n : Nat) (s : State) : (noteCount pg o n s).tick = s.tick := rfl
@[simp] theorem noteCount_eng (pg o n : Nat) (s : State) : (noteCount pg o n s).eng = s.eng := rfl
@[simp] theorem noteCount_clu (pg o n : Nat) (s : State) : (noteCount pg o n s).clu = s.clu := rfl
@[simp] theorem noteCount_xfers (pg o n : Nat) (s : State) : (noteCount pg o n s).xfers = s.xfers := rfl
@[simp] theorem noteCount_fabric (pg o n : Nat) (s : State) : (noteCount pg o n s).fabric = s.fabric := rfl
@[simp] theorem noteCount_car (pg o n : Nat) (s : State) : (noteCount pg o n s).car = s.car := rfl
@[simp] theorem noteCount_hop (pg o n : Nat) (s : State) : (noteCount pg o n s).hop = s.hop := rfl
@[simp] theorem noteCount_ten (pg o n : Nat) (s : State) : (noteCount pg o n s).ten = s.ten := rfl
@[simp] theorem noteCount_tim (pg o n : Nat) (s : State) : (noteCount pg o n s).tim = s.tim := rfl
@[simp] theorem noteCount_dec (pg o n : Nat) (s : State) : (noteCount pg o n s).dec = s.dec := rfl
@[simp] theorem noteCount_net (pg o n : Nat) (s : State) : (noteCount pg o n s).net = s.net := rfl
@[simp] theorem noteCount_red (pg o n : Nat) (s : State) : (noteCount pg o n s).red = s.red := rfl
@[simp] theorem noteCount_vlt (pg o n : Nat) (s : State) : (noteCount pg o n s).vlt = s.vlt := rfl
@[simp] theorem noteCount_gse (pg o n : Nat) (s : State) : (noteCount pg o n s).gse = s.gse := rfl
@[simp] theorem noteCount_met (pg o n : Nat) (s : State) : (noteCount pg o n s).met = s.met := rfl
@[simp] theorem noteCount_cap (pg o n : Nat) (s : State) : (noteCount pg o n s).cap = s.cap := rfl
@[simp] theorem noteCount_lgr (pg o n : Nat) (s : State) : (noteCount pg o n s).lgr = s.lgr := rfl
@[simp] theorem noteCount_pair (pg o n : Nat) (s : State) : (noteCount pg o n s).pair = s.pair := rfl
@[simp] theorem noteCount_str (pg o n : Nat) (s : State) : (noteCount pg o n s).str = s.str := rfl
@[simp] theorem noteCount_mod (pg o n : Nat) (s : State) : (noteCount pg o n s).mod = s.mod := rfl
@[simp] theorem noteCount_pma (pg o n : Nat) (s : State) : (noteCount pg o n s).pma = s.pma := rfl
@[simp] theorem noteCount_regs (pg o n : Nat) (s : State) : (noteCount pg o n s).regs = s.regs := rfl

/-! `setReg` -/

@[simp] theorem setReg_variant (s : State) (pg o : Nat) (w : Word) : (setReg s pg o w).variant = s.variant := rfl
@[simp] theorem setReg_pending (s : State) (pg o : Nat) (w : Word) : (setReg s pg o w).pending = s.pending := rfl
@[simp] theorem setReg_now (s : State) (pg o : Nat) (w : Word) : (setReg s pg o w).now = s.now := rfl
@[simp] theorem setReg_free (s : State) (pg o : Nat) (w : Word) : (setReg s pg o w).free = s.free := rfl
@[simp] theorem setReg_resp (s : State) (pg o : Nat) (w : Word) : (setReg s pg o w).resp = s.resp := rfl
@[simp] theorem setReg_mem (s : State) (pg o : Nat) (w : Word) : (setReg s pg o w).mem = s.mem := rfl
@[simp] theorem setReg_epoch (s : State) (pg o : Nat) (w : Word) : (setReg s pg o w).epoch = s.epoch := rfl
@[simp] theorem setReg_eccUe (s : State) (pg o : Nat) (w : Word) : (setReg s pg o w).eccUe = s.eccUe := rfl
@[simp] theorem setReg_eccCe (s : State) (pg o : Nat) (w : Word) : (setReg s pg o w).eccCe = s.eccCe := rfl
@[simp] theorem setReg_mbx (s : State) (pg o : Nat) (w : Word) : (setReg s pg o w).mbx = s.mbx := rfl
@[simp] theorem setReg_held (s : State) (pg o : Nat) (w : Word) : (setReg s pg o w).held = s.held := rfl
@[simp] theorem setReg_ind (s : State) (pg o : Nat) (w : Word) : (setReg s pg o w).ind = s.ind := rfl
@[simp] theorem setReg_irq (s : State) (pg o : Nat) (w : Word) : (setReg s pg o w).irq = s.irq := rfl
@[simp] theorem setReg_handed (s : State) (pg o : Nat) (w : Word) : (setReg s pg o w).handed = s.handed := rfl
@[simp] theorem setReg_tick (s : State) (pg o : Nat) (w : Word) : (setReg s pg o w).tick = s.tick := rfl
@[simp] theorem setReg_eng (s : State) (pg o : Nat) (w : Word) : (setReg s pg o w).eng = s.eng := rfl
@[simp] theorem setReg_clu (s : State) (pg o : Nat) (w : Word) : (setReg s pg o w).clu = s.clu := rfl
@[simp] theorem setReg_xfers (s : State) (pg o : Nat) (w : Word) : (setReg s pg o w).xfers = s.xfers := rfl
@[simp] theorem setReg_fabric (s : State) (pg o : Nat) (w : Word) : (setReg s pg o w).fabric = s.fabric := rfl
@[simp] theorem setReg_car (s : State) (pg o : Nat) (w : Word) : (setReg s pg o w).car = s.car := rfl
@[simp] theorem setReg_hop (s : State) (pg o : Nat) (w : Word) : (setReg s pg o w).hop = s.hop := rfl
@[simp] theorem setReg_ten (s : State) (pg o : Nat) (w : Word) : (setReg s pg o w).ten = s.ten := rfl
@[simp] theorem setReg_tim (s : State) (pg o : Nat) (w : Word) : (setReg s pg o w).tim = s.tim := rfl
@[simp] theorem setReg_dec (s : State) (pg o : Nat) (w : Word) : (setReg s pg o w).dec = s.dec := rfl
@[simp] theorem setReg_net (s : State) (pg o : Nat) (w : Word) : (setReg s pg o w).net = s.net := rfl
@[simp] theorem setReg_red (s : State) (pg o : Nat) (w : Word) : (setReg s pg o w).red = s.red := rfl
@[simp] theorem setReg_vlt (s : State) (pg o : Nat) (w : Word) : (setReg s pg o w).vlt = s.vlt := rfl
@[simp] theorem setReg_gse (s : State) (pg o : Nat) (w : Word) : (setReg s pg o w).gse = s.gse := rfl
@[simp] theorem setReg_met (s : State) (pg o : Nat) (w : Word) : (setReg s pg o w).met = s.met := rfl
@[simp] theorem setReg_cap (s : State) (pg o : Nat) (w : Word) : (setReg s pg o w).cap = s.cap := rfl
@[simp] theorem setReg_lgr (s : State) (pg o : Nat) (w : Word) : (setReg s pg o w).lgr = s.lgr := rfl
@[simp] theorem setReg_pair (s : State) (pg o : Nat) (w : Word) : (setReg s pg o w).pair = s.pair := rfl
@[simp] theorem setReg_str (s : State) (pg o : Nat) (w : Word) : (setReg s pg o w).str = s.str := rfl
@[simp] theorem setReg_mod (s : State) (pg o : Nat) (w : Word) : (setReg s pg o w).mod = s.mod := rfl
@[simp] theorem setReg_pma (s : State) (pg o : Nat) (w : Word) : (setReg s pg o w).pma = s.pma := rfl
@[simp] theorem setReg_hits (s : State) (pg o : Nat) (w : Word) : (setReg s pg o w).hits = s.hits := rfl

/-! `setRegFld` -/

@[simp] theorem setRegFld_variant (s : State) (pg o lo n v : Nat) : (setRegFld s pg o lo n v).variant = s.variant := rfl
@[simp] theorem setRegFld_pending (s : State) (pg o lo n v : Nat) : (setRegFld s pg o lo n v).pending = s.pending := rfl
@[simp] theorem setRegFld_now (s : State) (pg o lo n v : Nat) : (setRegFld s pg o lo n v).now = s.now := rfl
@[simp] theorem setRegFld_free (s : State) (pg o lo n v : Nat) : (setRegFld s pg o lo n v).free = s.free := rfl
@[simp] theorem setRegFld_resp (s : State) (pg o lo n v : Nat) : (setRegFld s pg o lo n v).resp = s.resp := rfl
@[simp] theorem setRegFld_mem (s : State) (pg o lo n v : Nat) : (setRegFld s pg o lo n v).mem = s.mem := rfl
@[simp] theorem setRegFld_epoch (s : State) (pg o lo n v : Nat) : (setRegFld s pg o lo n v).epoch = s.epoch := rfl
@[simp] theorem setRegFld_eccUe (s : State) (pg o lo n v : Nat) : (setRegFld s pg o lo n v).eccUe = s.eccUe := rfl
@[simp] theorem setRegFld_eccCe (s : State) (pg o lo n v : Nat) : (setRegFld s pg o lo n v).eccCe = s.eccCe := rfl
@[simp] theorem setRegFld_mbx (s : State) (pg o lo n v : Nat) : (setRegFld s pg o lo n v).mbx = s.mbx := rfl
@[simp] theorem setRegFld_held (s : State) (pg o lo n v : Nat) : (setRegFld s pg o lo n v).held = s.held := rfl
@[simp] theorem setRegFld_ind (s : State) (pg o lo n v : Nat) : (setRegFld s pg o lo n v).ind = s.ind := rfl
@[simp] theorem setRegFld_irq (s : State) (pg o lo n v : Nat) : (setRegFld s pg o lo n v).irq = s.irq := rfl
@[simp] theorem setRegFld_handed (s : State) (pg o lo n v : Nat) : (setRegFld s pg o lo n v).handed = s.handed := rfl
@[simp] theorem setRegFld_tick (s : State) (pg o lo n v : Nat) : (setRegFld s pg o lo n v).tick = s.tick := rfl
@[simp] theorem setRegFld_eng (s : State) (pg o lo n v : Nat) : (setRegFld s pg o lo n v).eng = s.eng := rfl
@[simp] theorem setRegFld_clu (s : State) (pg o lo n v : Nat) : (setRegFld s pg o lo n v).clu = s.clu := rfl
@[simp] theorem setRegFld_xfers (s : State) (pg o lo n v : Nat) : (setRegFld s pg o lo n v).xfers = s.xfers := rfl
@[simp] theorem setRegFld_fabric (s : State) (pg o lo n v : Nat) : (setRegFld s pg o lo n v).fabric = s.fabric := rfl
@[simp] theorem setRegFld_car (s : State) (pg o lo n v : Nat) : (setRegFld s pg o lo n v).car = s.car := rfl
@[simp] theorem setRegFld_hop (s : State) (pg o lo n v : Nat) : (setRegFld s pg o lo n v).hop = s.hop := rfl
@[simp] theorem setRegFld_ten (s : State) (pg o lo n v : Nat) : (setRegFld s pg o lo n v).ten = s.ten := rfl
@[simp] theorem setRegFld_tim (s : State) (pg o lo n v : Nat) : (setRegFld s pg o lo n v).tim = s.tim := rfl
@[simp] theorem setRegFld_dec (s : State) (pg o lo n v : Nat) : (setRegFld s pg o lo n v).dec = s.dec := rfl
@[simp] theorem setRegFld_net (s : State) (pg o lo n v : Nat) : (setRegFld s pg o lo n v).net = s.net := rfl
@[simp] theorem setRegFld_red (s : State) (pg o lo n v : Nat) : (setRegFld s pg o lo n v).red = s.red := rfl
@[simp] theorem setRegFld_vlt (s : State) (pg o lo n v : Nat) : (setRegFld s pg o lo n v).vlt = s.vlt := rfl
@[simp] theorem setRegFld_gse (s : State) (pg o lo n v : Nat) : (setRegFld s pg o lo n v).gse = s.gse := rfl
@[simp] theorem setRegFld_met (s : State) (pg o lo n v : Nat) : (setRegFld s pg o lo n v).met = s.met := rfl
@[simp] theorem setRegFld_cap (s : State) (pg o lo n v : Nat) : (setRegFld s pg o lo n v).cap = s.cap := rfl
@[simp] theorem setRegFld_lgr (s : State) (pg o lo n v : Nat) : (setRegFld s pg o lo n v).lgr = s.lgr := rfl
@[simp] theorem setRegFld_pair (s : State) (pg o lo n v : Nat) : (setRegFld s pg o lo n v).pair = s.pair := rfl
@[simp] theorem setRegFld_str (s : State) (pg o lo n v : Nat) : (setRegFld s pg o lo n v).str = s.str := rfl
@[simp] theorem setRegFld_mod (s : State) (pg o lo n v : Nat) : (setRegFld s pg o lo n v).mod = s.mod := rfl
@[simp] theorem setRegFld_pma (s : State) (pg o lo n v : Nat) : (setRegFld s pg o lo n v).pma = s.pma := rfl
@[simp] theorem setRegFld_hits (s : State) (pg o lo n v : Nat) : (setRegFld s pg o lo n v).hits = s.hits := rfl

/-! `orReg` -/

@[simp] theorem orReg_variant (s : State) (pg o : Nat) (m : Word) : (orReg s pg o m).variant = s.variant := rfl
@[simp] theorem orReg_pending (s : State) (pg o : Nat) (m : Word) : (orReg s pg o m).pending = s.pending := rfl
@[simp] theorem orReg_now (s : State) (pg o : Nat) (m : Word) : (orReg s pg o m).now = s.now := rfl
@[simp] theorem orReg_free (s : State) (pg o : Nat) (m : Word) : (orReg s pg o m).free = s.free := rfl
@[simp] theorem orReg_resp (s : State) (pg o : Nat) (m : Word) : (orReg s pg o m).resp = s.resp := rfl
@[simp] theorem orReg_mem (s : State) (pg o : Nat) (m : Word) : (orReg s pg o m).mem = s.mem := rfl
@[simp] theorem orReg_epoch (s : State) (pg o : Nat) (m : Word) : (orReg s pg o m).epoch = s.epoch := rfl
@[simp] theorem orReg_eccUe (s : State) (pg o : Nat) (m : Word) : (orReg s pg o m).eccUe = s.eccUe := rfl
@[simp] theorem orReg_eccCe (s : State) (pg o : Nat) (m : Word) : (orReg s pg o m).eccCe = s.eccCe := rfl
@[simp] theorem orReg_mbx (s : State) (pg o : Nat) (m : Word) : (orReg s pg o m).mbx = s.mbx := rfl
@[simp] theorem orReg_held (s : State) (pg o : Nat) (m : Word) : (orReg s pg o m).held = s.held := rfl
@[simp] theorem orReg_ind (s : State) (pg o : Nat) (m : Word) : (orReg s pg o m).ind = s.ind := rfl
@[simp] theorem orReg_irq (s : State) (pg o : Nat) (m : Word) : (orReg s pg o m).irq = s.irq := rfl
@[simp] theorem orReg_handed (s : State) (pg o : Nat) (m : Word) : (orReg s pg o m).handed = s.handed := rfl
@[simp] theorem orReg_tick (s : State) (pg o : Nat) (m : Word) : (orReg s pg o m).tick = s.tick := rfl
@[simp] theorem orReg_eng (s : State) (pg o : Nat) (m : Word) : (orReg s pg o m).eng = s.eng := rfl
@[simp] theorem orReg_clu (s : State) (pg o : Nat) (m : Word) : (orReg s pg o m).clu = s.clu := rfl
@[simp] theorem orReg_xfers (s : State) (pg o : Nat) (m : Word) : (orReg s pg o m).xfers = s.xfers := rfl
@[simp] theorem orReg_fabric (s : State) (pg o : Nat) (m : Word) : (orReg s pg o m).fabric = s.fabric := rfl
@[simp] theorem orReg_car (s : State) (pg o : Nat) (m : Word) : (orReg s pg o m).car = s.car := rfl
@[simp] theorem orReg_hop (s : State) (pg o : Nat) (m : Word) : (orReg s pg o m).hop = s.hop := rfl
@[simp] theorem orReg_ten (s : State) (pg o : Nat) (m : Word) : (orReg s pg o m).ten = s.ten := rfl
@[simp] theorem orReg_tim (s : State) (pg o : Nat) (m : Word) : (orReg s pg o m).tim = s.tim := rfl
@[simp] theorem orReg_dec (s : State) (pg o : Nat) (m : Word) : (orReg s pg o m).dec = s.dec := rfl
@[simp] theorem orReg_net (s : State) (pg o : Nat) (m : Word) : (orReg s pg o m).net = s.net := rfl
@[simp] theorem orReg_red (s : State) (pg o : Nat) (m : Word) : (orReg s pg o m).red = s.red := rfl
@[simp] theorem orReg_vlt (s : State) (pg o : Nat) (m : Word) : (orReg s pg o m).vlt = s.vlt := rfl
@[simp] theorem orReg_gse (s : State) (pg o : Nat) (m : Word) : (orReg s pg o m).gse = s.gse := rfl
@[simp] theorem orReg_met (s : State) (pg o : Nat) (m : Word) : (orReg s pg o m).met = s.met := rfl
@[simp] theorem orReg_cap (s : State) (pg o : Nat) (m : Word) : (orReg s pg o m).cap = s.cap := rfl
@[simp] theorem orReg_lgr (s : State) (pg o : Nat) (m : Word) : (orReg s pg o m).lgr = s.lgr := rfl
@[simp] theorem orReg_pair (s : State) (pg o : Nat) (m : Word) : (orReg s pg o m).pair = s.pair := rfl
@[simp] theorem orReg_str (s : State) (pg o : Nat) (m : Word) : (orReg s pg o m).str = s.str := rfl
@[simp] theorem orReg_mod (s : State) (pg o : Nat) (m : Word) : (orReg s pg o m).mod = s.mod := rfl
@[simp] theorem orReg_pma (s : State) (pg o : Nat) (m : Word) : (orReg s pg o m).pma = s.pma := rfl
@[simp] theorem orReg_hits (s : State) (pg o : Nat) (m : Word) : (orReg s pg o m).hits = (noteFlags pg o m s).hits := rfl

/-! `clearReg` -/

@[simp] theorem clearReg_variant (s : State) (pg o : Nat) (m : Word) : (clearReg s pg o m).variant = s.variant := rfl
@[simp] theorem clearReg_pending (s : State) (pg o : Nat) (m : Word) : (clearReg s pg o m).pending = s.pending := rfl
@[simp] theorem clearReg_now (s : State) (pg o : Nat) (m : Word) : (clearReg s pg o m).now = s.now := rfl
@[simp] theorem clearReg_free (s : State) (pg o : Nat) (m : Word) : (clearReg s pg o m).free = s.free := rfl
@[simp] theorem clearReg_resp (s : State) (pg o : Nat) (m : Word) : (clearReg s pg o m).resp = s.resp := rfl
@[simp] theorem clearReg_mem (s : State) (pg o : Nat) (m : Word) : (clearReg s pg o m).mem = s.mem := rfl
@[simp] theorem clearReg_epoch (s : State) (pg o : Nat) (m : Word) : (clearReg s pg o m).epoch = s.epoch := rfl
@[simp] theorem clearReg_eccUe (s : State) (pg o : Nat) (m : Word) : (clearReg s pg o m).eccUe = s.eccUe := rfl
@[simp] theorem clearReg_eccCe (s : State) (pg o : Nat) (m : Word) : (clearReg s pg o m).eccCe = s.eccCe := rfl
@[simp] theorem clearReg_mbx (s : State) (pg o : Nat) (m : Word) : (clearReg s pg o m).mbx = s.mbx := rfl
@[simp] theorem clearReg_held (s : State) (pg o : Nat) (m : Word) : (clearReg s pg o m).held = s.held := rfl
@[simp] theorem clearReg_ind (s : State) (pg o : Nat) (m : Word) : (clearReg s pg o m).ind = s.ind := rfl
@[simp] theorem clearReg_irq (s : State) (pg o : Nat) (m : Word) : (clearReg s pg o m).irq = s.irq := rfl
@[simp] theorem clearReg_handed (s : State) (pg o : Nat) (m : Word) : (clearReg s pg o m).handed = s.handed := rfl
@[simp] theorem clearReg_tick (s : State) (pg o : Nat) (m : Word) : (clearReg s pg o m).tick = s.tick := rfl
@[simp] theorem clearReg_eng (s : State) (pg o : Nat) (m : Word) : (clearReg s pg o m).eng = s.eng := rfl
@[simp] theorem clearReg_clu (s : State) (pg o : Nat) (m : Word) : (clearReg s pg o m).clu = s.clu := rfl
@[simp] theorem clearReg_xfers (s : State) (pg o : Nat) (m : Word) : (clearReg s pg o m).xfers = s.xfers := rfl
@[simp] theorem clearReg_fabric (s : State) (pg o : Nat) (m : Word) : (clearReg s pg o m).fabric = s.fabric := rfl
@[simp] theorem clearReg_car (s : State) (pg o : Nat) (m : Word) : (clearReg s pg o m).car = s.car := rfl
@[simp] theorem clearReg_hop (s : State) (pg o : Nat) (m : Word) : (clearReg s pg o m).hop = s.hop := rfl
@[simp] theorem clearReg_ten (s : State) (pg o : Nat) (m : Word) : (clearReg s pg o m).ten = s.ten := rfl
@[simp] theorem clearReg_tim (s : State) (pg o : Nat) (m : Word) : (clearReg s pg o m).tim = s.tim := rfl
@[simp] theorem clearReg_dec (s : State) (pg o : Nat) (m : Word) : (clearReg s pg o m).dec = s.dec := rfl
@[simp] theorem clearReg_net (s : State) (pg o : Nat) (m : Word) : (clearReg s pg o m).net = s.net := rfl
@[simp] theorem clearReg_red (s : State) (pg o : Nat) (m : Word) : (clearReg s pg o m).red = s.red := rfl
@[simp] theorem clearReg_vlt (s : State) (pg o : Nat) (m : Word) : (clearReg s pg o m).vlt = s.vlt := rfl
@[simp] theorem clearReg_gse (s : State) (pg o : Nat) (m : Word) : (clearReg s pg o m).gse = s.gse := rfl
@[simp] theorem clearReg_met (s : State) (pg o : Nat) (m : Word) : (clearReg s pg o m).met = s.met := rfl
@[simp] theorem clearReg_cap (s : State) (pg o : Nat) (m : Word) : (clearReg s pg o m).cap = s.cap := rfl
@[simp] theorem clearReg_lgr (s : State) (pg o : Nat) (m : Word) : (clearReg s pg o m).lgr = s.lgr := rfl
@[simp] theorem clearReg_pair (s : State) (pg o : Nat) (m : Word) : (clearReg s pg o m).pair = s.pair := rfl
@[simp] theorem clearReg_str (s : State) (pg o : Nat) (m : Word) : (clearReg s pg o m).str = s.str := rfl
@[simp] theorem clearReg_mod (s : State) (pg o : Nat) (m : Word) : (clearReg s pg o m).mod = s.mod := rfl
@[simp] theorem clearReg_pma (s : State) (pg o : Nat) (m : Word) : (clearReg s pg o m).pma = s.pma := rfl
@[simp] theorem clearReg_hits (s : State) (pg o : Nat) (m : Word) : (clearReg s pg o m).hits = s.hits := rfl

/-! `countReg` -/

@[simp] theorem countReg_variant (s : State) (pg o n : Nat) : (countReg s pg o n).variant = s.variant := rfl
@[simp] theorem countReg_pending (s : State) (pg o n : Nat) : (countReg s pg o n).pending = s.pending := rfl
@[simp] theorem countReg_now (s : State) (pg o n : Nat) : (countReg s pg o n).now = s.now := rfl
@[simp] theorem countReg_free (s : State) (pg o n : Nat) : (countReg s pg o n).free = s.free := rfl
@[simp] theorem countReg_resp (s : State) (pg o n : Nat) : (countReg s pg o n).resp = s.resp := rfl
@[simp] theorem countReg_mem (s : State) (pg o n : Nat) : (countReg s pg o n).mem = s.mem := rfl
@[simp] theorem countReg_epoch (s : State) (pg o n : Nat) : (countReg s pg o n).epoch = s.epoch := rfl
@[simp] theorem countReg_eccUe (s : State) (pg o n : Nat) : (countReg s pg o n).eccUe = s.eccUe := rfl
@[simp] theorem countReg_eccCe (s : State) (pg o n : Nat) : (countReg s pg o n).eccCe = s.eccCe := rfl
@[simp] theorem countReg_mbx (s : State) (pg o n : Nat) : (countReg s pg o n).mbx = s.mbx := rfl
@[simp] theorem countReg_held (s : State) (pg o n : Nat) : (countReg s pg o n).held = s.held := rfl
@[simp] theorem countReg_ind (s : State) (pg o n : Nat) : (countReg s pg o n).ind = s.ind := rfl
@[simp] theorem countReg_irq (s : State) (pg o n : Nat) : (countReg s pg o n).irq = s.irq := rfl
@[simp] theorem countReg_handed (s : State) (pg o n : Nat) : (countReg s pg o n).handed = s.handed := rfl
@[simp] theorem countReg_tick (s : State) (pg o n : Nat) : (countReg s pg o n).tick = s.tick := rfl
@[simp] theorem countReg_eng (s : State) (pg o n : Nat) : (countReg s pg o n).eng = s.eng := rfl
@[simp] theorem countReg_clu (s : State) (pg o n : Nat) : (countReg s pg o n).clu = s.clu := rfl
@[simp] theorem countReg_xfers (s : State) (pg o n : Nat) : (countReg s pg o n).xfers = s.xfers := rfl
@[simp] theorem countReg_fabric (s : State) (pg o n : Nat) : (countReg s pg o n).fabric = s.fabric := rfl
@[simp] theorem countReg_car (s : State) (pg o n : Nat) : (countReg s pg o n).car = s.car := rfl
@[simp] theorem countReg_hop (s : State) (pg o n : Nat) : (countReg s pg o n).hop = s.hop := rfl
@[simp] theorem countReg_ten (s : State) (pg o n : Nat) : (countReg s pg o n).ten = s.ten := rfl
@[simp] theorem countReg_tim (s : State) (pg o n : Nat) : (countReg s pg o n).tim = s.tim := rfl
@[simp] theorem countReg_dec (s : State) (pg o n : Nat) : (countReg s pg o n).dec = s.dec := rfl
@[simp] theorem countReg_net (s : State) (pg o n : Nat) : (countReg s pg o n).net = s.net := rfl
@[simp] theorem countReg_red (s : State) (pg o n : Nat) : (countReg s pg o n).red = s.red := rfl
@[simp] theorem countReg_vlt (s : State) (pg o n : Nat) : (countReg s pg o n).vlt = s.vlt := rfl
@[simp] theorem countReg_gse (s : State) (pg o n : Nat) : (countReg s pg o n).gse = s.gse := rfl
@[simp] theorem countReg_met (s : State) (pg o n : Nat) : (countReg s pg o n).met = s.met := rfl
@[simp] theorem countReg_cap (s : State) (pg o n : Nat) : (countReg s pg o n).cap = s.cap := rfl
@[simp] theorem countReg_lgr (s : State) (pg o n : Nat) : (countReg s pg o n).lgr = s.lgr := rfl
@[simp] theorem countReg_pair (s : State) (pg o n : Nat) : (countReg s pg o n).pair = s.pair := rfl
@[simp] theorem countReg_str (s : State) (pg o n : Nat) : (countReg s pg o n).str = s.str := rfl
@[simp] theorem countReg_mod (s : State) (pg o n : Nat) : (countReg s pg o n).mod = s.mod := rfl
@[simp] theorem countReg_pma (s : State) (pg o n : Nat) : (countReg s pg o n).pma = s.pma := rfl
@[simp] theorem countReg_hits (s : State) (pg o n : Nat) : (countReg s pg o n).hits = (noteCount pg o n s).hits := rfl

/-! `fresh` -/

@[simp] theorem fresh_variant (s : State) : (fresh s).2.variant = s.variant := rfl
@[simp] theorem fresh_pending (s : State) : (fresh s).2.pending = s.pending := rfl
@[simp] theorem fresh_now (s : State) : (fresh s).2.now = s.now := rfl
@[simp] theorem fresh_resp (s : State) : (fresh s).2.resp = s.resp := rfl
@[simp] theorem fresh_regs (s : State) : (fresh s).2.regs = s.regs := rfl
@[simp] theorem fresh_mem (s : State) : (fresh s).2.mem = s.mem := rfl
@[simp] theorem fresh_epoch (s : State) : (fresh s).2.epoch = s.epoch := rfl
@[simp] theorem fresh_eccUe (s : State) : (fresh s).2.eccUe = s.eccUe := rfl
@[simp] theorem fresh_eccCe (s : State) : (fresh s).2.eccCe = s.eccCe := rfl
@[simp] theorem fresh_mbx (s : State) : (fresh s).2.mbx = s.mbx := rfl
@[simp] theorem fresh_held (s : State) : (fresh s).2.held = s.held := rfl
@[simp] theorem fresh_ind (s : State) : (fresh s).2.ind = s.ind := rfl
@[simp] theorem fresh_irq (s : State) : (fresh s).2.irq = s.irq := rfl
@[simp] theorem fresh_handed (s : State) : (fresh s).2.handed = s.handed := rfl
@[simp] theorem fresh_tick (s : State) : (fresh s).2.tick = s.tick := rfl
@[simp] theorem fresh_eng (s : State) : (fresh s).2.eng = s.eng := rfl
@[simp] theorem fresh_clu (s : State) : (fresh s).2.clu = s.clu := rfl
@[simp] theorem fresh_xfers (s : State) : (fresh s).2.xfers = s.xfers := rfl
@[simp] theorem fresh_fabric (s : State) : (fresh s).2.fabric = s.fabric := rfl
@[simp] theorem fresh_car (s : State) : (fresh s).2.car = s.car := rfl
@[simp] theorem fresh_hop (s : State) : (fresh s).2.hop = s.hop := rfl
@[simp] theorem fresh_ten (s : State) : (fresh s).2.ten = s.ten := rfl
@[simp] theorem fresh_tim (s : State) : (fresh s).2.tim = s.tim := rfl
@[simp] theorem fresh_dec (s : State) : (fresh s).2.dec = s.dec := rfl
@[simp] theorem fresh_net (s : State) : (fresh s).2.net = s.net := rfl
@[simp] theorem fresh_red (s : State) : (fresh s).2.red = s.red := rfl
@[simp] theorem fresh_vlt (s : State) : (fresh s).2.vlt = s.vlt := rfl
@[simp] theorem fresh_gse (s : State) : (fresh s).2.gse = s.gse := rfl
@[simp] theorem fresh_met (s : State) : (fresh s).2.met = s.met := rfl
@[simp] theorem fresh_cap (s : State) : (fresh s).2.cap = s.cap := rfl
@[simp] theorem fresh_lgr (s : State) : (fresh s).2.lgr = s.lgr := rfl
@[simp] theorem fresh_pair (s : State) : (fresh s).2.pair = s.pair := rfl
@[simp] theorem fresh_str (s : State) : (fresh s).2.str = s.str := rfl
@[simp] theorem fresh_mod (s : State) : (fresh s).2.mod = s.mod := rfl
@[simp] theorem fresh_pma (s : State) : (fresh s).2.pma = s.pma := rfl
@[simp] theorem fresh_hits (s : State) : (fresh s).2.hits = s.hits := rfl

/-! `deny` -/

@[simp] theorem deny_variant (s : State) : (deny s).variant = s.variant := rfl
@[simp] theorem deny_pending (s : State) : (deny s).pending = s.pending := rfl
@[simp] theorem deny_now (s : State) : (deny s).now = s.now := rfl
@[simp] theorem deny_free (s : State) : (deny s).free = s.free := rfl
@[simp] theorem deny_regs (s : State) : (deny s).regs = s.regs := rfl
@[simp] theorem deny_mem (s : State) : (deny s).mem = s.mem := rfl
@[simp] theorem deny_epoch (s : State) : (deny s).epoch = s.epoch := rfl
@[simp] theorem deny_eccUe (s : State) : (deny s).eccUe = s.eccUe := rfl
@[simp] theorem deny_eccCe (s : State) : (deny s).eccCe = s.eccCe := rfl
@[simp] theorem deny_mbx (s : State) : (deny s).mbx = s.mbx := rfl
@[simp] theorem deny_held (s : State) : (deny s).held = s.held := rfl
@[simp] theorem deny_ind (s : State) : (deny s).ind = s.ind := rfl
@[simp] theorem deny_irq (s : State) : (deny s).irq = s.irq := rfl
@[simp] theorem deny_handed (s : State) : (deny s).handed = s.handed := rfl
@[simp] theorem deny_tick (s : State) : (deny s).tick = s.tick := rfl
@[simp] theorem deny_eng (s : State) : (deny s).eng = s.eng := rfl
@[simp] theorem deny_clu (s : State) : (deny s).clu = s.clu := rfl
@[simp] theorem deny_xfers (s : State) : (deny s).xfers = s.xfers := rfl
@[simp] theorem deny_fabric (s : State) : (deny s).fabric = s.fabric := rfl
@[simp] theorem deny_car (s : State) : (deny s).car = s.car := rfl
@[simp] theorem deny_hop (s : State) : (deny s).hop = s.hop := rfl
@[simp] theorem deny_ten (s : State) : (deny s).ten = s.ten := rfl
@[simp] theorem deny_tim (s : State) : (deny s).tim = s.tim := rfl
@[simp] theorem deny_dec (s : State) : (deny s).dec = s.dec := rfl
@[simp] theorem deny_net (s : State) : (deny s).net = s.net := rfl
@[simp] theorem deny_red (s : State) : (deny s).red = s.red := rfl
@[simp] theorem deny_vlt (s : State) : (deny s).vlt = s.vlt := rfl
@[simp] theorem deny_gse (s : State) : (deny s).gse = s.gse := rfl
@[simp] theorem deny_met (s : State) : (deny s).met = s.met := rfl
@[simp] theorem deny_cap (s : State) : (deny s).cap = s.cap := rfl
@[simp] theorem deny_lgr (s : State) : (deny s).lgr = s.lgr := rfl
@[simp] theorem deny_pair (s : State) : (deny s).pair = s.pair := rfl
@[simp] theorem deny_str (s : State) : (deny s).str = s.str := rfl
@[simp] theorem deny_mod (s : State) : (deny s).mod = s.mod := rfl
@[simp] theorem deny_pma (s : State) : (deny s).pma = s.pma := rfl
@[simp] theorem deny_hits (s : State) : (deny s).hits = s.hits := rfl

/-! `setMailbox` -/

@[simp] theorem setMailbox_variant (s : State) (pg : Nat) (m : Mailbox) : (setMailbox s pg m).variant = s.variant := rfl
@[simp] theorem setMailbox_pending (s : State) (pg : Nat) (m : Mailbox) : (setMailbox s pg m).pending = s.pending := rfl
@[simp] theorem setMailbox_now (s : State) (pg : Nat) (m : Mailbox) : (setMailbox s pg m).now = s.now := rfl
@[simp] theorem setMailbox_free (s : State) (pg : Nat) (m : Mailbox) : (setMailbox s pg m).free = s.free := rfl
@[simp] theorem setMailbox_resp (s : State) (pg : Nat) (m : Mailbox) : (setMailbox s pg m).resp = s.resp := rfl
@[simp] theorem setMailbox_regs (s : State) (pg : Nat) (m : Mailbox) : (setMailbox s pg m).regs = s.regs := rfl
@[simp] theorem setMailbox_mem (s : State) (pg : Nat) (m : Mailbox) : (setMailbox s pg m).mem = s.mem := rfl
@[simp] theorem setMailbox_epoch (s : State) (pg : Nat) (m : Mailbox) : (setMailbox s pg m).epoch = s.epoch := rfl
@[simp] theorem setMailbox_eccUe (s : State) (pg : Nat) (m : Mailbox) : (setMailbox s pg m).eccUe = s.eccUe := rfl
@[simp] theorem setMailbox_eccCe (s : State) (pg : Nat) (m : Mailbox) : (setMailbox s pg m).eccCe = s.eccCe := rfl
@[simp] theorem setMailbox_held (s : State) (pg : Nat) (m : Mailbox) : (setMailbox s pg m).held = s.held := rfl
@[simp] theorem setMailbox_ind (s : State) (pg : Nat) (m : Mailbox) : (setMailbox s pg m).ind = s.ind := rfl
@[simp] theorem setMailbox_irq (s : State) (pg : Nat) (m : Mailbox) : (setMailbox s pg m).irq = s.irq := rfl
@[simp] theorem setMailbox_handed (s : State) (pg : Nat) (m : Mailbox) : (setMailbox s pg m).handed = s.handed := rfl
@[simp] theorem setMailbox_tick (s : State) (pg : Nat) (m : Mailbox) : (setMailbox s pg m).tick = s.tick := rfl
@[simp] theorem setMailbox_eng (s : State) (pg : Nat) (m : Mailbox) : (setMailbox s pg m).eng = s.eng := rfl
@[simp] theorem setMailbox_clu (s : State) (pg : Nat) (m : Mailbox) : (setMailbox s pg m).clu = s.clu := rfl
@[simp] theorem setMailbox_xfers (s : State) (pg : Nat) (m : Mailbox) : (setMailbox s pg m).xfers = s.xfers := rfl
@[simp] theorem setMailbox_fabric (s : State) (pg : Nat) (m : Mailbox) : (setMailbox s pg m).fabric = s.fabric := rfl
@[simp] theorem setMailbox_car (s : State) (pg : Nat) (m : Mailbox) : (setMailbox s pg m).car = s.car := rfl
@[simp] theorem setMailbox_hop (s : State) (pg : Nat) (m : Mailbox) : (setMailbox s pg m).hop = s.hop := rfl
@[simp] theorem setMailbox_ten (s : State) (pg : Nat) (m : Mailbox) : (setMailbox s pg m).ten = s.ten := rfl
@[simp] theorem setMailbox_tim (s : State) (pg : Nat) (m : Mailbox) : (setMailbox s pg m).tim = s.tim := rfl
@[simp] theorem setMailbox_dec (s : State) (pg : Nat) (m : Mailbox) : (setMailbox s pg m).dec = s.dec := rfl
@[simp] theorem setMailbox_net (s : State) (pg : Nat) (m : Mailbox) : (setMailbox s pg m).net = s.net := rfl
@[simp] theorem setMailbox_red (s : State) (pg : Nat) (m : Mailbox) : (setMailbox s pg m).red = s.red := rfl
@[simp] theorem setMailbox_vlt (s : State) (pg : Nat) (m : Mailbox) : (setMailbox s pg m).vlt = s.vlt := rfl
@[simp] theorem setMailbox_gse (s : State) (pg : Nat) (m : Mailbox) : (setMailbox s pg m).gse = s.gse := rfl
@[simp] theorem setMailbox_met (s : State) (pg : Nat) (m : Mailbox) : (setMailbox s pg m).met = s.met := rfl
@[simp] theorem setMailbox_cap (s : State) (pg : Nat) (m : Mailbox) : (setMailbox s pg m).cap = s.cap := rfl
@[simp] theorem setMailbox_lgr (s : State) (pg : Nat) (m : Mailbox) : (setMailbox s pg m).lgr = s.lgr := rfl
@[simp] theorem setMailbox_pair (s : State) (pg : Nat) (m : Mailbox) : (setMailbox s pg m).pair = s.pair := rfl
@[simp] theorem setMailbox_str (s : State) (pg : Nat) (m : Mailbox) : (setMailbox s pg m).str = s.str := rfl
@[simp] theorem setMailbox_mod (s : State) (pg : Nat) (m : Mailbox) : (setMailbox s pg m).mod = s.mod := rfl
@[simp] theorem setMailbox_pma (s : State) (pg : Nat) (m : Mailbox) : (setMailbox s pg m).pma = s.pma := rfl
@[simp] theorem setMailbox_hits (s : State) (pg : Nat) (m : Mailbox) : (setMailbox s pg m).hits = s.hits := rfl

/-! `writeMem` -/

@[simp] theorem writeMem_variant (s : State) (a : Nat) (bs : List Byte) : (writeMem s a bs).variant = s.variant := rfl
@[simp] theorem writeMem_pending (s : State) (a : Nat) (bs : List Byte) : (writeMem s a bs).pending = s.pending := rfl
@[simp] theorem writeMem_now (s : State) (a : Nat) (bs : List Byte) : (writeMem s a bs).now = s.now := rfl
@[simp] theorem writeMem_free (s : State) (a : Nat) (bs : List Byte) : (writeMem s a bs).free = s.free := rfl
@[simp] theorem writeMem_resp (s : State) (a : Nat) (bs : List Byte) : (writeMem s a bs).resp = s.resp := rfl
@[simp] theorem writeMem_regs (s : State) (a : Nat) (bs : List Byte) : (writeMem s a bs).regs = s.regs := rfl
@[simp] theorem writeMem_epoch (s : State) (a : Nat) (bs : List Byte) : (writeMem s a bs).epoch = s.epoch := rfl
@[simp] theorem writeMem_eccUe (s : State) (a : Nat) (bs : List Byte) : (writeMem s a bs).eccUe = s.eccUe := rfl
@[simp] theorem writeMem_eccCe (s : State) (a : Nat) (bs : List Byte) : (writeMem s a bs).eccCe = s.eccCe := rfl
@[simp] theorem writeMem_mbx (s : State) (a : Nat) (bs : List Byte) : (writeMem s a bs).mbx = s.mbx := rfl
@[simp] theorem writeMem_held (s : State) (a : Nat) (bs : List Byte) : (writeMem s a bs).held = s.held := rfl
@[simp] theorem writeMem_ind (s : State) (a : Nat) (bs : List Byte) : (writeMem s a bs).ind = s.ind := rfl
@[simp] theorem writeMem_irq (s : State) (a : Nat) (bs : List Byte) : (writeMem s a bs).irq = s.irq := rfl
@[simp] theorem writeMem_handed (s : State) (a : Nat) (bs : List Byte) : (writeMem s a bs).handed = s.handed := rfl
@[simp] theorem writeMem_tick (s : State) (a : Nat) (bs : List Byte) : (writeMem s a bs).tick = s.tick := rfl
@[simp] theorem writeMem_eng (s : State) (a : Nat) (bs : List Byte) : (writeMem s a bs).eng = s.eng := rfl
@[simp] theorem writeMem_clu (s : State) (a : Nat) (bs : List Byte) : (writeMem s a bs).clu = s.clu := rfl
@[simp] theorem writeMem_xfers (s : State) (a : Nat) (bs : List Byte) : (writeMem s a bs).xfers = s.xfers := rfl
@[simp] theorem writeMem_fabric (s : State) (a : Nat) (bs : List Byte) : (writeMem s a bs).fabric = s.fabric := rfl
@[simp] theorem writeMem_car (s : State) (a : Nat) (bs : List Byte) : (writeMem s a bs).car = s.car := rfl
@[simp] theorem writeMem_hop (s : State) (a : Nat) (bs : List Byte) : (writeMem s a bs).hop = s.hop := rfl
@[simp] theorem writeMem_ten (s : State) (a : Nat) (bs : List Byte) : (writeMem s a bs).ten = s.ten := rfl
@[simp] theorem writeMem_tim (s : State) (a : Nat) (bs : List Byte) : (writeMem s a bs).tim = s.tim := rfl
@[simp] theorem writeMem_dec (s : State) (a : Nat) (bs : List Byte) : (writeMem s a bs).dec = s.dec := rfl
@[simp] theorem writeMem_net (s : State) (a : Nat) (bs : List Byte) : (writeMem s a bs).net = s.net := rfl
@[simp] theorem writeMem_red (s : State) (a : Nat) (bs : List Byte) : (writeMem s a bs).red = s.red := rfl
@[simp] theorem writeMem_vlt (s : State) (a : Nat) (bs : List Byte) : (writeMem s a bs).vlt = s.vlt := rfl
@[simp] theorem writeMem_gse (s : State) (a : Nat) (bs : List Byte) : (writeMem s a bs).gse = s.gse := rfl
@[simp] theorem writeMem_met (s : State) (a : Nat) (bs : List Byte) : (writeMem s a bs).met = s.met := rfl
@[simp] theorem writeMem_cap (s : State) (a : Nat) (bs : List Byte) : (writeMem s a bs).cap = s.cap := rfl
@[simp] theorem writeMem_lgr (s : State) (a : Nat) (bs : List Byte) : (writeMem s a bs).lgr = s.lgr := rfl
@[simp] theorem writeMem_pair (s : State) (a : Nat) (bs : List Byte) : (writeMem s a bs).pair = s.pair := rfl
@[simp] theorem writeMem_str (s : State) (a : Nat) (bs : List Byte) : (writeMem s a bs).str = s.str := rfl
@[simp] theorem writeMem_mod (s : State) (a : Nat) (bs : List Byte) : (writeMem s a bs).mod = s.mod := rfl
@[simp] theorem writeMem_pma (s : State) (a : Nat) (bs : List Byte) : (writeMem s a bs).pma = s.pma := rfl
@[simp] theorem writeMem_hits (s : State) (a : Nat) (bs : List Byte) : (writeMem s a bs).hits = s.hits := rfl

/-! `updTen` -/

@[simp] theorem updTen_variant (s : State) (t : Nat) (f : Tenant → Tenant) : (updTen t f s).variant = s.variant := rfl
@[simp] theorem updTen_pending (s : State) (t : Nat) (f : Tenant → Tenant) : (updTen t f s).pending = s.pending := rfl
@[simp] theorem updTen_now (s : State) (t : Nat) (f : Tenant → Tenant) : (updTen t f s).now = s.now := rfl
@[simp] theorem updTen_free (s : State) (t : Nat) (f : Tenant → Tenant) : (updTen t f s).free = s.free := rfl
@[simp] theorem updTen_resp (s : State) (t : Nat) (f : Tenant → Tenant) : (updTen t f s).resp = s.resp := rfl
@[simp] theorem updTen_regs (s : State) (t : Nat) (f : Tenant → Tenant) : (updTen t f s).regs = s.regs := rfl
@[simp] theorem updTen_mem (s : State) (t : Nat) (f : Tenant → Tenant) : (updTen t f s).mem = s.mem := rfl
@[simp] theorem updTen_epoch (s : State) (t : Nat) (f : Tenant → Tenant) : (updTen t f s).epoch = s.epoch := rfl
@[simp] theorem updTen_eccUe (s : State) (t : Nat) (f : Tenant → Tenant) : (updTen t f s).eccUe = s.eccUe := rfl
@[simp] theorem updTen_eccCe (s : State) (t : Nat) (f : Tenant → Tenant) : (updTen t f s).eccCe = s.eccCe := rfl
@[simp] theorem updTen_mbx (s : State) (t : Nat) (f : Tenant → Tenant) : (updTen t f s).mbx = s.mbx := rfl
@[simp] theorem updTen_held (s : State) (t : Nat) (f : Tenant → Tenant) : (updTen t f s).held = s.held := rfl
@[simp] theorem updTen_ind (s : State) (t : Nat) (f : Tenant → Tenant) : (updTen t f s).ind = s.ind := rfl
@[simp] theorem updTen_irq (s : State) (t : Nat) (f : Tenant → Tenant) : (updTen t f s).irq = s.irq := rfl
@[simp] theorem updTen_handed (s : State) (t : Nat) (f : Tenant → Tenant) : (updTen t f s).handed = s.handed := rfl
@[simp] theorem updTen_tick (s : State) (t : Nat) (f : Tenant → Tenant) : (updTen t f s).tick = s.tick := rfl
@[simp] theorem updTen_eng (s : State) (t : Nat) (f : Tenant → Tenant) : (updTen t f s).eng = s.eng := rfl
@[simp] theorem updTen_clu (s : State) (t : Nat) (f : Tenant → Tenant) : (updTen t f s).clu = s.clu := rfl
@[simp] theorem updTen_xfers (s : State) (t : Nat) (f : Tenant → Tenant) : (updTen t f s).xfers = s.xfers := rfl
@[simp] theorem updTen_fabric (s : State) (t : Nat) (f : Tenant → Tenant) : (updTen t f s).fabric = s.fabric := rfl
@[simp] theorem updTen_car (s : State) (t : Nat) (f : Tenant → Tenant) : (updTen t f s).car = s.car := rfl
@[simp] theorem updTen_hop (s : State) (t : Nat) (f : Tenant → Tenant) : (updTen t f s).hop = s.hop := rfl
@[simp] theorem updTen_tim (s : State) (t : Nat) (f : Tenant → Tenant) : (updTen t f s).tim = s.tim := rfl
@[simp] theorem updTen_dec (s : State) (t : Nat) (f : Tenant → Tenant) : (updTen t f s).dec = s.dec := rfl
@[simp] theorem updTen_net (s : State) (t : Nat) (f : Tenant → Tenant) : (updTen t f s).net = s.net := rfl
@[simp] theorem updTen_red (s : State) (t : Nat) (f : Tenant → Tenant) : (updTen t f s).red = s.red := rfl
@[simp] theorem updTen_vlt (s : State) (t : Nat) (f : Tenant → Tenant) : (updTen t f s).vlt = s.vlt := rfl
@[simp] theorem updTen_gse (s : State) (t : Nat) (f : Tenant → Tenant) : (updTen t f s).gse = s.gse := rfl
@[simp] theorem updTen_met (s : State) (t : Nat) (f : Tenant → Tenant) : (updTen t f s).met = s.met := rfl
@[simp] theorem updTen_cap (s : State) (t : Nat) (f : Tenant → Tenant) : (updTen t f s).cap = s.cap := rfl
@[simp] theorem updTen_lgr (s : State) (t : Nat) (f : Tenant → Tenant) : (updTen t f s).lgr = s.lgr := rfl
@[simp] theorem updTen_pair (s : State) (t : Nat) (f : Tenant → Tenant) : (updTen t f s).pair = s.pair := rfl
@[simp] theorem updTen_str (s : State) (t : Nat) (f : Tenant → Tenant) : (updTen t f s).str = s.str := rfl
@[simp] theorem updTen_mod (s : State) (t : Nat) (f : Tenant → Tenant) : (updTen t f s).mod = s.mod := rfl
@[simp] theorem updTen_pma (s : State) (t : Nat) (f : Tenant → Tenant) : (updTen t f s).pma = s.pma := rfl
@[simp] theorem updTen_hits (s : State) (t : Nat) (f : Tenant → Tenant) : (updTen t f s).hits = s.hits := rfl

/-! `noteSource` -/

@[simp] theorem noteSource_variant (s : State) (n : Nat) : (noteSource n s).variant = s.variant := by unfold noteSource; repeat (first | rfl | split)
@[simp] theorem noteSource_pending (s : State) (n : Nat) : (noteSource n s).pending = s.pending := by unfold noteSource; repeat (first | rfl | split)
@[simp] theorem noteSource_now (s : State) (n : Nat) : (noteSource n s).now = s.now := by unfold noteSource; repeat (first | rfl | split)
@[simp] theorem noteSource_free (s : State) (n : Nat) : (noteSource n s).free = s.free := by unfold noteSource; repeat (first | rfl | split)
@[simp] theorem noteSource_resp (s : State) (n : Nat) : (noteSource n s).resp = s.resp := by unfold noteSource; repeat (first | rfl | split)
@[simp] theorem noteSource_regs (s : State) (n : Nat) : (noteSource n s).regs = s.regs := by unfold noteSource; repeat (first | rfl | split)
@[simp] theorem noteSource_mem (s : State) (n : Nat) : (noteSource n s).mem = s.mem := by unfold noteSource; repeat (first | rfl | split)
@[simp] theorem noteSource_epoch (s : State) (n : Nat) : (noteSource n s).epoch = s.epoch := by unfold noteSource; repeat (first | rfl | split)
@[simp] theorem noteSource_eccUe (s : State) (n : Nat) : (noteSource n s).eccUe = s.eccUe := by unfold noteSource; repeat (first | rfl | split)
@[simp] theorem noteSource_eccCe (s : State) (n : Nat) : (noteSource n s).eccCe = s.eccCe := by unfold noteSource; repeat (first | rfl | split)
@[simp] theorem noteSource_mbx (s : State) (n : Nat) : (noteSource n s).mbx = s.mbx := by unfold noteSource; repeat (first | rfl | split)
@[simp] theorem noteSource_held (s : State) (n : Nat) : (noteSource n s).held = s.held := by unfold noteSource; repeat (first | rfl | split)
@[simp] theorem noteSource_ind (s : State) (n : Nat) : (noteSource n s).ind = s.ind := by unfold noteSource; repeat (first | rfl | split)
@[simp] theorem noteSource_handed (s : State) (n : Nat) : (noteSource n s).handed = s.handed := by unfold noteSource; repeat (first | rfl | split)
@[simp] theorem noteSource_tick (s : State) (n : Nat) : (noteSource n s).tick = s.tick := by unfold noteSource; repeat (first | rfl | split)
@[simp] theorem noteSource_eng (s : State) (n : Nat) : (noteSource n s).eng = s.eng := by unfold noteSource; repeat (first | rfl | split)
@[simp] theorem noteSource_clu (s : State) (n : Nat) : (noteSource n s).clu = s.clu := by unfold noteSource; repeat (first | rfl | split)
@[simp] theorem noteSource_xfers (s : State) (n : Nat) : (noteSource n s).xfers = s.xfers := by unfold noteSource; repeat (first | rfl | split)
@[simp] theorem noteSource_fabric (s : State) (n : Nat) : (noteSource n s).fabric = s.fabric := by unfold noteSource; repeat (first | rfl | split)
@[simp] theorem noteSource_car (s : State) (n : Nat) : (noteSource n s).car = s.car := by unfold noteSource; repeat (first | rfl | split)
@[simp] theorem noteSource_hop (s : State) (n : Nat) : (noteSource n s).hop = s.hop := by unfold noteSource; repeat (first | rfl | split)
@[simp] theorem noteSource_ten (s : State) (n : Nat) : (noteSource n s).ten = s.ten := by unfold noteSource; repeat (first | rfl | split)
@[simp] theorem noteSource_tim (s : State) (n : Nat) : (noteSource n s).tim = s.tim := by unfold noteSource; repeat (first | rfl | split)
@[simp] theorem noteSource_dec (s : State) (n : Nat) : (noteSource n s).dec = s.dec := by unfold noteSource; repeat (first | rfl | split)
@[simp] theorem noteSource_net (s : State) (n : Nat) : (noteSource n s).net = s.net := by unfold noteSource; repeat (first | rfl | split)
@[simp] theorem noteSource_red (s : State) (n : Nat) : (noteSource n s).red = s.red := by unfold noteSource; repeat (first | rfl | split)
@[simp] theorem noteSource_vlt (s : State) (n : Nat) : (noteSource n s).vlt = s.vlt := by unfold noteSource; repeat (first | rfl | split)
@[simp] theorem noteSource_gse (s : State) (n : Nat) : (noteSource n s).gse = s.gse := by unfold noteSource; repeat (first | rfl | split)
@[simp] theorem noteSource_met (s : State) (n : Nat) : (noteSource n s).met = s.met := by unfold noteSource; repeat (first | rfl | split)
@[simp] theorem noteSource_cap (s : State) (n : Nat) : (noteSource n s).cap = s.cap := by unfold noteSource; repeat (first | rfl | split)
@[simp] theorem noteSource_lgr (s : State) (n : Nat) : (noteSource n s).lgr = s.lgr := by unfold noteSource; repeat (first | rfl | split)
@[simp] theorem noteSource_pair (s : State) (n : Nat) : (noteSource n s).pair = s.pair := by unfold noteSource; repeat (first | rfl | split)
@[simp] theorem noteSource_str (s : State) (n : Nat) : (noteSource n s).str = s.str := by unfold noteSource; repeat (first | rfl | split)
@[simp] theorem noteSource_mod (s : State) (n : Nat) : (noteSource n s).mod = s.mod := by unfold noteSource; repeat (first | rfl | split)
@[simp] theorem noteSource_pma (s : State) (n : Nat) : (noteSource n s).pma = s.pma := by unfold noteSource; repeat (first | rfl | split)
@[simp] theorem noteSource_hits (s : State) (n : Nat) : (noteSource n s).hits = s.hits := by unfold noteSource; repeat (first | rfl | split)

/-! `setIrq` -/

@[simp] theorem setIrq_variant (s : State) (pg : Nat) (m : Word) : (setIrq pg m s).variant = s.variant := by simp [setIrq]
@[simp] theorem setIrq_pending (s : State) (pg : Nat) (m : Word) : (setIrq pg m s).pending = s.pending := by simp [setIrq]
@[simp] theorem setIrq_now (s : State) (pg : Nat) (m : Word) : (setIrq pg m s).now = s.now := by simp [setIrq]
@[simp] theorem setIrq_free (s : State) (pg : Nat) (m : Word) : (setIrq pg m s).free = s.free := by simp [setIrq]
@[simp] theorem setIrq_resp (s : State) (pg : Nat) (m : Word) : (setIrq pg m s).resp = s.resp := by simp [setIrq]
@[simp] theorem setIrq_mem (s : State) (pg : Nat) (m : Word) : (setIrq pg m s).mem = s.mem := by simp [setIrq]
@[simp] theorem setIrq_epoch (s : State) (pg : Nat) (m : Word) : (setIrq pg m s).epoch = s.epoch := by simp [setIrq]
@[simp] theorem setIrq_eccUe (s : State) (pg : Nat) (m : Word) : (setIrq pg m s).eccUe = s.eccUe := by simp [setIrq]
@[simp] theorem setIrq_eccCe (s : State) (pg : Nat) (m : Word) : (setIrq pg m s).eccCe = s.eccCe := by simp [setIrq]
@[simp] theorem setIrq_mbx (s : State) (pg : Nat) (m : Word) : (setIrq pg m s).mbx = s.mbx := by simp [setIrq]
@[simp] theorem setIrq_held (s : State) (pg : Nat) (m : Word) : (setIrq pg m s).held = s.held := by simp [setIrq]
@[simp] theorem setIrq_ind (s : State) (pg : Nat) (m : Word) : (setIrq pg m s).ind = s.ind := by simp [setIrq]
@[simp] theorem setIrq_handed (s : State) (pg : Nat) (m : Word) : (setIrq pg m s).handed = s.handed := by simp [setIrq]
@[simp] theorem setIrq_tick (s : State) (pg : Nat) (m : Word) : (setIrq pg m s).tick = s.tick := by simp [setIrq]
@[simp] theorem setIrq_eng (s : State) (pg : Nat) (m : Word) : (setIrq pg m s).eng = s.eng := by simp [setIrq]
@[simp] theorem setIrq_clu (s : State) (pg : Nat) (m : Word) : (setIrq pg m s).clu = s.clu := by simp [setIrq]
@[simp] theorem setIrq_xfers (s : State) (pg : Nat) (m : Word) : (setIrq pg m s).xfers = s.xfers := by simp [setIrq]
@[simp] theorem setIrq_fabric (s : State) (pg : Nat) (m : Word) : (setIrq pg m s).fabric = s.fabric := by simp [setIrq]
@[simp] theorem setIrq_car (s : State) (pg : Nat) (m : Word) : (setIrq pg m s).car = s.car := by simp [setIrq]
@[simp] theorem setIrq_hop (s : State) (pg : Nat) (m : Word) : (setIrq pg m s).hop = s.hop := by simp [setIrq]
@[simp] theorem setIrq_ten (s : State) (pg : Nat) (m : Word) : (setIrq pg m s).ten = s.ten := by simp [setIrq]
@[simp] theorem setIrq_tim (s : State) (pg : Nat) (m : Word) : (setIrq pg m s).tim = s.tim := by simp [setIrq]
@[simp] theorem setIrq_dec (s : State) (pg : Nat) (m : Word) : (setIrq pg m s).dec = s.dec := by simp [setIrq]
@[simp] theorem setIrq_net (s : State) (pg : Nat) (m : Word) : (setIrq pg m s).net = s.net := by simp [setIrq]
@[simp] theorem setIrq_red (s : State) (pg : Nat) (m : Word) : (setIrq pg m s).red = s.red := by simp [setIrq]
@[simp] theorem setIrq_vlt (s : State) (pg : Nat) (m : Word) : (setIrq pg m s).vlt = s.vlt := by simp [setIrq]
@[simp] theorem setIrq_gse (s : State) (pg : Nat) (m : Word) : (setIrq pg m s).gse = s.gse := by simp [setIrq]
@[simp] theorem setIrq_met (s : State) (pg : Nat) (m : Word) : (setIrq pg m s).met = s.met := by simp [setIrq]
@[simp] theorem setIrq_cap (s : State) (pg : Nat) (m : Word) : (setIrq pg m s).cap = s.cap := by simp [setIrq]
@[simp] theorem setIrq_lgr (s : State) (pg : Nat) (m : Word) : (setIrq pg m s).lgr = s.lgr := by simp [setIrq]
@[simp] theorem setIrq_pair (s : State) (pg : Nat) (m : Word) : (setIrq pg m s).pair = s.pair := by simp [setIrq]
@[simp] theorem setIrq_str (s : State) (pg : Nat) (m : Word) : (setIrq pg m s).str = s.str := by simp [setIrq]
@[simp] theorem setIrq_mod (s : State) (pg : Nat) (m : Word) : (setIrq pg m s).mod = s.mod := by simp [setIrq]
@[simp] theorem setIrq_pma (s : State) (pg : Nat) (m : Word) : (setIrq pg m s).pma = s.pma := by simp [setIrq]

/-! `setTenEvt` -/

@[simp] theorem setTenEvt_variant (s : State) (pg o t cls : Nat) (m : Word) : (setTenEvt pg o t cls m s).variant = s.variant := by simp [setTenEvt]
@[simp] theorem setTenEvt_pending (s : State) (pg o t cls : Nat) (m : Word) : (setTenEvt pg o t cls m s).pending = s.pending := by simp [setTenEvt]
@[simp] theorem setTenEvt_now (s : State) (pg o t cls : Nat) (m : Word) : (setTenEvt pg o t cls m s).now = s.now := by simp [setTenEvt]
@[simp] theorem setTenEvt_free (s : State) (pg o t cls : Nat) (m : Word) : (setTenEvt pg o t cls m s).free = s.free := by simp [setTenEvt]
@[simp] theorem setTenEvt_resp (s : State) (pg o t cls : Nat) (m : Word) : (setTenEvt pg o t cls m s).resp = s.resp := by simp [setTenEvt]
@[simp] theorem setTenEvt_mem (s : State) (pg o t cls : Nat) (m : Word) : (setTenEvt pg o t cls m s).mem = s.mem := by simp [setTenEvt]
@[simp] theorem setTenEvt_epoch (s : State) (pg o t cls : Nat) (m : Word) : (setTenEvt pg o t cls m s).epoch = s.epoch := by simp [setTenEvt]
@[simp] theorem setTenEvt_eccUe (s : State) (pg o t cls : Nat) (m : Word) : (setTenEvt pg o t cls m s).eccUe = s.eccUe := by simp [setTenEvt]
@[simp] theorem setTenEvt_eccCe (s : State) (pg o t cls : Nat) (m : Word) : (setTenEvt pg o t cls m s).eccCe = s.eccCe := by simp [setTenEvt]
@[simp] theorem setTenEvt_mbx (s : State) (pg o t cls : Nat) (m : Word) : (setTenEvt pg o t cls m s).mbx = s.mbx := by simp [setTenEvt]
@[simp] theorem setTenEvt_held (s : State) (pg o t cls : Nat) (m : Word) : (setTenEvt pg o t cls m s).held = s.held := by simp [setTenEvt]
@[simp] theorem setTenEvt_ind (s : State) (pg o t cls : Nat) (m : Word) : (setTenEvt pg o t cls m s).ind = s.ind := by simp [setTenEvt]
@[simp] theorem setTenEvt_handed (s : State) (pg o t cls : Nat) (m : Word) : (setTenEvt pg o t cls m s).handed = s.handed := by simp [setTenEvt]
@[simp] theorem setTenEvt_tick (s : State) (pg o t cls : Nat) (m : Word) : (setTenEvt pg o t cls m s).tick = s.tick := by simp [setTenEvt]
@[simp] theorem setTenEvt_eng (s : State) (pg o t cls : Nat) (m : Word) : (setTenEvt pg o t cls m s).eng = s.eng := by simp [setTenEvt]
@[simp] theorem setTenEvt_clu (s : State) (pg o t cls : Nat) (m : Word) : (setTenEvt pg o t cls m s).clu = s.clu := by simp [setTenEvt]
@[simp] theorem setTenEvt_xfers (s : State) (pg o t cls : Nat) (m : Word) : (setTenEvt pg o t cls m s).xfers = s.xfers := by simp [setTenEvt]
@[simp] theorem setTenEvt_fabric (s : State) (pg o t cls : Nat) (m : Word) : (setTenEvt pg o t cls m s).fabric = s.fabric := by simp [setTenEvt]
@[simp] theorem setTenEvt_car (s : State) (pg o t cls : Nat) (m : Word) : (setTenEvt pg o t cls m s).car = s.car := by simp [setTenEvt]
@[simp] theorem setTenEvt_hop (s : State) (pg o t cls : Nat) (m : Word) : (setTenEvt pg o t cls m s).hop = s.hop := by simp [setTenEvt]
@[simp] theorem setTenEvt_ten (s : State) (pg o t cls : Nat) (m : Word) : (setTenEvt pg o t cls m s).ten = s.ten := by simp [setTenEvt]
@[simp] theorem setTenEvt_tim (s : State) (pg o t cls : Nat) (m : Word) : (setTenEvt pg o t cls m s).tim = s.tim := by simp [setTenEvt]
@[simp] theorem setTenEvt_dec (s : State) (pg o t cls : Nat) (m : Word) : (setTenEvt pg o t cls m s).dec = s.dec := by simp [setTenEvt]
@[simp] theorem setTenEvt_net (s : State) (pg o t cls : Nat) (m : Word) : (setTenEvt pg o t cls m s).net = s.net := by simp [setTenEvt]
@[simp] theorem setTenEvt_red (s : State) (pg o t cls : Nat) (m : Word) : (setTenEvt pg o t cls m s).red = s.red := by simp [setTenEvt]
@[simp] theorem setTenEvt_vlt (s : State) (pg o t cls : Nat) (m : Word) : (setTenEvt pg o t cls m s).vlt = s.vlt := by simp [setTenEvt]
@[simp] theorem setTenEvt_gse (s : State) (pg o t cls : Nat) (m : Word) : (setTenEvt pg o t cls m s).gse = s.gse := by simp [setTenEvt]
@[simp] theorem setTenEvt_met (s : State) (pg o t cls : Nat) (m : Word) : (setTenEvt pg o t cls m s).met = s.met := by simp [setTenEvt]
@[simp] theorem setTenEvt_cap (s : State) (pg o t cls : Nat) (m : Word) : (setTenEvt pg o t cls m s).cap = s.cap := by simp [setTenEvt]
@[simp] theorem setTenEvt_lgr (s : State) (pg o t cls : Nat) (m : Word) : (setTenEvt pg o t cls m s).lgr = s.lgr := by simp [setTenEvt]
@[simp] theorem setTenEvt_pair (s : State) (pg o t cls : Nat) (m : Word) : (setTenEvt pg o t cls m s).pair = s.pair := by simp [setTenEvt]
@[simp] theorem setTenEvt_str (s : State) (pg o t cls : Nat) (m : Word) : (setTenEvt pg o t cls m s).str = s.str := by simp [setTenEvt]
@[simp] theorem setTenEvt_mod (s : State) (pg o t cls : Nat) (m : Word) : (setTenEvt pg o t cls m s).mod = s.mod := by simp [setTenEvt]
@[simp] theorem setTenEvt_pma (s : State) (pg o t cls : Nat) (m : Word) : (setTenEvt pg o t cls m s).pma = s.pma := by simp [setTenEvt]

/-! `flagErrInfo` -/

@[simp] theorem flagErrInfo_variant (s : State) (pg i : Nat) (w : Word) : (flagErrInfo pg i w s).variant = s.variant := by unfold flagErrInfo; repeat (first | rfl | simp | split)
@[simp] theorem flagErrInfo_pending (s : State) (pg i : Nat) (w : Word) : (flagErrInfo pg i w s).pending = s.pending := by unfold flagErrInfo; repeat (first | rfl | simp | split)
@[simp] theorem flagErrInfo_now (s : State) (pg i : Nat) (w : Word) : (flagErrInfo pg i w s).now = s.now := by unfold flagErrInfo; repeat (first | rfl | simp | split)
@[simp] theorem flagErrInfo_free (s : State) (pg i : Nat) (w : Word) : (flagErrInfo pg i w s).free = s.free := by unfold flagErrInfo; repeat (first | rfl | simp | split)
@[simp] theorem flagErrInfo_resp (s : State) (pg i : Nat) (w : Word) : (flagErrInfo pg i w s).resp = s.resp := by unfold flagErrInfo; repeat (first | rfl | simp | split)
@[simp] theorem flagErrInfo_mem (s : State) (pg i : Nat) (w : Word) : (flagErrInfo pg i w s).mem = s.mem := by unfold flagErrInfo; repeat (first | rfl | simp | split)
@[simp] theorem flagErrInfo_epoch (s : State) (pg i : Nat) (w : Word) : (flagErrInfo pg i w s).epoch = s.epoch := by unfold flagErrInfo; repeat (first | rfl | simp | split)
@[simp] theorem flagErrInfo_eccUe (s : State) (pg i : Nat) (w : Word) : (flagErrInfo pg i w s).eccUe = s.eccUe := by unfold flagErrInfo; repeat (first | rfl | simp | split)
@[simp] theorem flagErrInfo_eccCe (s : State) (pg i : Nat) (w : Word) : (flagErrInfo pg i w s).eccCe = s.eccCe := by unfold flagErrInfo; repeat (first | rfl | simp | split)
@[simp] theorem flagErrInfo_mbx (s : State) (pg i : Nat) (w : Word) : (flagErrInfo pg i w s).mbx = s.mbx := by unfold flagErrInfo; repeat (first | rfl | simp | split)
@[simp] theorem flagErrInfo_held (s : State) (pg i : Nat) (w : Word) : (flagErrInfo pg i w s).held = s.held := by unfold flagErrInfo; repeat (first | rfl | simp | split)
@[simp] theorem flagErrInfo_ind (s : State) (pg i : Nat) (w : Word) : (flagErrInfo pg i w s).ind = s.ind := by unfold flagErrInfo; repeat (first | rfl | simp | split)
@[simp] theorem flagErrInfo_handed (s : State) (pg i : Nat) (w : Word) : (flagErrInfo pg i w s).handed = s.handed := by unfold flagErrInfo; repeat (first | rfl | simp | split)
@[simp] theorem flagErrInfo_tick (s : State) (pg i : Nat) (w : Word) : (flagErrInfo pg i w s).tick = s.tick := by unfold flagErrInfo; repeat (first | rfl | simp | split)
@[simp] theorem flagErrInfo_eng (s : State) (pg i : Nat) (w : Word) : (flagErrInfo pg i w s).eng = s.eng := by unfold flagErrInfo; repeat (first | rfl | simp | split)
@[simp] theorem flagErrInfo_clu (s : State) (pg i : Nat) (w : Word) : (flagErrInfo pg i w s).clu = s.clu := by unfold flagErrInfo; repeat (first | rfl | simp | split)
@[simp] theorem flagErrInfo_xfers (s : State) (pg i : Nat) (w : Word) : (flagErrInfo pg i w s).xfers = s.xfers := by unfold flagErrInfo; repeat (first | rfl | simp | split)
@[simp] theorem flagErrInfo_fabric (s : State) (pg i : Nat) (w : Word) : (flagErrInfo pg i w s).fabric = s.fabric := by unfold flagErrInfo; repeat (first | rfl | simp | split)
@[simp] theorem flagErrInfo_car (s : State) (pg i : Nat) (w : Word) : (flagErrInfo pg i w s).car = s.car := by unfold flagErrInfo; repeat (first | rfl | simp | split)
@[simp] theorem flagErrInfo_hop (s : State) (pg i : Nat) (w : Word) : (flagErrInfo pg i w s).hop = s.hop := by unfold flagErrInfo; repeat (first | rfl | simp | split)
@[simp] theorem flagErrInfo_ten (s : State) (pg i : Nat) (w : Word) : (flagErrInfo pg i w s).ten = s.ten := by unfold flagErrInfo; repeat (first | rfl | simp | split)
@[simp] theorem flagErrInfo_tim (s : State) (pg i : Nat) (w : Word) : (flagErrInfo pg i w s).tim = s.tim := by unfold flagErrInfo; repeat (first | rfl | simp | split)
@[simp] theorem flagErrInfo_dec (s : State) (pg i : Nat) (w : Word) : (flagErrInfo pg i w s).dec = s.dec := by unfold flagErrInfo; repeat (first | rfl | simp | split)
@[simp] theorem flagErrInfo_net (s : State) (pg i : Nat) (w : Word) : (flagErrInfo pg i w s).net = s.net := by unfold flagErrInfo; repeat (first | rfl | simp | split)
@[simp] theorem flagErrInfo_red (s : State) (pg i : Nat) (w : Word) : (flagErrInfo pg i w s).red = s.red := by unfold flagErrInfo; repeat (first | rfl | simp | split)
@[simp] theorem flagErrInfo_vlt (s : State) (pg i : Nat) (w : Word) : (flagErrInfo pg i w s).vlt = s.vlt := by unfold flagErrInfo; repeat (first | rfl | simp | split)
@[simp] theorem flagErrInfo_gse (s : State) (pg i : Nat) (w : Word) : (flagErrInfo pg i w s).gse = s.gse := by unfold flagErrInfo; repeat (first | rfl | simp | split)
@[simp] theorem flagErrInfo_met (s : State) (pg i : Nat) (w : Word) : (flagErrInfo pg i w s).met = s.met := by unfold flagErrInfo; repeat (first | rfl | simp | split)
@[simp] theorem flagErrInfo_cap (s : State) (pg i : Nat) (w : Word) : (flagErrInfo pg i w s).cap = s.cap := by unfold flagErrInfo; repeat (first | rfl | simp | split)
@[simp] theorem flagErrInfo_lgr (s : State) (pg i : Nat) (w : Word) : (flagErrInfo pg i w s).lgr = s.lgr := by unfold flagErrInfo; repeat (first | rfl | simp | split)
@[simp] theorem flagErrInfo_pair (s : State) (pg i : Nat) (w : Word) : (flagErrInfo pg i w s).pair = s.pair := by unfold flagErrInfo; repeat (first | rfl | simp | split)
@[simp] theorem flagErrInfo_str (s : State) (pg i : Nat) (w : Word) : (flagErrInfo pg i w s).str = s.str := by unfold flagErrInfo; repeat (first | rfl | simp | split)
@[simp] theorem flagErrInfo_mod (s : State) (pg i : Nat) (w : Word) : (flagErrInfo pg i w s).mod = s.mod := by unfold flagErrInfo; repeat (first | rfl | simp | split)
@[simp] theorem flagErrInfo_pma (s : State) (pg i : Nat) (w : Word) : (flagErrInfo pg i w s).pma = s.pma := by unfold flagErrInfo; repeat (first | rfl | simp | split)

/-! `flagErr` -/

@[simp] theorem flagErr_variant (s : State) (pg i off tid : Nat) (b : Bool) : (flagErr pg i off tid b s).variant = s.variant := by simp [flagErr]
@[simp] theorem flagErr_pending (s : State) (pg i off tid : Nat) (b : Bool) : (flagErr pg i off tid b s).pending = s.pending := by simp [flagErr]
@[simp] theorem flagErr_now (s : State) (pg i off tid : Nat) (b : Bool) : (flagErr pg i off tid b s).now = s.now := by simp [flagErr]
@[simp] theorem flagErr_free (s : State) (pg i off tid : Nat) (b : Bool) : (flagErr pg i off tid b s).free = s.free := by simp [flagErr]
@[simp] theorem flagErr_resp (s : State) (pg i off tid : Nat) (b : Bool) : (flagErr pg i off tid b s).resp = s.resp := by simp [flagErr]
@[simp] theorem flagErr_mem (s : State) (pg i off tid : Nat) (b : Bool) : (flagErr pg i off tid b s).mem = s.mem := by simp [flagErr]
@[simp] theorem flagErr_epoch (s : State) (pg i off tid : Nat) (b : Bool) : (flagErr pg i off tid b s).epoch = s.epoch := by simp [flagErr]
@[simp] theorem flagErr_eccUe (s : State) (pg i off tid : Nat) (b : Bool) : (flagErr pg i off tid b s).eccUe = s.eccUe := by simp [flagErr]
@[simp] theorem flagErr_eccCe (s : State) (pg i off tid : Nat) (b : Bool) : (flagErr pg i off tid b s).eccCe = s.eccCe := by simp [flagErr]
@[simp] theorem flagErr_mbx (s : State) (pg i off tid : Nat) (b : Bool) : (flagErr pg i off tid b s).mbx = s.mbx := by simp [flagErr]
@[simp] theorem flagErr_held (s : State) (pg i off tid : Nat) (b : Bool) : (flagErr pg i off tid b s).held = s.held := by simp [flagErr]
@[simp] theorem flagErr_ind (s : State) (pg i off tid : Nat) (b : Bool) : (flagErr pg i off tid b s).ind = s.ind := by simp [flagErr]
@[simp] theorem flagErr_handed (s : State) (pg i off tid : Nat) (b : Bool) : (flagErr pg i off tid b s).handed = s.handed := by simp [flagErr]
@[simp] theorem flagErr_tick (s : State) (pg i off tid : Nat) (b : Bool) : (flagErr pg i off tid b s).tick = s.tick := by simp [flagErr]
@[simp] theorem flagErr_eng (s : State) (pg i off tid : Nat) (b : Bool) : (flagErr pg i off tid b s).eng = s.eng := by simp [flagErr]
@[simp] theorem flagErr_clu (s : State) (pg i off tid : Nat) (b : Bool) : (flagErr pg i off tid b s).clu = s.clu := by simp [flagErr]
@[simp] theorem flagErr_xfers (s : State) (pg i off tid : Nat) (b : Bool) : (flagErr pg i off tid b s).xfers = s.xfers := by simp [flagErr]
@[simp] theorem flagErr_fabric (s : State) (pg i off tid : Nat) (b : Bool) : (flagErr pg i off tid b s).fabric = s.fabric := by simp [flagErr]
@[simp] theorem flagErr_car (s : State) (pg i off tid : Nat) (b : Bool) : (flagErr pg i off tid b s).car = s.car := by simp [flagErr]
@[simp] theorem flagErr_hop (s : State) (pg i off tid : Nat) (b : Bool) : (flagErr pg i off tid b s).hop = s.hop := by simp [flagErr]
@[simp] theorem flagErr_ten (s : State) (pg i off tid : Nat) (b : Bool) : (flagErr pg i off tid b s).ten = s.ten := by simp [flagErr]
@[simp] theorem flagErr_tim (s : State) (pg i off tid : Nat) (b : Bool) : (flagErr pg i off tid b s).tim = s.tim := by simp [flagErr]
@[simp] theorem flagErr_dec (s : State) (pg i off tid : Nat) (b : Bool) : (flagErr pg i off tid b s).dec = s.dec := by simp [flagErr]
@[simp] theorem flagErr_net (s : State) (pg i off tid : Nat) (b : Bool) : (flagErr pg i off tid b s).net = s.net := by simp [flagErr]
@[simp] theorem flagErr_red (s : State) (pg i off tid : Nat) (b : Bool) : (flagErr pg i off tid b s).red = s.red := by simp [flagErr]
@[simp] theorem flagErr_vlt (s : State) (pg i off tid : Nat) (b : Bool) : (flagErr pg i off tid b s).vlt = s.vlt := by simp [flagErr]
@[simp] theorem flagErr_gse (s : State) (pg i off tid : Nat) (b : Bool) : (flagErr pg i off tid b s).gse = s.gse := by simp [flagErr]
@[simp] theorem flagErr_met (s : State) (pg i off tid : Nat) (b : Bool) : (flagErr pg i off tid b s).met = s.met := by simp [flagErr]
@[simp] theorem flagErr_cap (s : State) (pg i off tid : Nat) (b : Bool) : (flagErr pg i off tid b s).cap = s.cap := by simp [flagErr]
@[simp] theorem flagErr_lgr (s : State) (pg i off tid : Nat) (b : Bool) : (flagErr pg i off tid b s).lgr = s.lgr := by simp [flagErr]
@[simp] theorem flagErr_pair (s : State) (pg i off tid : Nat) (b : Bool) : (flagErr pg i off tid b s).pair = s.pair := by simp [flagErr]
@[simp] theorem flagErr_str (s : State) (pg i off tid : Nat) (b : Bool) : (flagErr pg i off tid b s).str = s.str := by simp [flagErr]
@[simp] theorem flagErr_mod (s : State) (pg i off tid : Nat) (b : Bool) : (flagErr pg i off tid b s).mod = s.mod := by simp [flagErr]
@[simp] theorem flagErr_pma (s : State) (pg i off tid : Nat) (b : Bool) : (flagErr pg i off tid b s).pma = s.pma := by simp [flagErr]

/-! `hwErr` -/

@[simp] theorem hwErr_variant (s : State) (pg i : Nat) : (hwErr pg i s).variant = s.variant := by simp [hwErr]
@[simp] theorem hwErr_pending (s : State) (pg i : Nat) : (hwErr pg i s).pending = s.pending := by simp [hwErr]
@[simp] theorem hwErr_now (s : State) (pg i : Nat) : (hwErr pg i s).now = s.now := by simp [hwErr]
@[simp] theorem hwErr_resp (s : State) (pg i : Nat) : (hwErr pg i s).resp = s.resp := by simp [hwErr]
@[simp] theorem hwErr_mem (s : State) (pg i : Nat) : (hwErr pg i s).mem = s.mem := by simp [hwErr]
@[simp] theorem hwErr_epoch (s : State) (pg i : Nat) : (hwErr pg i s).epoch = s.epoch := by simp [hwErr]
@[simp] theorem hwErr_eccUe (s : State) (pg i : Nat) : (hwErr pg i s).eccUe = s.eccUe := by simp [hwErr]
@[simp] theorem hwErr_eccCe (s : State) (pg i : Nat) : (hwErr pg i s).eccCe = s.eccCe := by simp [hwErr]
@[simp] theorem hwErr_mbx (s : State) (pg i : Nat) : (hwErr pg i s).mbx = s.mbx := by simp [hwErr]
@[simp] theorem hwErr_held (s : State) (pg i : Nat) : (hwErr pg i s).held = s.held := by simp [hwErr]
@[simp] theorem hwErr_ind (s : State) (pg i : Nat) : (hwErr pg i s).ind = s.ind := by simp [hwErr]
@[simp] theorem hwErr_handed (s : State) (pg i : Nat) : (hwErr pg i s).handed = s.handed := by simp [hwErr]
@[simp] theorem hwErr_tick (s : State) (pg i : Nat) : (hwErr pg i s).tick = s.tick := by simp [hwErr]
@[simp] theorem hwErr_eng (s : State) (pg i : Nat) : (hwErr pg i s).eng = s.eng := by simp [hwErr]
@[simp] theorem hwErr_clu (s : State) (pg i : Nat) : (hwErr pg i s).clu = s.clu := by simp [hwErr]
@[simp] theorem hwErr_xfers (s : State) (pg i : Nat) : (hwErr pg i s).xfers = s.xfers := by simp [hwErr]
@[simp] theorem hwErr_fabric (s : State) (pg i : Nat) : (hwErr pg i s).fabric = s.fabric := by simp [hwErr]
@[simp] theorem hwErr_car (s : State) (pg i : Nat) : (hwErr pg i s).car = s.car := by simp [hwErr]
@[simp] theorem hwErr_hop (s : State) (pg i : Nat) : (hwErr pg i s).hop = s.hop := by simp [hwErr]
@[simp] theorem hwErr_ten (s : State) (pg i : Nat) : (hwErr pg i s).ten = s.ten := by simp [hwErr]
@[simp] theorem hwErr_tim (s : State) (pg i : Nat) : (hwErr pg i s).tim = s.tim := by simp [hwErr]
@[simp] theorem hwErr_dec (s : State) (pg i : Nat) : (hwErr pg i s).dec = s.dec := by simp [hwErr]
@[simp] theorem hwErr_net (s : State) (pg i : Nat) : (hwErr pg i s).net = s.net := by simp [hwErr]
@[simp] theorem hwErr_red (s : State) (pg i : Nat) : (hwErr pg i s).red = s.red := by simp [hwErr]
@[simp] theorem hwErr_vlt (s : State) (pg i : Nat) : (hwErr pg i s).vlt = s.vlt := by simp [hwErr]
@[simp] theorem hwErr_gse (s : State) (pg i : Nat) : (hwErr pg i s).gse = s.gse := by simp [hwErr]
@[simp] theorem hwErr_met (s : State) (pg i : Nat) : (hwErr pg i s).met = s.met := by simp [hwErr]
@[simp] theorem hwErr_cap (s : State) (pg i : Nat) : (hwErr pg i s).cap = s.cap := by simp [hwErr]
@[simp] theorem hwErr_lgr (s : State) (pg i : Nat) : (hwErr pg i s).lgr = s.lgr := by simp [hwErr]
@[simp] theorem hwErr_pair (s : State) (pg i : Nat) : (hwErr pg i s).pair = s.pair := by simp [hwErr]
@[simp] theorem hwErr_str (s : State) (pg i : Nat) : (hwErr pg i s).str = s.str := by simp [hwErr]
@[simp] theorem hwErr_mod (s : State) (pg i : Nat) : (hwErr pg i s).mod = s.mod := by simp [hwErr]
@[simp] theorem hwErr_pma (s : State) (pg i : Nat) : (hwErr pg i s).pma = s.pma := by simp [hwErr]

/-! `refuse` -/

@[simp] theorem refuse_variant (s : State) (pg i off tid : Nat) : (refuse pg i off tid s).variant = s.variant := by simp [refuse]
@[simp] theorem refuse_pending (s : State) (pg i off tid : Nat) : (refuse pg i off tid s).pending = s.pending := by simp [refuse]
@[simp] theorem refuse_now (s : State) (pg i off tid : Nat) : (refuse pg i off tid s).now = s.now := by simp [refuse]
@[simp] theorem refuse_free (s : State) (pg i off tid : Nat) : (refuse pg i off tid s).free = s.free := by simp [refuse]
@[simp] theorem refuse_mem (s : State) (pg i off tid : Nat) : (refuse pg i off tid s).mem = s.mem := by simp [refuse]
@[simp] theorem refuse_epoch (s : State) (pg i off tid : Nat) : (refuse pg i off tid s).epoch = s.epoch := by simp [refuse]
@[simp] theorem refuse_eccUe (s : State) (pg i off tid : Nat) : (refuse pg i off tid s).eccUe = s.eccUe := by simp [refuse]
@[simp] theorem refuse_eccCe (s : State) (pg i off tid : Nat) : (refuse pg i off tid s).eccCe = s.eccCe := by simp [refuse]
@[simp] theorem refuse_mbx (s : State) (pg i off tid : Nat) : (refuse pg i off tid s).mbx = s.mbx := by simp [refuse]
@[simp] theorem refuse_held (s : State) (pg i off tid : Nat) : (refuse pg i off tid s).held = s.held := by simp [refuse]
@[simp] theorem refuse_ind (s : State) (pg i off tid : Nat) : (refuse pg i off tid s).ind = s.ind := by simp [refuse]
@[simp] theorem refuse_handed (s : State) (pg i off tid : Nat) : (refuse pg i off tid s).handed = s.handed := by simp [refuse]
@[simp] theorem refuse_tick (s : State) (pg i off tid : Nat) : (refuse pg i off tid s).tick = s.tick := by simp [refuse]
@[simp] theorem refuse_eng (s : State) (pg i off tid : Nat) : (refuse pg i off tid s).eng = s.eng := by simp [refuse]
@[simp] theorem refuse_clu (s : State) (pg i off tid : Nat) : (refuse pg i off tid s).clu = s.clu := by simp [refuse]
@[simp] theorem refuse_xfers (s : State) (pg i off tid : Nat) : (refuse pg i off tid s).xfers = s.xfers := by simp [refuse]
@[simp] theorem refuse_fabric (s : State) (pg i off tid : Nat) : (refuse pg i off tid s).fabric = s.fabric := by simp [refuse]
@[simp] theorem refuse_car (s : State) (pg i off tid : Nat) : (refuse pg i off tid s).car = s.car := by simp [refuse]
@[simp] theorem refuse_hop (s : State) (pg i off tid : Nat) : (refuse pg i off tid s).hop = s.hop := by simp [refuse]
@[simp] theorem refuse_ten (s : State) (pg i off tid : Nat) : (refuse pg i off tid s).ten = s.ten := by simp [refuse]
@[simp] theorem refuse_tim (s : State) (pg i off tid : Nat) : (refuse pg i off tid s).tim = s.tim := by simp [refuse]
@[simp] theorem refuse_dec (s : State) (pg i off tid : Nat) : (refuse pg i off tid s).dec = s.dec := by simp [refuse]
@[simp] theorem refuse_net (s : State) (pg i off tid : Nat) : (refuse pg i off tid s).net = s.net := by simp [refuse]
@[simp] theorem refuse_red (s : State) (pg i off tid : Nat) : (refuse pg i off tid s).red = s.red := by simp [refuse]
@[simp] theorem refuse_vlt (s : State) (pg i off tid : Nat) : (refuse pg i off tid s).vlt = s.vlt := by simp [refuse]
@[simp] theorem refuse_gse (s : State) (pg i off tid : Nat) : (refuse pg i off tid s).gse = s.gse := by simp [refuse]
@[simp] theorem refuse_met (s : State) (pg i off tid : Nat) : (refuse pg i off tid s).met = s.met := by simp [refuse]
@[simp] theorem refuse_cap (s : State) (pg i off tid : Nat) : (refuse pg i off tid s).cap = s.cap := by simp [refuse]
@[simp] theorem refuse_lgr (s : State) (pg i off tid : Nat) : (refuse pg i off tid s).lgr = s.lgr := by simp [refuse]
@[simp] theorem refuse_pair (s : State) (pg i off tid : Nat) : (refuse pg i off tid s).pair = s.pair := by simp [refuse]
@[simp] theorem refuse_str (s : State) (pg i off tid : Nat) : (refuse pg i off tid s).str = s.str := by simp [refuse]
@[simp] theorem refuse_mod (s : State) (pg i off tid : Nat) : (refuse pg i off tid s).mod = s.mod := by simp [refuse]
@[simp] theorem refuse_pma (s : State) (pg i off tid : Nat) : (refuse pg i off tid s).pma = s.pma := by simp [refuse]

/-! `updEng` -/

@[simp] theorem updEng_variant (s : State) (n : Nat) (f : Engine → Engine) : (updEng n f s).variant = s.variant := rfl
@[simp] theorem updEng_pending (s : State) (n : Nat) (f : Engine → Engine) : (updEng n f s).pending = s.pending := rfl
@[simp] theorem updEng_now (s : State) (n : Nat) (f : Engine → Engine) : (updEng n f s).now = s.now := rfl
@[simp] theorem updEng_free (s : State) (n : Nat) (f : Engine → Engine) : (updEng n f s).free = s.free := rfl
@[simp] theorem updEng_resp (s : State) (n : Nat) (f : Engine → Engine) : (updEng n f s).resp = s.resp := rfl
@[simp] theorem updEng_regs (s : State) (n : Nat) (f : Engine → Engine) : (updEng n f s).regs = s.regs := rfl
@[simp] theorem updEng_mem (s : State) (n : Nat) (f : Engine → Engine) : (updEng n f s).mem = s.mem := rfl
@[simp] theorem updEng_epoch (s : State) (n : Nat) (f : Engine → Engine) : (updEng n f s).epoch = s.epoch := rfl
@[simp] theorem updEng_eccUe (s : State) (n : Nat) (f : Engine → Engine) : (updEng n f s).eccUe = s.eccUe := rfl
@[simp] theorem updEng_eccCe (s : State) (n : Nat) (f : Engine → Engine) : (updEng n f s).eccCe = s.eccCe := rfl
@[simp] theorem updEng_mbx (s : State) (n : Nat) (f : Engine → Engine) : (updEng n f s).mbx = s.mbx := rfl
@[simp] theorem updEng_held (s : State) (n : Nat) (f : Engine → Engine) : (updEng n f s).held = s.held := rfl
@[simp] theorem updEng_ind (s : State) (n : Nat) (f : Engine → Engine) : (updEng n f s).ind = s.ind := rfl
@[simp] theorem updEng_irq (s : State) (n : Nat) (f : Engine → Engine) : (updEng n f s).irq = s.irq := rfl
@[simp] theorem updEng_handed (s : State) (n : Nat) (f : Engine → Engine) : (updEng n f s).handed = s.handed := rfl
@[simp] theorem updEng_tick (s : State) (n : Nat) (f : Engine → Engine) : (updEng n f s).tick = s.tick := rfl
@[simp] theorem updEng_clu (s : State) (n : Nat) (f : Engine → Engine) : (updEng n f s).clu = s.clu := rfl
@[simp] theorem updEng_xfers (s : State) (n : Nat) (f : Engine → Engine) : (updEng n f s).xfers = s.xfers := rfl
@[simp] theorem updEng_fabric (s : State) (n : Nat) (f : Engine → Engine) : (updEng n f s).fabric = s.fabric := rfl
@[simp] theorem updEng_car (s : State) (n : Nat) (f : Engine → Engine) : (updEng n f s).car = s.car := rfl
@[simp] theorem updEng_hop (s : State) (n : Nat) (f : Engine → Engine) : (updEng n f s).hop = s.hop := rfl
@[simp] theorem updEng_ten (s : State) (n : Nat) (f : Engine → Engine) : (updEng n f s).ten = s.ten := rfl
@[simp] theorem updEng_tim (s : State) (n : Nat) (f : Engine → Engine) : (updEng n f s).tim = s.tim := rfl
@[simp] theorem updEng_dec (s : State) (n : Nat) (f : Engine → Engine) : (updEng n f s).dec = s.dec := rfl
@[simp] theorem updEng_net (s : State) (n : Nat) (f : Engine → Engine) : (updEng n f s).net = s.net := rfl
@[simp] theorem updEng_red (s : State) (n : Nat) (f : Engine → Engine) : (updEng n f s).red = s.red := rfl
@[simp] theorem updEng_vlt (s : State) (n : Nat) (f : Engine → Engine) : (updEng n f s).vlt = s.vlt := rfl
@[simp] theorem updEng_gse (s : State) (n : Nat) (f : Engine → Engine) : (updEng n f s).gse = s.gse := rfl
@[simp] theorem updEng_met (s : State) (n : Nat) (f : Engine → Engine) : (updEng n f s).met = s.met := rfl
@[simp] theorem updEng_cap (s : State) (n : Nat) (f : Engine → Engine) : (updEng n f s).cap = s.cap := rfl
@[simp] theorem updEng_lgr (s : State) (n : Nat) (f : Engine → Engine) : (updEng n f s).lgr = s.lgr := rfl
@[simp] theorem updEng_pair (s : State) (n : Nat) (f : Engine → Engine) : (updEng n f s).pair = s.pair := rfl
@[simp] theorem updEng_str (s : State) (n : Nat) (f : Engine → Engine) : (updEng n f s).str = s.str := rfl
@[simp] theorem updEng_mod (s : State) (n : Nat) (f : Engine → Engine) : (updEng n f s).mod = s.mod := rfl
@[simp] theorem updEng_pma (s : State) (n : Nat) (f : Engine → Engine) : (updEng n f s).pma = s.pma := rfl
@[simp] theorem updEng_hits (s : State) (n : Nat) (f : Engine → Engine) : (updEng n f s).hits = s.hits := rfl

/-! `updTb` -/

@[simp] theorem updTb_variant (s : State) (d : Nat) (f : TimeBase → TimeBase) : (updTb d f s).variant = s.variant := rfl
@[simp] theorem updTb_pending (s : State) (d : Nat) (f : TimeBase → TimeBase) : (updTb d f s).pending = s.pending := rfl
@[simp] theorem updTb_now (s : State) (d : Nat) (f : TimeBase → TimeBase) : (updTb d f s).now = s.now := rfl
@[simp] theorem updTb_free (s : State) (d : Nat) (f : TimeBase → TimeBase) : (updTb d f s).free = s.free := rfl
@[simp] theorem updTb_resp (s : State) (d : Nat) (f : TimeBase → TimeBase) : (updTb d f s).resp = s.resp := rfl
@[simp] theorem updTb_regs (s : State) (d : Nat) (f : TimeBase → TimeBase) : (updTb d f s).regs = s.regs := rfl
@[simp] theorem updTb_mem (s : State) (d : Nat) (f : TimeBase → TimeBase) : (updTb d f s).mem = s.mem := rfl
@[simp] theorem updTb_epoch (s : State) (d : Nat) (f : TimeBase → TimeBase) : (updTb d f s).epoch = s.epoch := rfl
@[simp] theorem updTb_eccUe (s : State) (d : Nat) (f : TimeBase → TimeBase) : (updTb d f s).eccUe = s.eccUe := rfl
@[simp] theorem updTb_eccCe (s : State) (d : Nat) (f : TimeBase → TimeBase) : (updTb d f s).eccCe = s.eccCe := rfl
@[simp] theorem updTb_mbx (s : State) (d : Nat) (f : TimeBase → TimeBase) : (updTb d f s).mbx = s.mbx := rfl
@[simp] theorem updTb_held (s : State) (d : Nat) (f : TimeBase → TimeBase) : (updTb d f s).held = s.held := rfl
@[simp] theorem updTb_ind (s : State) (d : Nat) (f : TimeBase → TimeBase) : (updTb d f s).ind = s.ind := rfl
@[simp] theorem updTb_irq (s : State) (d : Nat) (f : TimeBase → TimeBase) : (updTb d f s).irq = s.irq := rfl
@[simp] theorem updTb_handed (s : State) (d : Nat) (f : TimeBase → TimeBase) : (updTb d f s).handed = s.handed := rfl
@[simp] theorem updTb_tick (s : State) (d : Nat) (f : TimeBase → TimeBase) : (updTb d f s).tick = s.tick := rfl
@[simp] theorem updTb_eng (s : State) (d : Nat) (f : TimeBase → TimeBase) : (updTb d f s).eng = s.eng := rfl
@[simp] theorem updTb_clu (s : State) (d : Nat) (f : TimeBase → TimeBase) : (updTb d f s).clu = s.clu := rfl
@[simp] theorem updTb_xfers (s : State) (d : Nat) (f : TimeBase → TimeBase) : (updTb d f s).xfers = s.xfers := rfl
@[simp] theorem updTb_fabric (s : State) (d : Nat) (f : TimeBase → TimeBase) : (updTb d f s).fabric = s.fabric := rfl
@[simp] theorem updTb_car (s : State) (d : Nat) (f : TimeBase → TimeBase) : (updTb d f s).car = s.car := rfl
@[simp] theorem updTb_hop (s : State) (d : Nat) (f : TimeBase → TimeBase) : (updTb d f s).hop = s.hop := rfl
@[simp] theorem updTb_ten (s : State) (d : Nat) (f : TimeBase → TimeBase) : (updTb d f s).ten = s.ten := rfl
@[simp] theorem updTb_dec (s : State) (d : Nat) (f : TimeBase → TimeBase) : (updTb d f s).dec = s.dec := rfl
@[simp] theorem updTb_net (s : State) (d : Nat) (f : TimeBase → TimeBase) : (updTb d f s).net = s.net := rfl
@[simp] theorem updTb_red (s : State) (d : Nat) (f : TimeBase → TimeBase) : (updTb d f s).red = s.red := rfl
@[simp] theorem updTb_vlt (s : State) (d : Nat) (f : TimeBase → TimeBase) : (updTb d f s).vlt = s.vlt := rfl
@[simp] theorem updTb_gse (s : State) (d : Nat) (f : TimeBase → TimeBase) : (updTb d f s).gse = s.gse := rfl
@[simp] theorem updTb_met (s : State) (d : Nat) (f : TimeBase → TimeBase) : (updTb d f s).met = s.met := rfl
@[simp] theorem updTb_cap (s : State) (d : Nat) (f : TimeBase → TimeBase) : (updTb d f s).cap = s.cap := rfl
@[simp] theorem updTb_lgr (s : State) (d : Nat) (f : TimeBase → TimeBase) : (updTb d f s).lgr = s.lgr := rfl
@[simp] theorem updTb_pair (s : State) (d : Nat) (f : TimeBase → TimeBase) : (updTb d f s).pair = s.pair := rfl
@[simp] theorem updTb_str (s : State) (d : Nat) (f : TimeBase → TimeBase) : (updTb d f s).str = s.str := rfl
@[simp] theorem updTb_mod (s : State) (d : Nat) (f : TimeBase → TimeBase) : (updTb d f s).mod = s.mod := rfl
@[simp] theorem updTb_pma (s : State) (d : Nat) (f : TimeBase → TimeBase) : (updTb d f s).pma = s.pma := rfl
@[simp] theorem updTb_hits (s : State) (d : Nat) (f : TimeBase → TimeBase) : (updTb d f s).hits = s.hits := rfl

/-! `updPair` -/

@[simp] theorem updPair_variant (s : State) (f : Pair → Pair) : (updPair f s).variant = s.variant := rfl
@[simp] theorem updPair_pending (s : State) (f : Pair → Pair) : (updPair f s).pending = s.pending := rfl
@[simp] theorem updPair_now (s : State) (f : Pair → Pair) : (updPair f s).now = s.now := rfl
@[simp] theorem updPair_free (s : State) (f : Pair → Pair) : (updPair f s).free = s.free := rfl
@[simp] theorem updPair_resp (s : State) (f : Pair → Pair) : (updPair f s).resp = s.resp := rfl
@[simp] theorem updPair_regs (s : State) (f : Pair → Pair) : (updPair f s).regs = s.regs := rfl
@[simp] theorem updPair_mem (s : State) (f : Pair → Pair) : (updPair f s).mem = s.mem := rfl
@[simp] theorem updPair_epoch (s : State) (f : Pair → Pair) : (updPair f s).epoch = s.epoch := rfl
@[simp] theorem updPair_eccUe (s : State) (f : Pair → Pair) : (updPair f s).eccUe = s.eccUe := rfl
@[simp] theorem updPair_eccCe (s : State) (f : Pair → Pair) : (updPair f s).eccCe = s.eccCe := rfl
@[simp] theorem updPair_mbx (s : State) (f : Pair → Pair) : (updPair f s).mbx = s.mbx := rfl
@[simp] theorem updPair_held (s : State) (f : Pair → Pair) : (updPair f s).held = s.held := rfl
@[simp] theorem updPair_ind (s : State) (f : Pair → Pair) : (updPair f s).ind = s.ind := rfl
@[simp] theorem updPair_irq (s : State) (f : Pair → Pair) : (updPair f s).irq = s.irq := rfl
@[simp] theorem updPair_handed (s : State) (f : Pair → Pair) : (updPair f s).handed = s.handed := rfl
@[simp] theorem updPair_tick (s : State) (f : Pair → Pair) : (updPair f s).tick = s.tick := rfl
@[simp] theorem updPair_eng (s : State) (f : Pair → Pair) : (updPair f s).eng = s.eng := rfl
@[simp] theorem updPair_clu (s : State) (f : Pair → Pair) : (updPair f s).clu = s.clu := rfl
@[simp] theorem updPair_xfers (s : State) (f : Pair → Pair) : (updPair f s).xfers = s.xfers := rfl
@[simp] theorem updPair_fabric (s : State) (f : Pair → Pair) : (updPair f s).fabric = s.fabric := rfl
@[simp] theorem updPair_car (s : State) (f : Pair → Pair) : (updPair f s).car = s.car := rfl
@[simp] theorem updPair_hop (s : State) (f : Pair → Pair) : (updPair f s).hop = s.hop := rfl
@[simp] theorem updPair_ten (s : State) (f : Pair → Pair) : (updPair f s).ten = s.ten := rfl
@[simp] theorem updPair_tim (s : State) (f : Pair → Pair) : (updPair f s).tim = s.tim := rfl
@[simp] theorem updPair_dec (s : State) (f : Pair → Pair) : (updPair f s).dec = s.dec := rfl
@[simp] theorem updPair_net (s : State) (f : Pair → Pair) : (updPair f s).net = s.net := rfl
@[simp] theorem updPair_red (s : State) (f : Pair → Pair) : (updPair f s).red = s.red := rfl
@[simp] theorem updPair_vlt (s : State) (f : Pair → Pair) : (updPair f s).vlt = s.vlt := rfl
@[simp] theorem updPair_gse (s : State) (f : Pair → Pair) : (updPair f s).gse = s.gse := rfl
@[simp] theorem updPair_met (s : State) (f : Pair → Pair) : (updPair f s).met = s.met := rfl
@[simp] theorem updPair_cap (s : State) (f : Pair → Pair) : (updPair f s).cap = s.cap := rfl
@[simp] theorem updPair_lgr (s : State) (f : Pair → Pair) : (updPair f s).lgr = s.lgr := rfl
@[simp] theorem updPair_str (s : State) (f : Pair → Pair) : (updPair f s).str = s.str := rfl
@[simp] theorem updPair_mod (s : State) (f : Pair → Pair) : (updPair f s).mod = s.mod := rfl
@[simp] theorem updPair_pma (s : State) (f : Pair → Pair) : (updPair f s).pma = s.pma := rfl
@[simp] theorem updPair_hits (s : State) (f : Pair → Pair) : (updPair f s).hits = s.hits := rfl

/-! `updPort` -/

@[simp] theorem updPort_variant (s : State) (p : Nat) (f : Port → Port) : (updPort p f s).variant = s.variant := rfl
@[simp] theorem updPort_pending (s : State) (p : Nat) (f : Port → Port) : (updPort p f s).pending = s.pending := rfl
@[simp] theorem updPort_now (s : State) (p : Nat) (f : Port → Port) : (updPort p f s).now = s.now := rfl
@[simp] theorem updPort_free (s : State) (p : Nat) (f : Port → Port) : (updPort p f s).free = s.free := rfl
@[simp] theorem updPort_resp (s : State) (p : Nat) (f : Port → Port) : (updPort p f s).resp = s.resp := rfl
@[simp] theorem updPort_regs (s : State) (p : Nat) (f : Port → Port) : (updPort p f s).regs = s.regs := rfl
@[simp] theorem updPort_mem (s : State) (p : Nat) (f : Port → Port) : (updPort p f s).mem = s.mem := rfl
@[simp] theorem updPort_epoch (s : State) (p : Nat) (f : Port → Port) : (updPort p f s).epoch = s.epoch := rfl
@[simp] theorem updPort_eccUe (s : State) (p : Nat) (f : Port → Port) : (updPort p f s).eccUe = s.eccUe := rfl
@[simp] theorem updPort_eccCe (s : State) (p : Nat) (f : Port → Port) : (updPort p f s).eccCe = s.eccCe := rfl
@[simp] theorem updPort_mbx (s : State) (p : Nat) (f : Port → Port) : (updPort p f s).mbx = s.mbx := rfl
@[simp] theorem updPort_held (s : State) (p : Nat) (f : Port → Port) : (updPort p f s).held = s.held := rfl
@[simp] theorem updPort_ind (s : State) (p : Nat) (f : Port → Port) : (updPort p f s).ind = s.ind := rfl
@[simp] theorem updPort_irq (s : State) (p : Nat) (f : Port → Port) : (updPort p f s).irq = s.irq := rfl
@[simp] theorem updPort_handed (s : State) (p : Nat) (f : Port → Port) : (updPort p f s).handed = s.handed := rfl
@[simp] theorem updPort_tick (s : State) (p : Nat) (f : Port → Port) : (updPort p f s).tick = s.tick := rfl
@[simp] theorem updPort_eng (s : State) (p : Nat) (f : Port → Port) : (updPort p f s).eng = s.eng := rfl
@[simp] theorem updPort_clu (s : State) (p : Nat) (f : Port → Port) : (updPort p f s).clu = s.clu := rfl
@[simp] theorem updPort_xfers (s : State) (p : Nat) (f : Port → Port) : (updPort p f s).xfers = s.xfers := rfl
@[simp] theorem updPort_fabric (s : State) (p : Nat) (f : Port → Port) : (updPort p f s).fabric = s.fabric := rfl
@[simp] theorem updPort_car (s : State) (p : Nat) (f : Port → Port) : (updPort p f s).car = s.car := rfl
@[simp] theorem updPort_hop (s : State) (p : Nat) (f : Port → Port) : (updPort p f s).hop = s.hop := rfl
@[simp] theorem updPort_ten (s : State) (p : Nat) (f : Port → Port) : (updPort p f s).ten = s.ten := rfl
@[simp] theorem updPort_tim (s : State) (p : Nat) (f : Port → Port) : (updPort p f s).tim = s.tim := rfl
@[simp] theorem updPort_dec (s : State) (p : Nat) (f : Port → Port) : (updPort p f s).dec = s.dec := rfl
@[simp] theorem updPort_red (s : State) (p : Nat) (f : Port → Port) : (updPort p f s).red = s.red := rfl
@[simp] theorem updPort_vlt (s : State) (p : Nat) (f : Port → Port) : (updPort p f s).vlt = s.vlt := rfl
@[simp] theorem updPort_gse (s : State) (p : Nat) (f : Port → Port) : (updPort p f s).gse = s.gse := rfl
@[simp] theorem updPort_met (s : State) (p : Nat) (f : Port → Port) : (updPort p f s).met = s.met := rfl
@[simp] theorem updPort_cap (s : State) (p : Nat) (f : Port → Port) : (updPort p f s).cap = s.cap := rfl
@[simp] theorem updPort_lgr (s : State) (p : Nat) (f : Port → Port) : (updPort p f s).lgr = s.lgr := rfl
@[simp] theorem updPort_pair (s : State) (p : Nat) (f : Port → Port) : (updPort p f s).pair = s.pair := rfl
@[simp] theorem updPort_str (s : State) (p : Nat) (f : Port → Port) : (updPort p f s).str = s.str := rfl
@[simp] theorem updPort_mod (s : State) (p : Nat) (f : Port → Port) : (updPort p f s).mod = s.mod := rfl
@[simp] theorem updPort_pma (s : State) (p : Nat) (f : Port → Port) : (updPort p f s).pma = s.pma := rfl
@[simp] theorem updPort_hits (s : State) (p : Nat) (f : Port → Port) : (updPort p f s).hits = s.hits := rfl

/-! `updRed` -/

@[simp] theorem updRed_variant (s : State) (g : Nat) (f : RedPair → RedPair) : (updRed g f s).variant = s.variant := rfl
@[simp] theorem updRed_pending (s : State) (g : Nat) (f : RedPair → RedPair) : (updRed g f s).pending = s.pending := rfl
@[simp] theorem updRed_now (s : State) (g : Nat) (f : RedPair → RedPair) : (updRed g f s).now = s.now := rfl
@[simp] theorem updRed_free (s : State) (g : Nat) (f : RedPair → RedPair) : (updRed g f s).free = s.free := rfl
@[simp] theorem updRed_resp (s : State) (g : Nat) (f : RedPair → RedPair) : (updRed g f s).resp = s.resp := rfl
@[simp] theorem updRed_regs (s : State) (g : Nat) (f : RedPair → RedPair) : (updRed g f s).regs = s.regs := rfl
@[simp] theorem updRed_mem (s : State) (g : Nat) (f : RedPair → RedPair) : (updRed g f s).mem = s.mem := rfl
@[simp] theorem updRed_epoch (s : State) (g : Nat) (f : RedPair → RedPair) : (updRed g f s).epoch = s.epoch := rfl
@[simp] theorem updRed_eccUe (s : State) (g : Nat) (f : RedPair → RedPair) : (updRed g f s).eccUe = s.eccUe := rfl
@[simp] theorem updRed_eccCe (s : State) (g : Nat) (f : RedPair → RedPair) : (updRed g f s).eccCe = s.eccCe := rfl
@[simp] theorem updRed_mbx (s : State) (g : Nat) (f : RedPair → RedPair) : (updRed g f s).mbx = s.mbx := rfl
@[simp] theorem updRed_held (s : State) (g : Nat) (f : RedPair → RedPair) : (updRed g f s).held = s.held := rfl
@[simp] theorem updRed_ind (s : State) (g : Nat) (f : RedPair → RedPair) : (updRed g f s).ind = s.ind := rfl
@[simp] theorem updRed_irq (s : State) (g : Nat) (f : RedPair → RedPair) : (updRed g f s).irq = s.irq := rfl
@[simp] theorem updRed_handed (s : State) (g : Nat) (f : RedPair → RedPair) : (updRed g f s).handed = s.handed := rfl
@[simp] theorem updRed_tick (s : State) (g : Nat) (f : RedPair → RedPair) : (updRed g f s).tick = s.tick := rfl
@[simp] theorem updRed_eng (s : State) (g : Nat) (f : RedPair → RedPair) : (updRed g f s).eng = s.eng := rfl
@[simp] theorem updRed_clu (s : State) (g : Nat) (f : RedPair → RedPair) : (updRed g f s).clu = s.clu := rfl
@[simp] theorem updRed_xfers (s : State) (g : Nat) (f : RedPair → RedPair) : (updRed g f s).xfers = s.xfers := rfl
@[simp] theorem updRed_fabric (s : State) (g : Nat) (f : RedPair → RedPair) : (updRed g f s).fabric = s.fabric := rfl
@[simp] theorem updRed_car (s : State) (g : Nat) (f : RedPair → RedPair) : (updRed g f s).car = s.car := rfl
@[simp] theorem updRed_hop (s : State) (g : Nat) (f : RedPair → RedPair) : (updRed g f s).hop = s.hop := rfl
@[simp] theorem updRed_ten (s : State) (g : Nat) (f : RedPair → RedPair) : (updRed g f s).ten = s.ten := rfl
@[simp] theorem updRed_tim (s : State) (g : Nat) (f : RedPair → RedPair) : (updRed g f s).tim = s.tim := rfl
@[simp] theorem updRed_dec (s : State) (g : Nat) (f : RedPair → RedPair) : (updRed g f s).dec = s.dec := rfl
@[simp] theorem updRed_net (s : State) (g : Nat) (f : RedPair → RedPair) : (updRed g f s).net = s.net := rfl
@[simp] theorem updRed_vlt (s : State) (g : Nat) (f : RedPair → RedPair) : (updRed g f s).vlt = s.vlt := rfl
@[simp] theorem updRed_gse (s : State) (g : Nat) (f : RedPair → RedPair) : (updRed g f s).gse = s.gse := rfl
@[simp] theorem updRed_met (s : State) (g : Nat) (f : RedPair → RedPair) : (updRed g f s).met = s.met := rfl
@[simp] theorem updRed_cap (s : State) (g : Nat) (f : RedPair → RedPair) : (updRed g f s).cap = s.cap := rfl
@[simp] theorem updRed_lgr (s : State) (g : Nat) (f : RedPair → RedPair) : (updRed g f s).lgr = s.lgr := rfl
@[simp] theorem updRed_pair (s : State) (g : Nat) (f : RedPair → RedPair) : (updRed g f s).pair = s.pair := rfl
@[simp] theorem updRed_str (s : State) (g : Nat) (f : RedPair → RedPair) : (updRed g f s).str = s.str := rfl
@[simp] theorem updRed_mod (s : State) (g : Nat) (f : RedPair → RedPair) : (updRed g f s).mod = s.mod := rfl
@[simp] theorem updRed_pma (s : State) (g : Nat) (f : RedPair → RedPair) : (updRed g f s).pma = s.pma := rfl
@[simp] theorem updRed_hits (s : State) (g : Nat) (f : RedPair → RedPair) : (updRed g f s).hits = s.hits := rfl

/-! `updVlt` -/

@[simp] theorem updVlt_variant (s : State) (f : Vault → Vault) : (updVlt f s).variant = s.variant := rfl
@[simp] theorem updVlt_pending (s : State) (f : Vault → Vault) : (updVlt f s).pending = s.pending := rfl
@[simp] theorem updVlt_now (s : State) (f : Vault → Vault) : (updVlt f s).now = s.now := rfl
@[simp] theorem updVlt_free (s : State) (f : Vault → Vault) : (updVlt f s).free = s.free := rfl
@[simp] theorem updVlt_resp (s : State) (f : Vault → Vault) : (updVlt f s).resp = s.resp := rfl
@[simp] theorem updVlt_regs (s : State) (f : Vault → Vault) : (updVlt f s).regs = s.regs := rfl
@[simp] theorem updVlt_mem (s : State) (f : Vault → Vault) : (updVlt f s).mem = s.mem := rfl
@[simp] theorem updVlt_epoch (s : State) (f : Vault → Vault) : (updVlt f s).epoch = s.epoch := rfl
@[simp] theorem updVlt_eccUe (s : State) (f : Vault → Vault) : (updVlt f s).eccUe = s.eccUe := rfl
@[simp] theorem updVlt_eccCe (s : State) (f : Vault → Vault) : (updVlt f s).eccCe = s.eccCe := rfl
@[simp] theorem updVlt_mbx (s : State) (f : Vault → Vault) : (updVlt f s).mbx = s.mbx := rfl
@[simp] theorem updVlt_held (s : State) (f : Vault → Vault) : (updVlt f s).held = s.held := rfl
@[simp] theorem updVlt_ind (s : State) (f : Vault → Vault) : (updVlt f s).ind = s.ind := rfl
@[simp] theorem updVlt_irq (s : State) (f : Vault → Vault) : (updVlt f s).irq = s.irq := rfl
@[simp] theorem updVlt_handed (s : State) (f : Vault → Vault) : (updVlt f s).handed = s.handed := rfl
@[simp] theorem updVlt_tick (s : State) (f : Vault → Vault) : (updVlt f s).tick = s.tick := rfl
@[simp] theorem updVlt_eng (s : State) (f : Vault → Vault) : (updVlt f s).eng = s.eng := rfl
@[simp] theorem updVlt_clu (s : State) (f : Vault → Vault) : (updVlt f s).clu = s.clu := rfl
@[simp] theorem updVlt_xfers (s : State) (f : Vault → Vault) : (updVlt f s).xfers = s.xfers := rfl
@[simp] theorem updVlt_fabric (s : State) (f : Vault → Vault) : (updVlt f s).fabric = s.fabric := rfl
@[simp] theorem updVlt_car (s : State) (f : Vault → Vault) : (updVlt f s).car = s.car := rfl
@[simp] theorem updVlt_hop (s : State) (f : Vault → Vault) : (updVlt f s).hop = s.hop := rfl
@[simp] theorem updVlt_ten (s : State) (f : Vault → Vault) : (updVlt f s).ten = s.ten := rfl
@[simp] theorem updVlt_tim (s : State) (f : Vault → Vault) : (updVlt f s).tim = s.tim := rfl
@[simp] theorem updVlt_dec (s : State) (f : Vault → Vault) : (updVlt f s).dec = s.dec := rfl
@[simp] theorem updVlt_net (s : State) (f : Vault → Vault) : (updVlt f s).net = s.net := rfl
@[simp] theorem updVlt_red (s : State) (f : Vault → Vault) : (updVlt f s).red = s.red := rfl
@[simp] theorem updVlt_gse (s : State) (f : Vault → Vault) : (updVlt f s).gse = s.gse := rfl
@[simp] theorem updVlt_met (s : State) (f : Vault → Vault) : (updVlt f s).met = s.met := rfl
@[simp] theorem updVlt_cap (s : State) (f : Vault → Vault) : (updVlt f s).cap = s.cap := rfl
@[simp] theorem updVlt_lgr (s : State) (f : Vault → Vault) : (updVlt f s).lgr = s.lgr := rfl
@[simp] theorem updVlt_pair (s : State) (f : Vault → Vault) : (updVlt f s).pair = s.pair := rfl
@[simp] theorem updVlt_str (s : State) (f : Vault → Vault) : (updVlt f s).str = s.str := rfl
@[simp] theorem updVlt_mod (s : State) (f : Vault → Vault) : (updVlt f s).mod = s.mod := rfl
@[simp] theorem updVlt_pma (s : State) (f : Vault → Vault) : (updVlt f s).pma = s.pma := rfl
@[simp] theorem updVlt_hits (s : State) (f : Vault → Vault) : (updVlt f s).hits = s.hits := rfl

/-! `updPub` -/

@[simp] theorem updPub_variant (s : State) (p : Nat) (f : GsePub → GsePub) : (updPub p f s).variant = s.variant := rfl
@[simp] theorem updPub_pending (s : State) (p : Nat) (f : GsePub → GsePub) : (updPub p f s).pending = s.pending := rfl
@[simp] theorem updPub_now (s : State) (p : Nat) (f : GsePub → GsePub) : (updPub p f s).now = s.now := rfl
@[simp] theorem updPub_free (s : State) (p : Nat) (f : GsePub → GsePub) : (updPub p f s).free = s.free := rfl
@[simp] theorem updPub_resp (s : State) (p : Nat) (f : GsePub → GsePub) : (updPub p f s).resp = s.resp := rfl
@[simp] theorem updPub_regs (s : State) (p : Nat) (f : GsePub → GsePub) : (updPub p f s).regs = s.regs := rfl
@[simp] theorem updPub_mem (s : State) (p : Nat) (f : GsePub → GsePub) : (updPub p f s).mem = s.mem := rfl
@[simp] theorem updPub_epoch (s : State) (p : Nat) (f : GsePub → GsePub) : (updPub p f s).epoch = s.epoch := rfl
@[simp] theorem updPub_eccUe (s : State) (p : Nat) (f : GsePub → GsePub) : (updPub p f s).eccUe = s.eccUe := rfl
@[simp] theorem updPub_eccCe (s : State) (p : Nat) (f : GsePub → GsePub) : (updPub p f s).eccCe = s.eccCe := rfl
@[simp] theorem updPub_mbx (s : State) (p : Nat) (f : GsePub → GsePub) : (updPub p f s).mbx = s.mbx := rfl
@[simp] theorem updPub_held (s : State) (p : Nat) (f : GsePub → GsePub) : (updPub p f s).held = s.held := rfl
@[simp] theorem updPub_ind (s : State) (p : Nat) (f : GsePub → GsePub) : (updPub p f s).ind = s.ind := rfl
@[simp] theorem updPub_irq (s : State) (p : Nat) (f : GsePub → GsePub) : (updPub p f s).irq = s.irq := rfl
@[simp] theorem updPub_handed (s : State) (p : Nat) (f : GsePub → GsePub) : (updPub p f s).handed = s.handed := rfl
@[simp] theorem updPub_tick (s : State) (p : Nat) (f : GsePub → GsePub) : (updPub p f s).tick = s.tick := rfl
@[simp] theorem updPub_eng (s : State) (p : Nat) (f : GsePub → GsePub) : (updPub p f s).eng = s.eng := rfl
@[simp] theorem updPub_clu (s : State) (p : Nat) (f : GsePub → GsePub) : (updPub p f s).clu = s.clu := rfl
@[simp] theorem updPub_xfers (s : State) (p : Nat) (f : GsePub → GsePub) : (updPub p f s).xfers = s.xfers := rfl
@[simp] theorem updPub_fabric (s : State) (p : Nat) (f : GsePub → GsePub) : (updPub p f s).fabric = s.fabric := rfl
@[simp] theorem updPub_car (s : State) (p : Nat) (f : GsePub → GsePub) : (updPub p f s).car = s.car := rfl
@[simp] theorem updPub_hop (s : State) (p : Nat) (f : GsePub → GsePub) : (updPub p f s).hop = s.hop := rfl
@[simp] theorem updPub_ten (s : State) (p : Nat) (f : GsePub → GsePub) : (updPub p f s).ten = s.ten := rfl
@[simp] theorem updPub_tim (s : State) (p : Nat) (f : GsePub → GsePub) : (updPub p f s).tim = s.tim := rfl
@[simp] theorem updPub_dec (s : State) (p : Nat) (f : GsePub → GsePub) : (updPub p f s).dec = s.dec := rfl
@[simp] theorem updPub_net (s : State) (p : Nat) (f : GsePub → GsePub) : (updPub p f s).net = s.net := rfl
@[simp] theorem updPub_red (s : State) (p : Nat) (f : GsePub → GsePub) : (updPub p f s).red = s.red := rfl
@[simp] theorem updPub_vlt (s : State) (p : Nat) (f : GsePub → GsePub) : (updPub p f s).vlt = s.vlt := rfl
@[simp] theorem updPub_met (s : State) (p : Nat) (f : GsePub → GsePub) : (updPub p f s).met = s.met := rfl
@[simp] theorem updPub_cap (s : State) (p : Nat) (f : GsePub → GsePub) : (updPub p f s).cap = s.cap := rfl
@[simp] theorem updPub_lgr (s : State) (p : Nat) (f : GsePub → GsePub) : (updPub p f s).lgr = s.lgr := rfl
@[simp] theorem updPub_pair (s : State) (p : Nat) (f : GsePub → GsePub) : (updPub p f s).pair = s.pair := rfl
@[simp] theorem updPub_str (s : State) (p : Nat) (f : GsePub → GsePub) : (updPub p f s).str = s.str := rfl
@[simp] theorem updPub_mod (s : State) (p : Nat) (f : GsePub → GsePub) : (updPub p f s).mod = s.mod := rfl
@[simp] theorem updPub_pma (s : State) (p : Nat) (f : GsePub → GsePub) : (updPub p f s).pma = s.pma := rfl
@[simp] theorem updPub_hits (s : State) (p : Nat) (f : GsePub → GsePub) : (updPub p f s).hits = s.hits := rfl

/-! `updGsub` -/

@[simp] theorem updGsub_variant (s : State) (k : Nat) (f : GseSub → GseSub) : (updGsub k f s).variant = s.variant := rfl
@[simp] theorem updGsub_pending (s : State) (k : Nat) (f : GseSub → GseSub) : (updGsub k f s).pending = s.pending := rfl
@[simp] theorem updGsub_now (s : State) (k : Nat) (f : GseSub → GseSub) : (updGsub k f s).now = s.now := rfl
@[simp] theorem updGsub_free (s : State) (k : Nat) (f : GseSub → GseSub) : (updGsub k f s).free = s.free := rfl
@[simp] theorem updGsub_resp (s : State) (k : Nat) (f : GseSub → GseSub) : (updGsub k f s).resp = s.resp := rfl
@[simp] theorem updGsub_regs (s : State) (k : Nat) (f : GseSub → GseSub) : (updGsub k f s).regs = s.regs := rfl
@[simp] theorem updGsub_mem (s : State) (k : Nat) (f : GseSub → GseSub) : (updGsub k f s).mem = s.mem := rfl
@[simp] theorem updGsub_epoch (s : State) (k : Nat) (f : GseSub → GseSub) : (updGsub k f s).epoch = s.epoch := rfl
@[simp] theorem updGsub_eccUe (s : State) (k : Nat) (f : GseSub → GseSub) : (updGsub k f s).eccUe = s.eccUe := rfl
@[simp] theorem updGsub_eccCe (s : State) (k : Nat) (f : GseSub → GseSub) : (updGsub k f s).eccCe = s.eccCe := rfl
@[simp] theorem updGsub_mbx (s : State) (k : Nat) (f : GseSub → GseSub) : (updGsub k f s).mbx = s.mbx := rfl
@[simp] theorem updGsub_held (s : State) (k : Nat) (f : GseSub → GseSub) : (updGsub k f s).held = s.held := rfl
@[simp] theorem updGsub_ind (s : State) (k : Nat) (f : GseSub → GseSub) : (updGsub k f s).ind = s.ind := rfl
@[simp] theorem updGsub_irq (s : State) (k : Nat) (f : GseSub → GseSub) : (updGsub k f s).irq = s.irq := rfl
@[simp] theorem updGsub_handed (s : State) (k : Nat) (f : GseSub → GseSub) : (updGsub k f s).handed = s.handed := rfl
@[simp] theorem updGsub_tick (s : State) (k : Nat) (f : GseSub → GseSub) : (updGsub k f s).tick = s.tick := rfl
@[simp] theorem updGsub_eng (s : State) (k : Nat) (f : GseSub → GseSub) : (updGsub k f s).eng = s.eng := rfl
@[simp] theorem updGsub_clu (s : State) (k : Nat) (f : GseSub → GseSub) : (updGsub k f s).clu = s.clu := rfl
@[simp] theorem updGsub_xfers (s : State) (k : Nat) (f : GseSub → GseSub) : (updGsub k f s).xfers = s.xfers := rfl
@[simp] theorem updGsub_fabric (s : State) (k : Nat) (f : GseSub → GseSub) : (updGsub k f s).fabric = s.fabric := rfl
@[simp] theorem updGsub_car (s : State) (k : Nat) (f : GseSub → GseSub) : (updGsub k f s).car = s.car := rfl
@[simp] theorem updGsub_hop (s : State) (k : Nat) (f : GseSub → GseSub) : (updGsub k f s).hop = s.hop := rfl
@[simp] theorem updGsub_ten (s : State) (k : Nat) (f : GseSub → GseSub) : (updGsub k f s).ten = s.ten := rfl
@[simp] theorem updGsub_tim (s : State) (k : Nat) (f : GseSub → GseSub) : (updGsub k f s).tim = s.tim := rfl
@[simp] theorem updGsub_dec (s : State) (k : Nat) (f : GseSub → GseSub) : (updGsub k f s).dec = s.dec := rfl
@[simp] theorem updGsub_net (s : State) (k : Nat) (f : GseSub → GseSub) : (updGsub k f s).net = s.net := rfl
@[simp] theorem updGsub_red (s : State) (k : Nat) (f : GseSub → GseSub) : (updGsub k f s).red = s.red := rfl
@[simp] theorem updGsub_vlt (s : State) (k : Nat) (f : GseSub → GseSub) : (updGsub k f s).vlt = s.vlt := rfl
@[simp] theorem updGsub_met (s : State) (k : Nat) (f : GseSub → GseSub) : (updGsub k f s).met = s.met := rfl
@[simp] theorem updGsub_cap (s : State) (k : Nat) (f : GseSub → GseSub) : (updGsub k f s).cap = s.cap := rfl
@[simp] theorem updGsub_lgr (s : State) (k : Nat) (f : GseSub → GseSub) : (updGsub k f s).lgr = s.lgr := rfl
@[simp] theorem updGsub_pair (s : State) (k : Nat) (f : GseSub → GseSub) : (updGsub k f s).pair = s.pair := rfl
@[simp] theorem updGsub_str (s : State) (k : Nat) (f : GseSub → GseSub) : (updGsub k f s).str = s.str := rfl
@[simp] theorem updGsub_mod (s : State) (k : Nat) (f : GseSub → GseSub) : (updGsub k f s).mod = s.mod := rfl
@[simp] theorem updGsub_pma (s : State) (k : Nat) (f : GseSub → GseSub) : (updGsub k f s).pma = s.pma := rfl
@[simp] theorem updGsub_hits (s : State) (k : Nat) (f : GseSub → GseSub) : (updGsub k f s).hits = s.hits := rfl

/-! `updPart` -/

@[simp] theorem updPart_variant (s : State) (t : Nat) (f : LogicPart → LogicPart) : (updPart t f s).variant = s.variant := rfl
@[simp] theorem updPart_pending (s : State) (t : Nat) (f : LogicPart → LogicPart) : (updPart t f s).pending = s.pending := rfl
@[simp] theorem updPart_now (s : State) (t : Nat) (f : LogicPart → LogicPart) : (updPart t f s).now = s.now := rfl
@[simp] theorem updPart_free (s : State) (t : Nat) (f : LogicPart → LogicPart) : (updPart t f s).free = s.free := rfl
@[simp] theorem updPart_resp (s : State) (t : Nat) (f : LogicPart → LogicPart) : (updPart t f s).resp = s.resp := rfl
@[simp] theorem updPart_regs (s : State) (t : Nat) (f : LogicPart → LogicPart) : (updPart t f s).regs = s.regs := rfl
@[simp] theorem updPart_mem (s : State) (t : Nat) (f : LogicPart → LogicPart) : (updPart t f s).mem = s.mem := rfl
@[simp] theorem updPart_epoch (s : State) (t : Nat) (f : LogicPart → LogicPart) : (updPart t f s).epoch = s.epoch := rfl
@[simp] theorem updPart_eccUe (s : State) (t : Nat) (f : LogicPart → LogicPart) : (updPart t f s).eccUe = s.eccUe := rfl
@[simp] theorem updPart_eccCe (s : State) (t : Nat) (f : LogicPart → LogicPart) : (updPart t f s).eccCe = s.eccCe := rfl
@[simp] theorem updPart_mbx (s : State) (t : Nat) (f : LogicPart → LogicPart) : (updPart t f s).mbx = s.mbx := rfl
@[simp] theorem updPart_held (s : State) (t : Nat) (f : LogicPart → LogicPart) : (updPart t f s).held = s.held := rfl
@[simp] theorem updPart_ind (s : State) (t : Nat) (f : LogicPart → LogicPart) : (updPart t f s).ind = s.ind := rfl
@[simp] theorem updPart_irq (s : State) (t : Nat) (f : LogicPart → LogicPart) : (updPart t f s).irq = s.irq := rfl
@[simp] theorem updPart_handed (s : State) (t : Nat) (f : LogicPart → LogicPart) : (updPart t f s).handed = s.handed := rfl
@[simp] theorem updPart_tick (s : State) (t : Nat) (f : LogicPart → LogicPart) : (updPart t f s).tick = s.tick := rfl
@[simp] theorem updPart_eng (s : State) (t : Nat) (f : LogicPart → LogicPart) : (updPart t f s).eng = s.eng := rfl
@[simp] theorem updPart_clu (s : State) (t : Nat) (f : LogicPart → LogicPart) : (updPart t f s).clu = s.clu := rfl
@[simp] theorem updPart_xfers (s : State) (t : Nat) (f : LogicPart → LogicPart) : (updPart t f s).xfers = s.xfers := rfl
@[simp] theorem updPart_fabric (s : State) (t : Nat) (f : LogicPart → LogicPart) : (updPart t f s).fabric = s.fabric := rfl
@[simp] theorem updPart_car (s : State) (t : Nat) (f : LogicPart → LogicPart) : (updPart t f s).car = s.car := rfl
@[simp] theorem updPart_hop (s : State) (t : Nat) (f : LogicPart → LogicPart) : (updPart t f s).hop = s.hop := rfl
@[simp] theorem updPart_ten (s : State) (t : Nat) (f : LogicPart → LogicPart) : (updPart t f s).ten = s.ten := rfl
@[simp] theorem updPart_tim (s : State) (t : Nat) (f : LogicPart → LogicPart) : (updPart t f s).tim = s.tim := rfl
@[simp] theorem updPart_dec (s : State) (t : Nat) (f : LogicPart → LogicPart) : (updPart t f s).dec = s.dec := rfl
@[simp] theorem updPart_net (s : State) (t : Nat) (f : LogicPart → LogicPart) : (updPart t f s).net = s.net := rfl
@[simp] theorem updPart_red (s : State) (t : Nat) (f : LogicPart → LogicPart) : (updPart t f s).red = s.red := rfl
@[simp] theorem updPart_vlt (s : State) (t : Nat) (f : LogicPart → LogicPart) : (updPart t f s).vlt = s.vlt := rfl
@[simp] theorem updPart_gse (s : State) (t : Nat) (f : LogicPart → LogicPart) : (updPart t f s).gse = s.gse := rfl
@[simp] theorem updPart_met (s : State) (t : Nat) (f : LogicPart → LogicPart) : (updPart t f s).met = s.met := rfl
@[simp] theorem updPart_cap (s : State) (t : Nat) (f : LogicPart → LogicPart) : (updPart t f s).cap = s.cap := rfl
@[simp] theorem updPart_pair (s : State) (t : Nat) (f : LogicPart → LogicPart) : (updPart t f s).pair = s.pair := rfl
@[simp] theorem updPart_str (s : State) (t : Nat) (f : LogicPart → LogicPart) : (updPart t f s).str = s.str := rfl
@[simp] theorem updPart_mod (s : State) (t : Nat) (f : LogicPart → LogicPart) : (updPart t f s).mod = s.mod := rfl
@[simp] theorem updPart_pma (s : State) (t : Nat) (f : LogicPart → LogicPart) : (updPart t f s).pma = s.pma := rfl
@[simp] theorem updPart_hits (s : State) (t : Nat) (f : LogicPart → LogicPart) : (updPart t f s).hits = s.hits := rfl

/-! `updMod` -/

@[simp] theorem updMod_variant (s : State) (f : Modes → Modes) : (updMod f s).variant = s.variant := rfl
@[simp] theorem updMod_pending (s : State) (f : Modes → Modes) : (updMod f s).pending = s.pending := rfl
@[simp] theorem updMod_now (s : State) (f : Modes → Modes) : (updMod f s).now = s.now := rfl
@[simp] theorem updMod_free (s : State) (f : Modes → Modes) : (updMod f s).free = s.free := rfl
@[simp] theorem updMod_resp (s : State) (f : Modes → Modes) : (updMod f s).resp = s.resp := rfl
@[simp] theorem updMod_regs (s : State) (f : Modes → Modes) : (updMod f s).regs = s.regs := rfl
@[simp] theorem updMod_mem (s : State) (f : Modes → Modes) : (updMod f s).mem = s.mem := rfl
@[simp] theorem updMod_epoch (s : State) (f : Modes → Modes) : (updMod f s).epoch = s.epoch := rfl
@[simp] theorem updMod_eccUe (s : State) (f : Modes → Modes) : (updMod f s).eccUe = s.eccUe := rfl
@[simp] theorem updMod_eccCe (s : State) (f : Modes → Modes) : (updMod f s).eccCe = s.eccCe := rfl
@[simp] theorem updMod_mbx (s : State) (f : Modes → Modes) : (updMod f s).mbx = s.mbx := rfl
@[simp] theorem updMod_held (s : State) (f : Modes → Modes) : (updMod f s).held = s.held := rfl
@[simp] theorem updMod_ind (s : State) (f : Modes → Modes) : (updMod f s).ind = s.ind := rfl
@[simp] theorem updMod_irq (s : State) (f : Modes → Modes) : (updMod f s).irq = s.irq := rfl
@[simp] theorem updMod_handed (s : State) (f : Modes → Modes) : (updMod f s).handed = s.handed := rfl
@[simp] theorem updMod_tick (s : State) (f : Modes → Modes) : (updMod f s).tick = s.tick := rfl
@[simp] theorem updMod_eng (s : State) (f : Modes → Modes) : (updMod f s).eng = s.eng := rfl
@[simp] theorem updMod_clu (s : State) (f : Modes → Modes) : (updMod f s).clu = s.clu := rfl
@[simp] theorem updMod_xfers (s : State) (f : Modes → Modes) : (updMod f s).xfers = s.xfers := rfl
@[simp] theorem updMod_fabric (s : State) (f : Modes → Modes) : (updMod f s).fabric = s.fabric := rfl
@[simp] theorem updMod_car (s : State) (f : Modes → Modes) : (updMod f s).car = s.car := rfl
@[simp] theorem updMod_hop (s : State) (f : Modes → Modes) : (updMod f s).hop = s.hop := rfl
@[simp] theorem updMod_ten (s : State) (f : Modes → Modes) : (updMod f s).ten = s.ten := rfl
@[simp] theorem updMod_tim (s : State) (f : Modes → Modes) : (updMod f s).tim = s.tim := rfl
@[simp] theorem updMod_dec (s : State) (f : Modes → Modes) : (updMod f s).dec = s.dec := rfl
@[simp] theorem updMod_net (s : State) (f : Modes → Modes) : (updMod f s).net = s.net := rfl
@[simp] theorem updMod_red (s : State) (f : Modes → Modes) : (updMod f s).red = s.red := rfl
@[simp] theorem updMod_vlt (s : State) (f : Modes → Modes) : (updMod f s).vlt = s.vlt := rfl
@[simp] theorem updMod_gse (s : State) (f : Modes → Modes) : (updMod f s).gse = s.gse := rfl
@[simp] theorem updMod_met (s : State) (f : Modes → Modes) : (updMod f s).met = s.met := rfl
@[simp] theorem updMod_cap (s : State) (f : Modes → Modes) : (updMod f s).cap = s.cap := rfl
@[simp] theorem updMod_lgr (s : State) (f : Modes → Modes) : (updMod f s).lgr = s.lgr := rfl
@[simp] theorem updMod_pair (s : State) (f : Modes → Modes) : (updMod f s).pair = s.pair := rfl
@[simp] theorem updMod_str (s : State) (f : Modes → Modes) : (updMod f s).str = s.str := rfl
@[simp] theorem updMod_pma (s : State) (f : Modes → Modes) : (updMod f s).pma = s.pma := rfl
@[simp] theorem updMod_hits (s : State) (f : Modes → Modes) : (updMod f s).hits = s.hits := rfl

/-! `updPtp` -/

@[simp] theorem updPtp_variant (s : State) (p : Nat) (f : PtpPort → PtpPort) : (updPtp p f s).variant = s.variant := rfl
@[simp] theorem updPtp_pending (s : State) (p : Nat) (f : PtpPort → PtpPort) : (updPtp p f s).pending = s.pending := rfl
@[simp] theorem updPtp_now (s : State) (p : Nat) (f : PtpPort → PtpPort) : (updPtp p f s).now = s.now := rfl
@[simp] theorem updPtp_free (s : State) (p : Nat) (f : PtpPort → PtpPort) : (updPtp p f s).free = s.free := rfl
@[simp] theorem updPtp_resp (s : State) (p : Nat) (f : PtpPort → PtpPort) : (updPtp p f s).resp = s.resp := rfl
@[simp] theorem updPtp_regs (s : State) (p : Nat) (f : PtpPort → PtpPort) : (updPtp p f s).regs = s.regs := rfl
@[simp] theorem updPtp_mem (s : State) (p : Nat) (f : PtpPort → PtpPort) : (updPtp p f s).mem = s.mem := rfl
@[simp] theorem updPtp_epoch (s : State) (p : Nat) (f : PtpPort → PtpPort) : (updPtp p f s).epoch = s.epoch := rfl
@[simp] theorem updPtp_eccUe (s : State) (p : Nat) (f : PtpPort → PtpPort) : (updPtp p f s).eccUe = s.eccUe := rfl
@[simp] theorem updPtp_eccCe (s : State) (p : Nat) (f : PtpPort → PtpPort) : (updPtp p f s).eccCe = s.eccCe := rfl
@[simp] theorem updPtp_mbx (s : State) (p : Nat) (f : PtpPort → PtpPort) : (updPtp p f s).mbx = s.mbx := rfl
@[simp] theorem updPtp_held (s : State) (p : Nat) (f : PtpPort → PtpPort) : (updPtp p f s).held = s.held := rfl
@[simp] theorem updPtp_ind (s : State) (p : Nat) (f : PtpPort → PtpPort) : (updPtp p f s).ind = s.ind := rfl
@[simp] theorem updPtp_irq (s : State) (p : Nat) (f : PtpPort → PtpPort) : (updPtp p f s).irq = s.irq := rfl
@[simp] theorem updPtp_handed (s : State) (p : Nat) (f : PtpPort → PtpPort) : (updPtp p f s).handed = s.handed := rfl
@[simp] theorem updPtp_tick (s : State) (p : Nat) (f : PtpPort → PtpPort) : (updPtp p f s).tick = s.tick := rfl
@[simp] theorem updPtp_eng (s : State) (p : Nat) (f : PtpPort → PtpPort) : (updPtp p f s).eng = s.eng := rfl
@[simp] theorem updPtp_clu (s : State) (p : Nat) (f : PtpPort → PtpPort) : (updPtp p f s).clu = s.clu := rfl
@[simp] theorem updPtp_xfers (s : State) (p : Nat) (f : PtpPort → PtpPort) : (updPtp p f s).xfers = s.xfers := rfl
@[simp] theorem updPtp_fabric (s : State) (p : Nat) (f : PtpPort → PtpPort) : (updPtp p f s).fabric = s.fabric := rfl
@[simp] theorem updPtp_car (s : State) (p : Nat) (f : PtpPort → PtpPort) : (updPtp p f s).car = s.car := rfl
@[simp] theorem updPtp_hop (s : State) (p : Nat) (f : PtpPort → PtpPort) : (updPtp p f s).hop = s.hop := rfl
@[simp] theorem updPtp_ten (s : State) (p : Nat) (f : PtpPort → PtpPort) : (updPtp p f s).ten = s.ten := rfl
@[simp] theorem updPtp_dec (s : State) (p : Nat) (f : PtpPort → PtpPort) : (updPtp p f s).dec = s.dec := rfl
@[simp] theorem updPtp_net (s : State) (p : Nat) (f : PtpPort → PtpPort) : (updPtp p f s).net = s.net := rfl
@[simp] theorem updPtp_red (s : State) (p : Nat) (f : PtpPort → PtpPort) : (updPtp p f s).red = s.red := rfl
@[simp] theorem updPtp_vlt (s : State) (p : Nat) (f : PtpPort → PtpPort) : (updPtp p f s).vlt = s.vlt := rfl
@[simp] theorem updPtp_gse (s : State) (p : Nat) (f : PtpPort → PtpPort) : (updPtp p f s).gse = s.gse := rfl
@[simp] theorem updPtp_met (s : State) (p : Nat) (f : PtpPort → PtpPort) : (updPtp p f s).met = s.met := rfl
@[simp] theorem updPtp_cap (s : State) (p : Nat) (f : PtpPort → PtpPort) : (updPtp p f s).cap = s.cap := rfl
@[simp] theorem updPtp_lgr (s : State) (p : Nat) (f : PtpPort → PtpPort) : (updPtp p f s).lgr = s.lgr := rfl
@[simp] theorem updPtp_pair (s : State) (p : Nat) (f : PtpPort → PtpPort) : (updPtp p f s).pair = s.pair := rfl
@[simp] theorem updPtp_str (s : State) (p : Nat) (f : PtpPort → PtpPort) : (updPtp p f s).str = s.str := rfl
@[simp] theorem updPtp_mod (s : State) (p : Nat) (f : PtpPort → PtpPort) : (updPtp p f s).mod = s.mod := rfl
@[simp] theorem updPtp_pma (s : State) (p : Nat) (f : PtpPort → PtpPort) : (updPtp p f s).pma = s.pma := rfl
@[simp] theorem updPtp_hits (s : State) (p : Nat) (f : PtpPort → PtpPort) : (updPtp p f s).hits = s.hits := rfl

/-! `updOut` -/

@[simp] theorem updOut_variant (s : State) (o : Nat) (f : PulseOut → PulseOut) : (updOut o f s).variant = s.variant := rfl
@[simp] theorem updOut_pending (s : State) (o : Nat) (f : PulseOut → PulseOut) : (updOut o f s).pending = s.pending := rfl
@[simp] theorem updOut_now (s : State) (o : Nat) (f : PulseOut → PulseOut) : (updOut o f s).now = s.now := rfl
@[simp] theorem updOut_free (s : State) (o : Nat) (f : PulseOut → PulseOut) : (updOut o f s).free = s.free := rfl
@[simp] theorem updOut_resp (s : State) (o : Nat) (f : PulseOut → PulseOut) : (updOut o f s).resp = s.resp := rfl
@[simp] theorem updOut_regs (s : State) (o : Nat) (f : PulseOut → PulseOut) : (updOut o f s).regs = s.regs := rfl
@[simp] theorem updOut_mem (s : State) (o : Nat) (f : PulseOut → PulseOut) : (updOut o f s).mem = s.mem := rfl
@[simp] theorem updOut_epoch (s : State) (o : Nat) (f : PulseOut → PulseOut) : (updOut o f s).epoch = s.epoch := rfl
@[simp] theorem updOut_eccUe (s : State) (o : Nat) (f : PulseOut → PulseOut) : (updOut o f s).eccUe = s.eccUe := rfl
@[simp] theorem updOut_eccCe (s : State) (o : Nat) (f : PulseOut → PulseOut) : (updOut o f s).eccCe = s.eccCe := rfl
@[simp] theorem updOut_mbx (s : State) (o : Nat) (f : PulseOut → PulseOut) : (updOut o f s).mbx = s.mbx := rfl
@[simp] theorem updOut_held (s : State) (o : Nat) (f : PulseOut → PulseOut) : (updOut o f s).held = s.held := rfl
@[simp] theorem updOut_ind (s : State) (o : Nat) (f : PulseOut → PulseOut) : (updOut o f s).ind = s.ind := rfl
@[simp] theorem updOut_irq (s : State) (o : Nat) (f : PulseOut → PulseOut) : (updOut o f s).irq = s.irq := rfl
@[simp] theorem updOut_handed (s : State) (o : Nat) (f : PulseOut → PulseOut) : (updOut o f s).handed = s.handed := rfl
@[simp] theorem updOut_tick (s : State) (o : Nat) (f : PulseOut → PulseOut) : (updOut o f s).tick = s.tick := rfl
@[simp] theorem updOut_eng (s : State) (o : Nat) (f : PulseOut → PulseOut) : (updOut o f s).eng = s.eng := rfl
@[simp] theorem updOut_clu (s : State) (o : Nat) (f : PulseOut → PulseOut) : (updOut o f s).clu = s.clu := rfl
@[simp] theorem updOut_xfers (s : State) (o : Nat) (f : PulseOut → PulseOut) : (updOut o f s).xfers = s.xfers := rfl
@[simp] theorem updOut_fabric (s : State) (o : Nat) (f : PulseOut → PulseOut) : (updOut o f s).fabric = s.fabric := rfl
@[simp] theorem updOut_car (s : State) (o : Nat) (f : PulseOut → PulseOut) : (updOut o f s).car = s.car := rfl
@[simp] theorem updOut_hop (s : State) (o : Nat) (f : PulseOut → PulseOut) : (updOut o f s).hop = s.hop := rfl
@[simp] theorem updOut_ten (s : State) (o : Nat) (f : PulseOut → PulseOut) : (updOut o f s).ten = s.ten := rfl
@[simp] theorem updOut_tim (s : State) (o : Nat) (f : PulseOut → PulseOut) : (updOut o f s).tim = s.tim := rfl
@[simp] theorem updOut_dec (s : State) (o : Nat) (f : PulseOut → PulseOut) : (updOut o f s).dec = s.dec := rfl
@[simp] theorem updOut_net (s : State) (o : Nat) (f : PulseOut → PulseOut) : (updOut o f s).net = s.net := rfl
@[simp] theorem updOut_red (s : State) (o : Nat) (f : PulseOut → PulseOut) : (updOut o f s).red = s.red := rfl
@[simp] theorem updOut_vlt (s : State) (o : Nat) (f : PulseOut → PulseOut) : (updOut o f s).vlt = s.vlt := rfl
@[simp] theorem updOut_gse (s : State) (o : Nat) (f : PulseOut → PulseOut) : (updOut o f s).gse = s.gse := rfl
@[simp] theorem updOut_cap (s : State) (o : Nat) (f : PulseOut → PulseOut) : (updOut o f s).cap = s.cap := rfl
@[simp] theorem updOut_lgr (s : State) (o : Nat) (f : PulseOut → PulseOut) : (updOut o f s).lgr = s.lgr := rfl
@[simp] theorem updOut_pair (s : State) (o : Nat) (f : PulseOut → PulseOut) : (updOut o f s).pair = s.pair := rfl
@[simp] theorem updOut_str (s : State) (o : Nat) (f : PulseOut → PulseOut) : (updOut o f s).str = s.str := rfl
@[simp] theorem updOut_mod (s : State) (o : Nat) (f : PulseOut → PulseOut) : (updOut o f s).mod = s.mod := rfl
@[simp] theorem updOut_pma (s : State) (o : Nat) (f : PulseOut → PulseOut) : (updOut o f s).pma = s.pma := rfl
@[simp] theorem updOut_hits (s : State) (o : Nat) (f : PulseOut → PulseOut) : (updOut o f s).hits = s.hits := rfl

/-! `updPoint` -/

@[simp] theorem updPoint_variant (s : State) (m : Nat) (f : QePoint → QePoint) : (updPoint m f s).variant = s.variant := rfl
@[simp] theorem updPoint_pending (s : State) (m : Nat) (f : QePoint → QePoint) : (updPoint m f s).pending = s.pending := rfl
@[simp] theorem updPoint_now (s : State) (m : Nat) (f : QePoint → QePoint) : (updPoint m f s).now = s.now := rfl
@[simp] theorem updPoint_free (s : State) (m : Nat) (f : QePoint → QePoint) : (updPoint m f s).free = s.free := rfl
@[simp] theorem updPoint_resp (s : State) (m : Nat) (f : QePoint → QePoint) : (updPoint m f s).resp = s.resp := rfl
@[simp] theorem updPoint_regs (s : State) (m : Nat) (f : QePoint → QePoint) : (updPoint m f s).regs = s.regs := rfl
@[simp] theorem updPoint_mem (s : State) (m : Nat) (f : QePoint → QePoint) : (updPoint m f s).mem = s.mem := rfl
@[simp] theorem updPoint_epoch (s : State) (m : Nat) (f : QePoint → QePoint) : (updPoint m f s).epoch = s.epoch := rfl
@[simp] theorem updPoint_eccUe (s : State) (m : Nat) (f : QePoint → QePoint) : (updPoint m f s).eccUe = s.eccUe := rfl
@[simp] theorem updPoint_eccCe (s : State) (m : Nat) (f : QePoint → QePoint) : (updPoint m f s).eccCe = s.eccCe := rfl
@[simp] theorem updPoint_mbx (s : State) (m : Nat) (f : QePoint → QePoint) : (updPoint m f s).mbx = s.mbx := rfl
@[simp] theorem updPoint_held (s : State) (m : Nat) (f : QePoint → QePoint) : (updPoint m f s).held = s.held := rfl
@[simp] theorem updPoint_ind (s : State) (m : Nat) (f : QePoint → QePoint) : (updPoint m f s).ind = s.ind := rfl
@[simp] theorem updPoint_irq (s : State) (m : Nat) (f : QePoint → QePoint) : (updPoint m f s).irq = s.irq := rfl
@[simp] theorem updPoint_handed (s : State) (m : Nat) (f : QePoint → QePoint) : (updPoint m f s).handed = s.handed := rfl
@[simp] theorem updPoint_tick (s : State) (m : Nat) (f : QePoint → QePoint) : (updPoint m f s).tick = s.tick := rfl
@[simp] theorem updPoint_eng (s : State) (m : Nat) (f : QePoint → QePoint) : (updPoint m f s).eng = s.eng := rfl
@[simp] theorem updPoint_clu (s : State) (m : Nat) (f : QePoint → QePoint) : (updPoint m f s).clu = s.clu := rfl
@[simp] theorem updPoint_xfers (s : State) (m : Nat) (f : QePoint → QePoint) : (updPoint m f s).xfers = s.xfers := rfl
@[simp] theorem updPoint_fabric (s : State) (m : Nat) (f : QePoint → QePoint) : (updPoint m f s).fabric = s.fabric := rfl
@[simp] theorem updPoint_car (s : State) (m : Nat) (f : QePoint → QePoint) : (updPoint m f s).car = s.car := rfl
@[simp] theorem updPoint_hop (s : State) (m : Nat) (f : QePoint → QePoint) : (updPoint m f s).hop = s.hop := rfl
@[simp] theorem updPoint_ten (s : State) (m : Nat) (f : QePoint → QePoint) : (updPoint m f s).ten = s.ten := rfl
@[simp] theorem updPoint_tim (s : State) (m : Nat) (f : QePoint → QePoint) : (updPoint m f s).tim = s.tim := rfl
@[simp] theorem updPoint_dec (s : State) (m : Nat) (f : QePoint → QePoint) : (updPoint m f s).dec = s.dec := rfl
@[simp] theorem updPoint_net (s : State) (m : Nat) (f : QePoint → QePoint) : (updPoint m f s).net = s.net := rfl
@[simp] theorem updPoint_red (s : State) (m : Nat) (f : QePoint → QePoint) : (updPoint m f s).red = s.red := rfl
@[simp] theorem updPoint_vlt (s : State) (m : Nat) (f : QePoint → QePoint) : (updPoint m f s).vlt = s.vlt := rfl
@[simp] theorem updPoint_gse (s : State) (m : Nat) (f : QePoint → QePoint) : (updPoint m f s).gse = s.gse := rfl
@[simp] theorem updPoint_cap (s : State) (m : Nat) (f : QePoint → QePoint) : (updPoint m f s).cap = s.cap := rfl
@[simp] theorem updPoint_lgr (s : State) (m : Nat) (f : QePoint → QePoint) : (updPoint m f s).lgr = s.lgr := rfl
@[simp] theorem updPoint_pair (s : State) (m : Nat) (f : QePoint → QePoint) : (updPoint m f s).pair = s.pair := rfl
@[simp] theorem updPoint_str (s : State) (m : Nat) (f : QePoint → QePoint) : (updPoint m f s).str = s.str := rfl
@[simp] theorem updPoint_mod (s : State) (m : Nat) (f : QePoint → QePoint) : (updPoint m f s).mod = s.mod := rfl
@[simp] theorem updPoint_pma (s : State) (m : Nat) (f : QePoint → QePoint) : (updPoint m f s).pma = s.pma := rfl
@[simp] theorem updPoint_hits (s : State) (m : Nat) (f : QePoint → QePoint) : (updPoint m f s).hits = s.hits := rfl

/-! `updRec` -/

@[simp] theorem updRec_variant (s : State) (k : Nat) (f : Recorder → Recorder) : (updRec k f s).variant = s.variant := rfl
@[simp] theorem updRec_pending (s : State) (k : Nat) (f : Recorder → Recorder) : (updRec k f s).pending = s.pending := rfl
@[simp] theorem updRec_now (s : State) (k : Nat) (f : Recorder → Recorder) : (updRec k f s).now = s.now := rfl
@[simp] theorem updRec_free (s : State) (k : Nat) (f : Recorder → Recorder) : (updRec k f s).free = s.free := rfl
@[simp] theorem updRec_resp (s : State) (k : Nat) (f : Recorder → Recorder) : (updRec k f s).resp = s.resp := rfl
@[simp] theorem updRec_regs (s : State) (k : Nat) (f : Recorder → Recorder) : (updRec k f s).regs = s.regs := rfl
@[simp] theorem updRec_mem (s : State) (k : Nat) (f : Recorder → Recorder) : (updRec k f s).mem = s.mem := rfl
@[simp] theorem updRec_epoch (s : State) (k : Nat) (f : Recorder → Recorder) : (updRec k f s).epoch = s.epoch := rfl
@[simp] theorem updRec_eccUe (s : State) (k : Nat) (f : Recorder → Recorder) : (updRec k f s).eccUe = s.eccUe := rfl
@[simp] theorem updRec_eccCe (s : State) (k : Nat) (f : Recorder → Recorder) : (updRec k f s).eccCe = s.eccCe := rfl
@[simp] theorem updRec_mbx (s : State) (k : Nat) (f : Recorder → Recorder) : (updRec k f s).mbx = s.mbx := rfl
@[simp] theorem updRec_held (s : State) (k : Nat) (f : Recorder → Recorder) : (updRec k f s).held = s.held := rfl
@[simp] theorem updRec_ind (s : State) (k : Nat) (f : Recorder → Recorder) : (updRec k f s).ind = s.ind := rfl
@[simp] theorem updRec_irq (s : State) (k : Nat) (f : Recorder → Recorder) : (updRec k f s).irq = s.irq := rfl
@[simp] theorem updRec_handed (s : State) (k : Nat) (f : Recorder → Recorder) : (updRec k f s).handed = s.handed := rfl
@[simp] theorem updRec_tick (s : State) (k : Nat) (f : Recorder → Recorder) : (updRec k f s).tick = s.tick := rfl
@[simp] theorem updRec_eng (s : State) (k : Nat) (f : Recorder → Recorder) : (updRec k f s).eng = s.eng := rfl
@[simp] theorem updRec_clu (s : State) (k : Nat) (f : Recorder → Recorder) : (updRec k f s).clu = s.clu := rfl
@[simp] theorem updRec_xfers (s : State) (k : Nat) (f : Recorder → Recorder) : (updRec k f s).xfers = s.xfers := rfl
@[simp] theorem updRec_fabric (s : State) (k : Nat) (f : Recorder → Recorder) : (updRec k f s).fabric = s.fabric := rfl
@[simp] theorem updRec_car (s : State) (k : Nat) (f : Recorder → Recorder) : (updRec k f s).car = s.car := rfl
@[simp] theorem updRec_hop (s : State) (k : Nat) (f : Recorder → Recorder) : (updRec k f s).hop = s.hop := rfl
@[simp] theorem updRec_ten (s : State) (k : Nat) (f : Recorder → Recorder) : (updRec k f s).ten = s.ten := rfl
@[simp] theorem updRec_tim (s : State) (k : Nat) (f : Recorder → Recorder) : (updRec k f s).tim = s.tim := rfl
@[simp] theorem updRec_dec (s : State) (k : Nat) (f : Recorder → Recorder) : (updRec k f s).dec = s.dec := rfl
@[simp] theorem updRec_net (s : State) (k : Nat) (f : Recorder → Recorder) : (updRec k f s).net = s.net := rfl
@[simp] theorem updRec_red (s : State) (k : Nat) (f : Recorder → Recorder) : (updRec k f s).red = s.red := rfl
@[simp] theorem updRec_vlt (s : State) (k : Nat) (f : Recorder → Recorder) : (updRec k f s).vlt = s.vlt := rfl
@[simp] theorem updRec_gse (s : State) (k : Nat) (f : Recorder → Recorder) : (updRec k f s).gse = s.gse := rfl
@[simp] theorem updRec_met (s : State) (k : Nat) (f : Recorder → Recorder) : (updRec k f s).met = s.met := rfl
@[simp] theorem updRec_lgr (s : State) (k : Nat) (f : Recorder → Recorder) : (updRec k f s).lgr = s.lgr := rfl
@[simp] theorem updRec_pair (s : State) (k : Nat) (f : Recorder → Recorder) : (updRec k f s).pair = s.pair := rfl
@[simp] theorem updRec_str (s : State) (k : Nat) (f : Recorder → Recorder) : (updRec k f s).str = s.str := rfl
@[simp] theorem updRec_mod (s : State) (k : Nat) (f : Recorder → Recorder) : (updRec k f s).mod = s.mod := rfl
@[simp] theorem updRec_pma (s : State) (k : Nat) (f : Recorder → Recorder) : (updRec k f s).pma = s.pma := rfl
@[simp] theorem updRec_hits (s : State) (k : Nat) (f : Recorder → Recorder) : (updRec k f s).hits = s.hits := rfl

/-! `updStr` -/

@[simp] theorem updStr_variant (s : State) (f : Strings → Strings) : (updStr f s).variant = s.variant := rfl
@[simp] theorem updStr_pending (s : State) (f : Strings → Strings) : (updStr f s).pending = s.pending := rfl
@[simp] theorem updStr_now (s : State) (f : Strings → Strings) : (updStr f s).now = s.now := rfl
@[simp] theorem updStr_free (s : State) (f : Strings → Strings) : (updStr f s).free = s.free := rfl
@[simp] theorem updStr_resp (s : State) (f : Strings → Strings) : (updStr f s).resp = s.resp := rfl
@[simp] theorem updStr_regs (s : State) (f : Strings → Strings) : (updStr f s).regs = s.regs := rfl
@[simp] theorem updStr_mem (s : State) (f : Strings → Strings) : (updStr f s).mem = s.mem := rfl
@[simp] theorem updStr_epoch (s : State) (f : Strings → Strings) : (updStr f s).epoch = s.epoch := rfl
@[simp] theorem updStr_eccUe (s : State) (f : Strings → Strings) : (updStr f s).eccUe = s.eccUe := rfl
@[simp] theorem updStr_eccCe (s : State) (f : Strings → Strings) : (updStr f s).eccCe = s.eccCe := rfl
@[simp] theorem updStr_mbx (s : State) (f : Strings → Strings) : (updStr f s).mbx = s.mbx := rfl
@[simp] theorem updStr_held (s : State) (f : Strings → Strings) : (updStr f s).held = s.held := rfl
@[simp] theorem updStr_ind (s : State) (f : Strings → Strings) : (updStr f s).ind = s.ind := rfl
@[simp] theorem updStr_irq (s : State) (f : Strings → Strings) : (updStr f s).irq = s.irq := rfl
@[simp] theorem updStr_handed (s : State) (f : Strings → Strings) : (updStr f s).handed = s.handed := rfl
@[simp] theorem updStr_tick (s : State) (f : Strings → Strings) : (updStr f s).tick = s.tick := rfl
@[simp] theorem updStr_eng (s : State) (f : Strings → Strings) : (updStr f s).eng = s.eng := rfl
@[simp] theorem updStr_clu (s : State) (f : Strings → Strings) : (updStr f s).clu = s.clu := rfl
@[simp] theorem updStr_xfers (s : State) (f : Strings → Strings) : (updStr f s).xfers = s.xfers := rfl
@[simp] theorem updStr_fabric (s : State) (f : Strings → Strings) : (updStr f s).fabric = s.fabric := rfl
@[simp] theorem updStr_car (s : State) (f : Strings → Strings) : (updStr f s).car = s.car := rfl
@[simp] theorem updStr_hop (s : State) (f : Strings → Strings) : (updStr f s).hop = s.hop := rfl
@[simp] theorem updStr_ten (s : State) (f : Strings → Strings) : (updStr f s).ten = s.ten := rfl
@[simp] theorem updStr_tim (s : State) (f : Strings → Strings) : (updStr f s).tim = s.tim := rfl
@[simp] theorem updStr_dec (s : State) (f : Strings → Strings) : (updStr f s).dec = s.dec := rfl
@[simp] theorem updStr_net (s : State) (f : Strings → Strings) : (updStr f s).net = s.net := rfl
@[simp] theorem updStr_red (s : State) (f : Strings → Strings) : (updStr f s).red = s.red := rfl
@[simp] theorem updStr_vlt (s : State) (f : Strings → Strings) : (updStr f s).vlt = s.vlt := rfl
@[simp] theorem updStr_gse (s : State) (f : Strings → Strings) : (updStr f s).gse = s.gse := rfl
@[simp] theorem updStr_met (s : State) (f : Strings → Strings) : (updStr f s).met = s.met := rfl
@[simp] theorem updStr_cap (s : State) (f : Strings → Strings) : (updStr f s).cap = s.cap := rfl
@[simp] theorem updStr_lgr (s : State) (f : Strings → Strings) : (updStr f s).lgr = s.lgr := rfl
@[simp] theorem updStr_pair (s : State) (f : Strings → Strings) : (updStr f s).pair = s.pair := rfl
@[simp] theorem updStr_mod (s : State) (f : Strings → Strings) : (updStr f s).mod = s.mod := rfl
@[simp] theorem updStr_pma (s : State) (f : Strings → Strings) : (updStr f s).pma = s.pma := rfl
@[simp] theorem updStr_hits (s : State) (f : Strings → Strings) : (updStr f s).hits = s.hits := rfl

end Sys2Proof.Machine
end

