-- ==== Sys2Proof/Laws/Tab.lean ====
section
/-!
SUPPORT. The laws of tables and of memory: a read after a write, what a write leaves alone, and the canonical form of memory.
-/
namespace Sys2Proof.Machine

/-! ### Tables -/

/-- An entry just set is read back. -/
@[simp] theorem tget_tset_same {α : Type} (d : α) (t : Tab α) (k : Nat) (x : α) : tget d (tset t k x) k = x := by
  induction t with
  | nil => simp [tset, tget]
  | cons p r ih =>
    obtain ⟨k', y⟩ := p
    simp only [tset]
    split
    · simp [tget]
    · split
      · simp [tget]
      · rename_i h _; simp [tget, h, ih]

/-- Setting an entry leaves every other one. -/
theorem tget_tset_ne {α : Type} (d : α) (t : Tab α) (k j : Nat) (x : α) (h : j ≠ k) : tget d (tset t k x) j = tget d t j := by
  induction t with
  | nil => simp [tset, tget, h]
  | cons p r ih =>
    obtain ⟨k', y⟩ := p
    simp only [tset]
    split
    · rename_i e; subst e; simp [tget, h]
    · split
      · simp [tget, h]
      · simp only [tget]; split <;> first | rfl | exact ih

/-- Setting an entry, read anywhere. -/
theorem tget_tset {α : Type} (d : α) (t : Tab α) (k j : Nat) (x : α) : tget d (tset t k x) j = if j = k then x else tget d t j := by
  split
  · rename_i h; subst h; exact tget_tset_same d t j x
  · exact tget_tset_ne d t k j x ‹_›

/-- A deleted entry reads as the default. -/
@[simp] theorem tget_tdel_same {α : Type} (d : α) (t : Tab α) (k : Nat) : tget d (tdel t k) k = d := by
  induction t with
  | nil => rfl
  | cons p r ih =>
    obtain ⟨k', y⟩ := p
    simp only [tdel]
    split
    · exact ih
    · rename_i h; simp [tget, h, ih]

/-- Deleting an entry leaves every other one. -/
theorem tget_tdel_ne {α : Type} (d : α) (t : Tab α) (k j : Nat) (h : j ≠ k) : tget d (tdel t k) j = tget d t j := by
  induction t with
  | nil => rfl
  | cons p r ih =>
    obtain ⟨k', y⟩ := p
    simp only [tdel]
    split
    · rename_i e; subst e; simp [tget, h, ih]
    · simp only [tget]; split <;> first | rfl | exact ih

/-! ### Memory: the canonical form -/

/-- A canonical list that begins above `lo` begins above every lower bound. -/
theorem Memory.wfFrom_mono {lo lo' : Nat} (h : lo' ≤ lo) : ∀ {m : List (Nat × Byte)}, Memory.wfFrom lo m = true → Memory.wfFrom lo' m = true
  | [], _ => rfl
  | (k, x) :: r, hw => by
    simp only [Memory.wfFrom, Bool.and_eq_true, decide_eq_true_eq] at hw ⊢
    exact ⟨⟨by omega, hw.1.2⟩, hw.2⟩

/-- A write keeps the canonical form. -/
theorem Memory.wfFrom_write (a : Nat) (v : Byte) : ∀ (lo : Nat) (m : List (Nat × Byte)), lo ≤ a → Memory.wfFrom lo m = true →
    Memory.wfFrom lo (Memory.write m a v) = true
  | lo, [], h, _ => by
    simp only [Memory.write]
    split
    · rfl
    · simp [Memory.wfFrom, h, *]
  | lo, (k, x) :: r, h, hw => by
    have hw' := hw
    simp only [Memory.wfFrom, Bool.and_eq_true, decide_eq_true_eq] at hw'
    obtain ⟨⟨hk, hx⟩, hr⟩ := hw'
    simp only [Memory.write]
    split
    · rename_i e; subst e
      split
      · exact Memory.wfFrom_mono (by omega) hr
      · simp [Memory.wfFrom, hk, hr, *]
    · split
      · split
        · exact hw
        · rename_i hlt hu
          have : Memory.wfFrom (a + 1) ((k, x) :: r) = true := by
            simp only [Memory.wfFrom, Bool.and_eq_true, decide_eq_true_eq]; exact ⟨⟨by omega, hx⟩, hr⟩
          simp only [Memory.wfFrom] at this ⊢
          simp only [Bool.and_eq_true, decide_eq_true_eq] at this ⊢
          exact ⟨⟨h, hu⟩, this⟩
      · rename_i hne hnl
        have := Memory.wfFrom_write a v (k + 1) r (by omega) hr
        simp only [Memory.wfFrom, Bool.and_eq_true, decide_eq_true_eq]
        exact ⟨⟨hk, hx⟩, this⟩

/-- A write keeps the canonical form. -/
theorem Memory.wf_write (m : List (Nat × Byte)) (a : Nat) (v : Byte) (h : Memory.wf m = true) : Memory.wf (Memory.write m a v) = true :=
  Memory.wfFrom_write a v 0 m (Nat.zero_le a) h

/-- Writing several bytes keeps the canonical form. -/
theorem Memory.wf_writeBytes : ∀ (bs : List Byte) (m : List (Nat × Byte)) (a : Nat), Memory.wf m = true → Memory.wf (Memory.writeBytes m a bs) = true
  | [], _, _, h => h
  | b :: bs, m, a, h => Memory.wf_writeBytes bs (Memory.write m a b) (a + 1) (Memory.wf_write m a b h)

/-- Leaving out cells keeps the canonical form. -/
theorem Memory.wfFrom_filter (p : Nat × Byte → Bool) : ∀ (lo : Nat) (m : List (Nat × Byte)), Memory.wfFrom lo m = true →
    Memory.wfFrom lo (m.filter p) = true
  | _, [], _ => rfl
  | lo, (k, x) :: r, h => by
    simp only [Memory.wfFrom, Bool.and_eq_true, decide_eq_true_eq] at h
    have ih := Memory.wfFrom_filter p (k + 1) r h.2
    simp only [List.filter]
    split
    · simp only [Memory.wfFrom, Bool.and_eq_true, decide_eq_true_eq]; exact ⟨h.1, ih⟩
    · exact Memory.wfFrom_mono (by omega) ih

/-- Leaving out cells keeps the canonical form. -/
theorem Memory.wf_filter (p : Nat × Byte → Bool) (m : List (Nat × Byte)) (h : Memory.wf m = true) : Memory.wf (m.filter p) = true :=
  Memory.wfFrom_filter p 0 m h

/-- Clearing a range keeps the canonical form. -/
theorem Memory.wf_clear (m : List (Nat × Byte)) (a n : Nat) (h : Memory.wf m = true) : Memory.wf (Memory.clear m a n) = true :=
  Memory.wf_filter _ m h

/-! ### Memory: reads and writes -/

/-- In a list that begins above `lo`, a lower address reads as unlisted. -/
theorem Memory.read_below : ∀ (lo : Nat) (m : List (Nat × Byte)) (a : Nat), a < lo → Memory.wfFrom lo m = true → Memory.read m a = unlisted a
  | _, [], _, _, _ => rfl
  | lo, (k, x) :: r, a, h, hw => by
    simp only [Memory.wfFrom, Bool.and_eq_true, decide_eq_true_eq] at hw
    simp only [Memory.read]
    rw [if_neg (by omega), if_pos (by omega)]

/-- A byte just written is read back. -/
theorem Memory.read_write_same (a : Nat) (v : Byte) : ∀ (lo : Nat) (m : List (Nat × Byte)), Memory.wfFrom lo m = true →
    Memory.read (Memory.write m a v) a = some v
  | _, [], _ => by
    simp only [Memory.write]
    split
    · rename_i h; simp [Memory.read, h]
    · simp [Memory.read]
  | lo, (k, x) :: r, hw => by
    simp only [Memory.wfFrom, Bool.and_eq_true, decide_eq_true_eq] at hw
    simp only [Memory.write]
    split
    · rename_i e; subst e
      split
      · rename_i hu; rw [Memory.read_below (a + 1) r a (by omega) hw.2, hu]
      · simp [Memory.read]
    · rename_i hne
      split
      · rename_i hlt
        split
        · rename_i hu; simp [Memory.read, hne, hlt, hu]
        · simp [Memory.read]
      · rename_i hnl
        simp only [Memory.read, hne, hnl, if_false]
        exact Memory.read_write_same a v (k + 1) r hw.2

/-- Writing a byte leaves every other byte. -/
theorem Memory.read_write_ne (a b : Nat) (v : Byte) (hb : b ≠ a) : ∀ (lo : Nat) (m : List (Nat × Byte)), Memory.wfFrom lo m = true →
    Memory.read (Memory.write m a v) b = Memory.read m b
  | _, [], _ => by
    simp only [Memory.write]
    split
    · rfl
    · simp [Memory.read, hb]
  | lo, (k, x) :: r, hw => by
    simp only [Memory.wfFrom, Bool.and_eq_true, decide_eq_true_eq] at hw
    simp only [Memory.write]
    split
    · rename_i e; subst e
      split
      · simp only [Memory.read, hb, if_false]
        split
        · rename_i hlt; exact Memory.read_below (a + 1) r b (by omega) hw.2
        · rfl
      · simp [Memory.read, hb]
    · split
      · split
        · rfl
        · rename_i hne hlt _
          simp only [Memory.read, hb, if_false]
          split
          · rename_i hba
            rw [if_neg (by omega), if_pos (by omega)]
          · rfl
      · simp only [Memory.read]
        rw [Memory.read_write_ne a b v hb (k + 1) r hw.2]

/-- Writing bytes leaves every byte outside them. -/
theorem Memory.read_writeBytes_outside (b : Nat) : ∀ (bs : List Byte) (m : List (Nat × Byte)) (a : Nat), Memory.wf m = true →
    (b < a ∨ a + bs.length ≤ b) → Memory.read (Memory.writeBytes m a bs) b = Memory.read m b
  | [], _, _, _, _ => rfl
  | x :: bs, m, a, h, ho => by
    simp only [Memory.writeBytes]
    simp only [List.length_cons] at ho
    rw [Memory.read_writeBytes_outside b bs _ (a + 1) (Memory.wf_write m a x h) (by omega)]
    exact Memory.read_write_ne a b x (by omega) 0 m h

/-- Bytes just written are read back. -/
theorem Memory.read_writeBytes_inside (i : Nat) : ∀ (bs : List Byte) (m : List (Nat × Byte)) (a : Nat), Memory.wf m = true → (hi : i < bs.length) →
    Memory.read (Memory.writeBytes m a bs) (a + i) = some bs[i]
  | [], _, _, _, hi => absurd hi (Nat.not_lt_zero i)
  | x :: bs, m, a, h, hi => by
    simp only [Memory.writeBytes]
    cases i with
    | zero =>
      rw [Memory.read_writeBytes_outside (a + 0) bs _ (a + 1) (Memory.wf_write m a x h) (by omega)]
      exact Memory.read_write_same a x 0 m h
    | succ j =>
      have := Memory.read_writeBytes_inside j bs (Memory.write m a x) (a + 1) (Memory.wf_write m a x h) (by simpa using hi)
      rw [show a + (j + 1) = a + 1 + j by omega, this]
      rfl

end Sys2Proof.Machine
end

