-- ==== Sys2Proof/Laws/Ops.lean ====
section
/-!
SUPPORT. What the shared operations over registers, pages and the units' tables do, once for each: reading after writing, what an access
can answer, and what the named updates leave in their tables.
-/
namespace Sys2Proof.Machine

/-! ### Registers -/

/-- Registers are told apart by page and offset. -/
theorem pageAddr_inj {pg pg' o o' : Nat} (h : o < 0x1000) (h' : o' < 0x1000) : pageAddr pg o = pageAddr pg' o' ↔ pg = pg' ∧ o = o' := by
  unfold pageAddr; omega

/-- A register depends on the part and on the register table alone. -/
theorem reg_congr {s t : State} (hv : t.variant = s.variant) (hr : t.regs = s.regs) (pg o : Nat) : reg t pg o = reg s pg o := by
  simp only [reg, hv, hr]

/-- A register just set is read back. -/
@[simp] theorem reg_setReg_same (s : State) (pg o : Nat) (w : Word) : reg (setReg s pg o w) pg o = w := by
  simp [reg, setReg]

/-- Setting a register leaves every other one. -/
theorem reg_setReg_ne (s : State) (pg o pg' o' : Nat) (w : Word) (h : pageAddr pg' o' ≠ pageAddr pg o) :
    reg (setReg s pg o w) pg' o' = reg s pg' o' := by
  simp [reg, setReg, tget_tset_ne _ _ _ _ _ h]

/-- Setting a register leaves every other page. -/
theorem reg_setReg_page (s : State) (pg o pg' o' : Nat) (w : Word) (ho : o < 0x1000) (ho' : o' < 0x1000) (h : pg' ≠ pg) :
    reg (setReg s pg o w) pg' o' = reg s pg' o' :=
  reg_setReg_ne s pg o pg' o' w (by simp [pageAddr_inj ho' ho, h])

/-- Setting a register leaves every other offset of its page. -/
theorem reg_setReg_off (s : State) (pg o o' : Nat) (w : Word) (h : o' ≠ o) : reg (setReg s pg o w) pg o' = reg s pg o' :=
  reg_setReg_ne s pg o pg o' w (by unfold pageAddr; omega)

/-- What the device notes of a fabric cycle does not enter a register. -/
@[simp] theorem reg_noteFlags (s : State) (pg' o' pg o : Nat) (m : Word) : reg (noteFlags pg' o' m s) pg o = reg s pg o := rfl

/-- What the device notes of a fabric cycle does not enter a register. -/
@[simp] theorem reg_noteCount (s : State) (pg' o' n pg o : Nat) : reg (noteCount pg' o' n s) pg o = reg s pg o := rfl

/-- Bits set are read back with the bits that stood. -/
@[simp] theorem reg_orReg_same (s : State) (pg o : Nat) (m : Word) : reg (orReg s pg o m) pg o = reg s pg o ||| m := by simp [orReg]

/-- Bits cleared are read back. -/
@[simp] theorem reg_clearReg_same (s : State) (pg o : Nat) (m : Word) : reg (clearReg s pg o m) pg o = reg s pg o &&& ~~~m := by simp [clearReg]

/-- A counter increased is read back. -/
@[simp] theorem reg_countReg_same (s : State) (pg o n : Nat) : reg (countReg s pg o n) pg o = reg s pg o + word n := by simp [countReg]

/-- Device time does not enter a register. -/
@[simp] theorem reg_advance (s : State) (tm pg o : Nat) : reg (advance s tm) pg o = reg s pg o := reg_congr rfl rfl pg o

/-- The interrupt router's bookkeeping does not enter a register. -/
@[simp] theorem reg_noteSource (s : State) (n pg o : Nat) : reg (noteSource n s) pg o = reg s pg o := by
  refine reg_congr (by simp) ?_ pg o
  unfold noteSource; repeat (first | rfl | split)

/-- The answer does not enter a register. -/
@[simp] theorem reg_deny (s : State) (pg o : Nat) : reg (deny s) pg o = reg s pg o := reg_congr rfl rfl pg o

/-- A mailbox does not enter a register. -/
@[simp] theorem reg_setMailbox (s : State) (pg' pg o : Nat) (m : Mailbox) : reg (setMailbox s pg' m) pg o = reg s pg o := reg_congr rfl rfl pg o

/-- Memory does not enter a register. -/
@[simp] theorem reg_writeMem (s : State) (a : Nat) (bs : List Byte) (pg o : Nat) : reg (writeMem s a bs) pg o = reg s pg o := reg_congr rfl rfl pg o

/-- A tenant's state does not enter a register. -/
@[simp] theorem reg_updTen (s : State) (t : Nat) (f : Tenant → Tenant) (pg o : Nat) : reg (updTen t f s) pg o = reg s pg o := reg_congr rfl rfl pg o

/-- A time base does not enter a register. -/
@[simp] theorem reg_updTb (s : State) (d : Nat) (f : TimeBase → TimeBase) (pg o : Nat) : reg (updTb d f s) pg o = reg s pg o := reg_congr rfl rfl pg o

/-- The Pair block's own state does not enter a register. -/
@[simp] theorem reg_updPair (s : State) (f : Pair → Pair) (pg o : Nat) : reg (updPair f s) pg o = reg s pg o := reg_congr rfl rfl pg o

/-- An engine's own state does not enter a register. -/
@[simp] theorem reg_updEng (s : State) (n : Nat) (f : Engine → Engine) (pg o : Nat) : reg (updEng n f s) pg o = reg s pg o := reg_congr rfl rfl pg o

/-- A port's own state does not enter a register. -/
@[simp] theorem reg_updPort (s : State) (p : Nat) (f : Port → Port) (pg o : Nat) : reg (updPort p f s) pg o = reg s pg o := reg_congr rfl rfl pg o

/-- An interrupt flag set by the device stands with those that stood. -/
@[simp] theorem reg_setIrq_same (s : State) (pg : Nat) (m : Word) : reg (setIrq pg m s) pg Off.IRQ_STAT = reg s pg Off.IRQ_STAT ||| m := by
  simp [setIrq]

/-- An interrupt flag leaves every other register. -/
theorem reg_setIrq_ne (s : State) (pg pg' o : Nat) (m : Word) (h : pageAddr pg' o ≠ pageAddr pg Off.IRQ_STAT) :
    reg (setIrq pg m s) pg' o = reg s pg' o := by
  simp only [setIrq, reg_noteSource, orReg]; rw [reg_setReg_ne _ _ _ _ _ _ h, reg_noteFlags]

/-! ### Accesses -/

/-- An access in order has its effect. -/
theorem access_ok {s : State} {tid pg off : Nat} (data : Word) (body : State → State) (h : judge s tid pg off = .ok) :
    access tid pg off data body s = body { s with resp := .done } := by
  unfold access; rw [h]

/-- Everything that an access can do: its effect, an access error that changes the answer alone, an access error with an error flag, or waiting
for the end of a soft reset. -/
theorem access_cases (s : State) (tid pg off : Nat) (data : Word) (body : State → State) :
    (judge s tid pg off = .ok ∧ access tid pg off data body s = body { s with resp := .done })
    ∨ (judge s tid pg off = .error none ∧ access tid pg off data body s = deny s)
    ∨ (∃ i, judge s tid pg off = .error (some i) ∧ access tid pg off data body s = refuse pg i off tid s)
    ∨ (judge s tid pg off = .hold
        ∧ access tid pg off data body s = { s with held := s.held ++ [⟨tid, pg, off, data, false⟩], resp := .none }) := by
  unfold access
  cases h : judge s tid pg off with
  | ok => exact .inl ⟨rfl, rfl⟩
  | hold => exact .inr (.inr (.inr ⟨rfl, rfl⟩))
  | error f =>
    cases f with
    | none => exact .inr (.inl ⟨rfl, rfl⟩)
    | some i => exact .inr (.inr (.inl ⟨i, rfl, rfl⟩))

/-- An access that is refused answers an access error. -/
@[simp] theorem resp_refuse (s : State) (pg i off tid : Nat) : (refuse pg i off tid s).resp = .error := rfl

/-- A property that the effect, an answer, an error flag and a held access all keep is kept by an access. -/
theorem access_keeps (p : State → Prop) (s : State) (tid pg off : Nat) (data : Word) (body : State → State)
    (hb : p { s with resp := .done } → p (body { s with resp := .done }))
    (hs : p s → p { s with resp := .done }) (he : p s → p (deny s)) (hf : ∀ i, p s → p (refuse pg i off tid s))
    (hh : ∀ h, p s → p { s with held := h, resp := .none }) (h : p s) : p (access tid pg off data body s) := by
  rcases access_cases s tid pg off data body with ⟨-, e⟩ | ⟨-, e⟩ | ⟨i, -, e⟩ | ⟨-, e⟩ <;> rw [e]
  · exact hb (hs h)
  · exact he h
  · exact hf i h
  · exact hh _ h

/-! ### The units' tables -/

@[simp] theorem tenOf_updTen_same (s : State) (t : Nat) (f : Tenant → Tenant) : tenOf (updTen t f s) t = f (tenOf s t) := by
  simp [tenOf, updTen]

theorem tenOf_updTen_ne (s : State) (t u : Nat) (f : Tenant → Tenant) (h : u ≠ t) : tenOf (updTen t f s) u = tenOf s u := by
  simp [tenOf, updTen, tget_tset_ne _ _ _ _ _ h]

@[simp] theorem tbOf_updTb_same (s : State) (d : Nat) (f : TimeBase → TimeBase) : tbOf (updTb d f s) d = f (tbOf s d) := by
  simp [tbOf, updTb]

theorem tbOf_updTb_ne (s : State) (d e : Nat) (f : TimeBase → TimeBase) (h : e ≠ d) : tbOf (updTb d f s) e = tbOf s e := by
  simp [tbOf, updTb, tget_tset_ne _ _ _ _ _ h]

@[simp] theorem engOf_updEng_same (s : State) (n : Nat) (f : Engine → Engine) : engOf (updEng n f s) n = f (engOf s n) := by
  simp [engOf, updEng]

theorem engOf_updEng_ne (s : State) (n m : Nat) (f : Engine → Engine) (h : m ≠ n) : engOf (updEng n f s) m = engOf s m := by
  simp [engOf, updEng, tget_tset_ne _ _ _ _ _ h]

@[simp] theorem portOf_updPort_same (s : State) (p : Nat) (f : Port → Port) : portOf (updPort p f s) p = f (portOf s p) := by
  simp [portOf, updPort]

@[simp] theorem mailbox_setMailbox_same (s : State) (pg : Nat) (m : Mailbox) : mailbox (setMailbox s pg m) pg = m := by
  simp [mailbox, setMailbox]

theorem mailbox_setMailbox_ne (s : State) (pg pg' : Nat) (m : Mailbox) (h : pg' ≠ pg) : mailbox (setMailbox s pg m) pg' = mailbox s pg' := by
  simp [mailbox, setMailbox, tget_tset_ne _ _ _ _ _ h]

/-! ### Memory of the device -/

/-- Writing bytes leaves every byte outside them. -/
theorem writeMem_outside (s : State) (a : Nat) (bs : List Byte) (x : Nat) (h : Memory.wf s.mem = true) (ho : x < a ∨ a + bs.length ≤ x) :
    Memory.read (writeMem s a bs).mem x = Memory.read s.mem x := Memory.read_writeBytes_outside x bs s.mem a h ho

/-- Writing bytes keeps the canonical form. -/
theorem writeMem_wf (s : State) (a : Nat) (bs : List Byte) (h : Memory.wf s.mem = true) : Memory.wf (writeMem s a bs).mem = true :=
  Memory.wf_writeBytes bs s.mem a h

/-! ### Time and free values -/

/-- Time never runs backwards. -/
theorem now_advance (s : State) (tm : Nat) : s.now ≤ (advance s tm).now ∧ tm ≤ (advance s tm).now := by
  simp only [advance]; omega

end Sys2Proof.Machine
end

