-- ==== Sys2Proof/Laws/Access.lean ====
section
/-!
SUPPORT. Where a register stands in the address map, what an access in order says of its page, and the write of a header register by
address.
-/
namespace Sys2Proof.Machine

/-- The page of a register's address. -/
theorem pageAddr_page (pg o : Nat) (h : o < 0x1000) : (pageAddr pg o - 0x10000000) / 0x1000 = pg := by unfold pageAddr; omega

/-- The offset of a register's address. -/
theorem pageAddr_offset (pg o : Nat) (h : o < 0x1000) : (pageAddr pg o - 0x10000000) % 0x1000 = o := by unfold pageAddr; omega

/-- A register lies in the register pages. -/
theorem pageAddr_above (pg o : Nat) : ¬pageAddr pg o < 0x10000000 := by unfold pageAddr; omega

/-- An access in order is one to an implemented register of a page that is present. -/
theorem judge_ok_present {s : State} {tid pg off : Nat} (h : judge s tid pg off = .ok) :
    ∃ k n, pageAt pg = some (k, n) ∧ pagePresent s.variant pg = true ∧ implemented k n off = true := by
  unfold judge at h
  split at h
  · cases h
  · rename_i k n e
    refine ⟨k, n, e, ?_⟩
    by_cases hp : pagePresent s.variant pg = true <;> by_cases hi : implemented k n off = true <;> simp_all

/-- A 32-bit write to a header register by its address. -/
theorem writeAt_header {s : State} {tid pg off : Nat} (w : Word) (h : judge s tid pg off = .ok) (ho : off < 0x60) :
    writeAt tid (pageAddr pg off) w s = headerWrite tid pg off w s := by
  obtain ⟨k, n, e, hp, -⟩ := judge_ok_present h
  unfold writeAt
  rw [if_neg (pageAddr_above pg off), pageAddr_page _ _ (by omega), pageAddr_offset _ _ (by omega)]
  unfold pageWrite
  rw [e]
  simp only [hp, Bool.not_true, Bool.false_eq_true, if_false, if_pos ho]

/-- A 32-bit write to a header register touches no page that the spec leaves undescribed. -/
theorem undescribed_header (s : State) (tid pg off : Nat) (ho : off < 0x60) : undescribed s tid 4 (pageAddr pg off) = false := by
  unfold undescribed
  rw [pageAddr_page _ _ (by omega), pageAddr_offset _ _ (by omega)]
  have : ¬0x60 ≤ off + 4 - 4 := by omega
  simp only [this, decide_false, Bool.and_false, Bool.false_and]

/-- REGISTER_WRITE of 32 bits to a header register. -/
theorem registerWrite_header {s : State} {tid pg off : Nat} (d : BitVec 64) (h : judge s tid pg off = .ok) (ho : off < 0x60) (h4 : off % 4 = 0) :
    execRegisterWrite tid 4 (pageAddr pg off) d s = .next (headerWrite tid pg off (d.truncate 32) s) := by
  have h1 : pageAddr pg off % 4 = 0 := by unfold pageAddr; omega
  unfold execRegisterWrite registerWrite
  rw [undescribed_header s tid pg off ho]
  simp only [Bool.false_eq_true, if_false, h1, decide_true, Bool.and_self, if_true, writeAt_header _ h ho]

/-- Setting one register leaves all others. -/
theorem onlyRegs_setReg (s : State) (pg o : Nat) (w : Word) (ho : o < 0x1000) :
    ∀ pg' off, off < 0x1000 → (pg', off) ≠ (pg, o) → reg (setReg s pg o w) pg' off = reg s pg' off := by
  intro pg' off h hn
  apply reg_setReg_ne
  rw [ne_eq, pageAddr_inj h ho]
  simpa using hn

/-- The memory of State.reset is in canonical form. -/
theorem reset_mem_wf : Memory.wf State.reset.mem = true := rfl

end Sys2Proof.Machine
end

