-- ==== Sys2Proof/Laws/Engine.lean ====
section
/-!
SUPPORT. What the issue of an engine operation does, once for all operations: the operation leaves its bundle, and its meaning acts on the
engine as it stood.
-/
namespace Sys2Proof.Machine

/-- An operation that reads no lane with a parity error passes the check. -/
theorem parityCheck_clean {n : Nat} {op : EngOp} {l : Latch} {tid : Nat} {s : State} (h : ∀ k ∈ readsOf op, k ∉ (engOf s n).parity) :
    parityCheck n op l tid s = s := by
  have : (readsOf op).find? (fun k => (engOf s n).parity.contains k) = none := by simp; intro x hx; exact h x hx
  unfold parityCheck; rw [this]

/-- The operation of a slot taken out of the bundle that an engine executes. -/
def takenOut (n slot : Nat) (l : Latch) (s : State) : State :=
  updEng n (fun e => { e with latch := some { l with ops := l.ops.filter (fun o => o.1 ≠ slot) } }) s

/-- An operation of the bundle in execution has its effect, on the state in which it has left the bundle. -/
theorem issueOp_inBundle {n slot : Nat} {op : EngOp} {l : Latch} {s : State} (body : Engine → Latch → PartEntry → State → State)
    (h : InBundle s n slot op l) :
    issueOp n slot op body s = body (engOf (takenOut n slot l s) n) l (partEntry s n l.part) (takenOut n slot l s) := by
  obtain ⟨h1, h2, h3⟩ := h
  have h2' : l.ops.contains (slot, op) = true := by simpa using h2
  unfold issueOp
  rw [h1]
  simp only [h2', if_true]
  rw [parityCheck_clean]
  · rfl
  · simpa using h3

/-- Taking an operation out leaves V, A and Q of the engine. -/
@[simp] theorem takenOut_regs (n slot : Nat) (l : Latch) (s : State) :
    (engOf (takenOut n slot l s) n).v = (engOf s n).v ∧ (engOf (takenOut n slot l s) n).a = (engOf s n).a
      ∧ (engOf (takenOut n slot l s) n).q = (engOf s n).q := by
  simp [takenOut]

/-- Taking an operation out leaves every register of a page. -/
@[simp] theorem reg_takenOut (n slot : Nat) (l : Latch) (s : State) (pg o : Nat) : reg (takenOut n slot l s) pg o = reg s pg o := by
  simp [takenOut]

/-- Taking an operation out leaves memory. -/
@[simp] theorem mem_takenOut (n slot : Nat) (l : Latch) (s : State) : (takenOut n slot l s).mem = s.mem := rfl

/-- Taking an operation out leaves the other engines. -/
theorem engOf_takenOut_ne (n slot m : Nat) (l : Latch) (s : State) (h : m ≠ n) : engOf (takenOut n slot l s) m = engOf s m :=
  engOf_updEng_ne s n m _ h

end Sys2Proof.Machine
end

