-- ==== Sys2Proof/Tests/Slice0.lean ====
section
/-!
SUPPORT. The model's own tests: an ill-formed command for each check of WellFormed, and for every statement that has hypotheses a concrete
state and operands that meet them. Expected values come from the spec, not from the model.
-/

namespace Sys2Proof.Tests
set_option maxRecDepth 20000
open Sys2Proof.Machine

/-- The state that an outcome holds. -/
def after (o : Host.Outcome State Fault Refusal) : State :=
  match o with
  | .next t => t
  | _ => State.reset

/-- Ill-formed commands: an operand just behind its range (part 1). -/
theorem test_wf_refuses_1 : ([.registerWrite 16 4 0 0, .registerWrite 0 4 0x1000000000000 0, .softReset 0 256, .srcCfgWrite 0 256 0, .claimRead 0 68, .mailboxRelease 0 0 256, .imageDigestSnapshot 0 3, .subscriptionCountersSnapshot 0 512, .publicationSnapshot 0 256, .subscriptionStateSnapshot 0 1024, .energySnapshot 0 6 0, .energySnapshot 0 0 128, .pulseSnapshot 0 8, .recordTableSnapshot 0 8 0, .recordTableSnapshot 0 0 16, .migrationTicksSnapshot 0 16] : List Instr).all (fun i => !i.wf) = true := by decide

/-- Ill-formed commands: an operand just behind its range (part 2). -/
theorem test_wf_refuses_2 : ([.nodeSnapshot 0 2 0, .nodeSnapshot 0 0 256, .ppsInSnapshot 0 2, .timeBaseSnapshot 0 5, .measurementSnapshot 0 24, .slotSnapshot 0 256, .partitionTableApply 16 0, .slotTableApply 4 0, .nop 0 6 0, .scrubRow 20 0 0, .svFrame 5 [] 0, .chainEnable 0 64 0, .laneWrite 0 4096 0, .ppsOutPulse 2 0, .compareFire 16 0, .engineDrainComplete 0 10 0] : List Instr).all (fun i => !i.wf) = true := by decide

/-- Ill-formed commands: an operand just behind its range (part 3). -/
theorem test_wf_refuses_3 : ([.shareWrite 0 0 4 0, .ddrWinWrite 0 0 4 0, .hello 5 [] 0, .tamperEvent 4 0, .serdesPllLoss 2 0, .registerWrite 0 2 0 0, .registerWrite 0 4 2 0] : List Instr).all (fun i => !i.wf) = true := by decide

theorem test_queue_front : step { State.reset with pending := [.flip 0, .sealPoint 0] } = exec (.flip 0) { State.reset with pending := [.sealPoint 0] } := rfl

/-- An empty queue. -/
theorem witness_idle : State.reset.pending = [] := by decide

theorem witness_reset_page : pagePresent .wln4840 pgMode = true := by decide

theorem witness_invariant : StateInv State.reset ∧ step State.reset = .next (idle State.reset) := ⟨by unfold StateInv; decide, rfl⟩

theorem witness_slot_mac : slotHolds 0 0 (.mac 0x13 7 63 63 63 63) = true := by decide
theorem witness_slot_alu : slotHolds 2 0 (.vr 0x1C 7 63 63 63 0) = true := by decide
theorem witness_slot_loop : slotHolds 5 8191 (.loop 7 4095 0) = false ∧ slotHolds 5 8190 (.loop 7 4095 0) = true := by decide

theorem test_ddr_register_stops : exec (.registerWrite 0 4 0x100E0060 0) State.reset = .fault (.deviceUndescribed 0x100E0060) := rfl

/-- A misaligned write, and the halves of an aligned one of 8 bytes at the head of the MODE page. -/
theorem witness_write_sizes : ((2 ≠ 4 ∧ 2 ≠ 8) ∨ 0x10001002 % 4 ≠ 0) ∧ 0x10001018 % 8 = 0
    ∧ Completes (exec (.registerWrite 0 4 0x10001018 0) State.reset) := ⟨by decide, by decide, _, rfl⟩
theorem test_write_8 : (registerWrite 0 8 0x10001018 0x0000000500000000 State.reset).regs = (writeAt 0 0x1000101C 5 (writeAt 0 0x10001018 0 State.reset)).regs := rfl

theorem witness_header_writes : judge State.reset 0 pgMode Off.IRQ_EN = .ok ∧ judge State.reset 0 pgPair0 Off.IRQ_STAT = .ok
    ∧ judge State.reset 0 pgVlt Off.ERR_STAT = .ok := by decide

theorem witness_absent : pagePresent .wln4820 0x1C = false := by decide
theorem witness_held : pageAt pgHop0 = some (.hop0, 0) ∧ pagePresent .wln4840 pgHop0 = true ∧ implemented .hop0 0 0x60 = true
    ∧ poweredDown State.reset .hop0 0 = false ∧ regBit (orReg State.reset pgHop0 Off.STAT 2) pgHop0 Off.STAT 1 = true := by decide
theorem witness_other_tid : pagePresent State.reset.variant pgMode = true ∧ (tenOf State.reset 1).state ≠ .resetting
    ∧ regFld State.reset pgMode Off.TID_OWNER 0 4 ≠ 1 := by decide
theorem witness_locked : (rowAt .hop2 Off.FRANGE).grp = some 0 ∧ implemented .hop2 2 Off.FRANGE = true
    ∧ regBit (setReg State.reset pgHop0 Off.LOCK 1) (lockPage pgHop2) Off.LOCK 0 = true ∧ pageAt pgHop2 = some (.hop2, 0) := by decide
theorem witness_ind_busy : regBit (orReg State.reset 0x90 Off.IND_CTRL 0x200) 0x90 Off.IND_CTRL 9 = true ∧ pageAt 0x90 = some (.ten, 0) := by decide

theorem witness_error_record : reg State.reset pgMode Off.ERR_STAT = 0
    ∧ reg (flagErr pgMode 2 Off.CTRL 3 true State.reset) pgMode Off.ERR_STAT ≠ 0
    ∧ judge (advance (flagErr pgMode 2 Off.CTRL 3 true State.reset) 2) 0 pgMode Off.ERR_STAT = .ok
    ∧ Completes (exec (.registerWrite 0 4 (pageAddr pgMode Off.ERR_STAT) 0xFFFFFFFF) (advance (flagErr pgMode 2 Off.CTRL 3 true State.reset) 2))
    ∧ reg (advance (flagErr pgMode 2 Off.CTRL 3 true State.reset) 2) pgMode Off.ERR_STAT &&& ~~~(0x7F ||| (headerOf pgMode).err) = 0
    ∧ hitFlags (advance (flagErr pgMode 2 Off.CTRL 3 true State.reset) 2) pgMode Off.ERR_STAT = 0 :=
  ⟨by decide, by decide, by decide, ⟨_, rfl⟩, by decide, by decide⟩
/-- A flag set in the fabric cycle of the write that clears it stays set, and an increment of that cycle is added to the word written (R25). -/
theorem test_collisions : reg (plainWrite pgMode Off.ERR_STAT 4 (orReg State.reset pgMode Off.ERR_STAT 4)) pgMode Off.ERR_STAT = 4
    ∧ reg (plainWrite pgMode Off.ERR_STAT 4 (advance (orReg State.reset pgMode Off.ERR_STAT 4) 2)) pgMode Off.ERR_STAT = 0
    ∧ reg (plainWrite 0x10 Off.TICKS 50 (countReg State.reset 0x10 Off.TICKS 1)) 0x10 Off.TICKS = 51 := by decide
theorem test_err_info : reg (flagErr pgMode 2 0x010 3 true State.reset) pgMode Off.ERR_INFO = 0x00130010 := by decide

theorem witness_header_commands : judge State.reset 0 pgMode Off.IRQ_FORCE = .ok ∧ judge State.reset 0 pgHop0 Off.LOCK = .ok
    ∧ judge State.reset 0 pgHop0 Off.CTRL = .ok ∧ regBit (orReg State.reset pgHop0 Off.STAT 2) pgHop0 Off.STAT 1 = true
    ∧ (∀ h ∈ State.reset.held, h.page ∉ blockPages pgHop0) ∧ pageAt pgHop0 = some (.hop0, 0) ∧ regBit State.reset pgHop0 Off.CTRL 0 ≠ bit 1 0
    ∧ judge State.reset 0 pgPair0 Off.TID_OWNER = .ok ∧ fld 0xF 0 4 < numTids State.reset.variant ∧ pageAt pgPair0 = some (.pair0, 0)
    ∧ judge State.reset 0 pgIrq0 (Off.SRC_CFG + 4 * 255) = .ok ∧ sourceExists State.reset 255 = true
    ∧ routeAllowed State.reset 255 0x071F = true := by decide
theorem witness_recorder_owner : judge (setReg State.reset (pgCap 0) Off.CTRL 1) 0 (pgCap 0) Off.TID_OWNER = .ok
    ∧ pageAt (pgCap 0) = some (.cap, 0) ∧ regBit (setReg State.reset (pgCap 0) Off.CTRL 1) (pgCap 0) Off.CTRL 0 = true := by decide
theorem witness_owner_reroutes : srcOfPage pgPair0 = 72 ∧ fld (srcCfg (setReg State.reset pgIrq0 (Off.SRC_CFG + 4 * 72) 0x701) 72) 0 4 = 1
    ∧ fld (srcCfg (after (exec (.tidOwnerWrite 0 pgPair0 2) (setReg State.reset pgIrq0 (Off.SRC_CFG + 4 * 72) 0x701))) 72) 8 3 = 0 := by decide

/-- The MODE page's source, number 1, enabled, forced and routed to TID 0 of hart 0 with PRIO 7. -/
def claimState : State := setReg (setReg (setReg State.reset pgIrq0 (Off.SRC_CFG + 4) 0x700) pgMode Off.IRQ_EN 1) pgMode Off.IRQ_STAT 1
theorem witness_claimable : claimable claimState 0 = 1 ∧ claimable State.reset 0 = 0 := by decide

theorem witness_claims : judge claimState 0 pgIrq1 (contextOff 67 + 4) = .ok ∧ judge claimState 15 pgIrq1 (contextOff 63 + 4) = .ok
    ∧ judge claimState 0 pgIrq1 (contextOff 0 + 4) = .ok ∧ claimable claimState 0 ≠ 0
    ∧ claimedBy (claimRead 0 claimState) 0 (fld 1 0 8) = true ∧ claimedBy (claimRead 0 claimState) 0 (fld 2 0 8) = false
    ∧ judge (claimRead 0 claimState) 0 pgIrq1 (contextOff 0 + 4) = .ok := by decide

theorem witness_mailbox : judge State.reset 0 pgIrq1 Off.MBX_SEL = .ok ∧ judge State.reset 0 pgTime0 Off.MBX_CTRL = .ok
    ∧ (mailbox (mailboxCapture pgTime0 9 (mbxSelWrite 0 pgTime0 2 State.reset)) pgTime0).valid = true
    ∧ (mailbox (mailboxCapture pgTime0 9 (mbxSelWrite 0 pgTime0 2 State.reset)) pgTime0).owner = 0
    ∧ selDefined pgTime0 9 0 = false ∧ fld 9 0 16 ≠ 0 ∧ (mailbox (mbxSelWrite 0 pgTime0 2 State.reset) pgTime0).waiting = some 2 := by decide

theorem witness_snapshots : ∀ pg ∈ [pgIrq1, pgStr3, pgHop3, pgGse0, pgGse1, pgQe1, pgPul, pgCap 7, pgLgr1, pgTen 15, pgPair1, pgRed, pgTime0, pgTime1,
    pgVlt], judge State.reset 0 pg Off.MBX_SEL = .ok := by decide
theorem test_stamp_selected : (mailbox (mbxSelWrite 0 pgIrq1 (selWord 1 67) State.reset) pgIrq1).waiting = some 0x00430001 := by decide

/-- A slow-domain access of String link port 4 in progress, at PMA address `a`. -/
def indState (a : Word) (x : IndAccess) : State := { setReg State.reset (pgPort 4) Off.IND_ADDR a with ind := [(pgPort 4, x)] }
theorem witness_indirect : judge State.reset 0 (pgPort 4) Off.IND_DATA = .ok ∧ judge State.reset 0 (pgPort 4) Off.IND_CTRL = .ok
    ∧ (indState 8 .read).ind.any (fun x => x.1 = pgPort 4) = true
    ∧ (indState 0 (.write 3)).ind.find? (fun x => x.1 = pgPort 4) = some (pgPort 4, .write 3)
    ∧ pmaRow (reg (indState 0 (.write 3)) (pgPort 4) Off.IND_ADDR).toNat = some (0x1FFF, 8)
    ∧ pmaRow (reg (indState 8 .read) (pgPort 4) Off.IND_ADDR).toNat = some (0x33, 0)
    ∧ (reg (indState 8 .read) (pgPort 4) Off.IND_ADDR).toNat < 0x0C
    ∧ pmaRow (reg (indState 0x18 .read) (pgPort 4) Off.IND_ADDR).toNat = none := by decide

/-- Engine 15 with bundle 8 latched at instant 100, holding one operation, all of Q1 set. -/
def bundleState (slot : Nat) (op : EngOp) : State :=
  updEng 15 (fun e => { e with latch := some ⟨100, 8, 0, [(slot, op)]⟩, q := [(1, 0xF)], v := [(1, 0x40000000_40000000_40000000_40000000)] }) State.reset
theorem witness_mac : ∀ op ∈ [1, 2, 3, 4, 5, 6, 7, 8, 9, 0x10, 0x11, 0x12, 0x13],
    (engOf (bundleState 1 (.mac op 1 63 1 1 1)) 15).latch = some ⟨100, 8, 0, [(1, .mac op 1 63 1 1 1)]⟩
    ∧ (∀ k ∈ readsOf (.mac op 1 63 1 1 1), k ∉ (engOf (bundleState 1 (.mac op 1 63 1 1 1)) 15).parity) := by decide
/-- 2.0 + 2.0 = 4.0 in every lane, due six cycles after issue. -/
theorem test_fadd : ((engOf (after (exec (.fadd 15 1 1 63 1 1 1) (bundleState 1 (.mac 1 1 63 1 1 1)))) 15).writes.map (fun w => (w.due, w.value)))
    = [(106, 0x40800000_40800000_40800000_40800000)] := by decide

theorem witness_scalar : (∀ op ∈ [2, 3, 4, 5, 6, 7, 8, 9], (engOf (bundleState 2 (.aluImm op 1 31 31 0x1FFF)) 15).latch = some ⟨100, 8, 0, [(2, .aluImm op 1 31 31 0x1FFF)]⟩)
    ∧ (engOf (bundleState 2 (.aop 1 31 30 29 0x0E)) 15).latch = some ⟨100, 8, 0, [(2, .aop 1 31 30 29 0x0E)]⟩ ∧ aopFn 0x0E 5 6 = some 5
    ∧ (engOf (bundleState 2 (.li 1 31 3 0xFFFF)) 15).latch = some ⟨100, 8, 0, [(2, .li 1 31 3 0xFFFF)]⟩ := by decide
/-- 0 + sign-extended 0x1FFF is −1. -/
theorem test_addi : ((engOf (after (exec (.addi 15 1 31 31 0x1FFF) (bundleState 2 (.aluImm 2 1 31 31 0x1FFF)))) 15).writes.map (fun w => (w.due, w.value)))
    = [(101, 0xFFFFFFFF)] := by decide

theorem witness_vector : (∀ op ∈ [0x10, 0x11, 0x12, 0x13, 0x14, 0x15, 0x18, 0x19, 0x1A, 0x1B, 0x1C],
    (engOf (bundleState 2 (.vr op 1 63 1 1 1)) 15).latch = some ⟨100, 8, 0, [(2, .vr op 1 63 1 1 1)]⟩) ∧ (vopFn 0x1A 0 0).isSome = true := by decide
/-- VSEL with Q0 (all ones) takes every lane from FA. -/
theorem test_vsel : ((engOf (after (exec (.vsel 15 1 63 1 2 0) (bundleState 2 (.vr 0x12 1 63 1 2 0)))) 15).writes.map (fun w => (w.due, w.value)))
    = [(101, 0x40000000_40000000_40000000_40000000)] := by decide

/-- The bundle of `bundleState` in a partition with the whole DMEM for region 0. -/
def loadState (op : EngOp) : State :=
  updEng 15 (fun e => { e with table := [(0, ⟨64, 9000, 0, 0, true, 0, 8192, 0, 384, 0, 0, 0, 512, 0, 4096⟩)], a := [(1, 0x5FFF8)] }) (bundleState 3 op)
theorem witness_load_store : ∀ op ∈ [1, 2, 3, 4, 5, 6, 7], (engOf (loadState (.ls op 1 1 1 0)) 15).latch = some ⟨100, 8, 0, [(3, .ls op 1 1 1 0)]⟩
    ∧ DmemClear (loadState (.ls op 1 1 1 0)) 15 (lsuAddr (regA (engOf (loadState (.ls op 1 1 1 0)) 15) 1) 0 16) 16 true ⟨100, 8, 0, [(3, .ls op 1 1 1 0)]⟩
    ∧ DmemClear (loadState (.ls op 1 1 1 0)) 15 (lsuAddr (regA (engOf (loadState (.ls op 1 1 1 0)) 15) 1) 1 4) 4 true ⟨100, 8, 0, [(3, .ls op 1 1 1 0)]⟩ := by
  unfold DmemClear; decide
/-- Byte address 0x5FFF8 with a vector access is 0x5FFF0, the last vector of the DMEM. -/
theorem test_stv_address : ((engOf (after (exec (.stv 15 1 1 1 0) (loadState (.ls 5 1 1 1 0)))) 15).stores.map (fun w => (w.visible, w.cells.map (·.1))))
    = [(102, [0x20F9FFF0, 0x20F9FFF4, 0x20F9FFF8, 0x20F9FFFC])] := by decide

/-- The bundle of `loadState` at ME cycle 4,000 of a tick that began at instant 0, its cluster disabled (every entry free for the fabric) or
enabled with all entries of bank 0 for the engine. -/
def xferState (op : EngOp) : State :=
  let s := loadState op
  let s1 := updEng 15 (fun e => { e with latch := some ⟨4000, 8, 0, [(4, op)]⟩, a := [] }) s
  { setReg (setReg (setReg s1 (pgClu 3) Off.CTRL 1) (pgClu 3) Off.SLOT_ACT_LO 0x33333333) (pgClu 3) Off.SLOT_ACT_HI 0x33333333 with
    tick := { s1.tick with edgeAt := some 0 }, now := 4000 }
theorem witness_transfers : ∀ op ∈ [1, 2, 3, 4, 5], (engOf (xferState (.xfer op 1 1 1 0 0)) 15).latch = some ⟨4000, 8, 0, [(4, .xfer op 1 1 1 0 0)]⟩
    ∧ inDmem (partEntry (xferState (.xfer op 1 1 1 0 0)) 15 0) 0 64 = true ∧ inRegion 0 (512 * 4096) 0 64 = true
    ∧ inRegion 0 (24 * 8192) 0 64 = true ∧ inRegion 0 4096 0 1 = true ∧ 3000 ≤ cycleOf (xferState (.xfer op 1 1 1 0 0)) 4000
    ∧ takeSlot (xferState (.xfer op 1 1 1 0 0)) 15 0 4000 = some 0 ∧ (engOf (xferState (.xfer op 1 1 1 0 0)) 15).uses = []
    ∧ (engOf (xferState (.xfer op 1 1 1 0 0)) 15).hopPrev = none := by decide
theorem test_clrd : (after (exec (.clrd 15 1 1 1 0 0) (xferState (.xfer 1 1 1 1 0 0)))).xfers.map (fun x => (x.landDue, x.bankDue, x.lost))
    = [(4047, some 4008, false)] := by decide

theorem witness_violations : predMask (engOf (bundleState 3 (.ls 5 1 1 1 0)) 15) 1 ≠ 0
    ∧ inDmem (partEntry (bundleState 3 (.ls 5 1 1 1 0)) 15 0) (lsuAddr (regA (engOf (bundleState 3 (.ls 5 1 1 1 0)) 15) 1) 0 16) 16 = false
    ∧ (6 ∉ (engOf (bundleState 3 (.ls 5 1 1 1 0)) 15).violators)
    ∧ (engOf (bundleState 2 (.illegal 2 0x1F800000)) 15).latch = some ⟨100, 8, 0, [(2, .illegal 2 0x1F800000)]⟩ := by decide

theorem witness_control : (∀ op ∈ [EngOp.br 1 8191, .bra 1 31, .wait 1 0xFFFFF, .waita 1 31, .loop 1 4095 2047, .pend 1, .nop 1],
    (engOf (bundleState 5 op) 15).latch = some ⟨100, 8, 0, [(5, op)]⟩ ∧ predOn (engOf (bundleState 5 op) 15) 1 = true
    ∧ (engOf (bundleState 5 op) 15).loops = []) := by decide
theorem test_br : (engOf (after (exec (.br 15 1 8191) (bundleState 5 (.br 1 8191)))) 15).redirects = [(103, 8191)] := by decide

theorem witness_shift_amounts : (33 : Word).toNat % 32 = (1 : Word).toNat % 32 ∧ (0x1FFF : BitVec 13).toNat % 32 = (31 : BitVec 13).toNat % 32 := by decide
theorem test_saturation : sat32 (0x7FFFFFFF + 1) = 0x7FFFFFFF ∧ sat32 (-0x80000000 - 1) = 0x80000000 := by decide

theorem witness_nan : f32 0xFF800001 = .nan ∧ f32 (lane 0x7FC00000_00000000_00000000_00000000 3) = .nan := by decide
theorem test_subnormal_sum : fAdd 0x00000001 0x00000001 = 0x00000002 := by decide

/-- Engine 15 runs its string in partition 0, after bundle 8, in a tick that began at instant 0. -/
def runState : State :=
  let s := loadState (.nop 0)
  let s1 := updEng 15 (fun e => { e with latch := some ⟨4000, 8, 0, []⟩, running := true, part := some 0, lastPc := some 8, redirects := [(4003, 20)], waitUntil := 4003 }) s
  { s1 with tick := { s1.tick with edgeAt := some 0, runners := [0] }, now := 4000 }
theorem witness_fetch : mayIssue (settle 15 4003 (advance runState 4003)) 15 4003 = true
    ∧ (engOf (settle 15 4003 (advance runState 4003)) 15).part = some 0 ∧ (engOf (settle 15 4003 (advance runState 4003)) 15).lastPc = some 8
    ∧ (engOf (settle 15 4003 (advance runState 4003)) 15).redirects = [(4003, 20)] ∧ (engOf runState 15).redirects = [(4003, 20)]
    ∧ (engOf runState 15).waitUntil = 4003 ∧ (partEntry runState 15 0).imemBase ≤ 20 ∧ 20 < (partEntry runState 15 0).imemLimit
    ∧ hasUe (settle 15 4003 (advance runState 4003)) (imemPhys 15 (24 * 20)) 24 = false := by decide

theorem witness_loops : nextPc { Engine.init with loops := [⟨9, 12, 3⟩] } 12 100 = (9, [⟨9, 12, 2⟩], []) := by decide

/-- Two writes of V63 due at instant 106, the first also alone at 105. -/
def writeState (ws : List PendWrite) : State := updEng 15 (fun e => { e with writes := ws }) State.reset
theorem witness_writeback : (engOf (writeState [⟨106, .v 63, 0xF, 1, 100, 0⟩, ⟨106, .v 63, 1, 2, 105, 2⟩]) 15).writes.filter (fun w => w.due ≤ 106)
      = [⟨106, .v 63, 0xF, 1, 100, 0⟩, ⟨106, .v 63, 1, 2, 105, 2⟩]
    ∧ (engOf (writeState [⟨105, .q 0, 0xF, 0, 104, 2⟩]) 15).writes.filter (fun w => w.due ≤ 105) = [⟨105, .q 0, 0xF, 0, 104, 2⟩]
    ∧ (0xF : BitVec 4) &&& 1 ≠ 0 := by decide
theorem test_write_order : regV (engOf (after (exec (.registerWriteback 15 106) (writeState [⟨106, .v 63, 0xF, 1, 100, 0⟩, ⟨106, .v 63, 1, 2, 105, 2⟩]))) 15) 63 = 2 := by decide

/-- Engine 15 idle, one valid written entry 15 with the given window. -/
def tableState (start stop : Word) : State :=
  updEng 15 (fun e => { e with tablePend := true }) (setReg (setReg (setReg (setReg State.reset (pgMe 15) (Off.PT_CTRL + 0x1E0) 0x80000000)
    (pgMe 15) (Off.PT_START + 0x1E0) start) (pgMe 15) (Off.PT_END + 0x1E0) stop) (pgMe 15) (Off.PT_IMEM + 0x1E0) 0x20000000)
theorem witness_table : firstBad (tableState 64 237999) (writtenTable (tableState 64 237999) 15) [] = none
    ∧ firstBad (tableState 63 237999) (writtenTable (tableState 63 237999) 15) [] = some 15
    ∧ firstBad (tableState 64 238000) (writtenTable (tableState 64 238000) 15) [] = some 15 ∧ stringIdle (tableState 64 237999) 15 = true := by decide
/-- The window of partition 0 starts in ME cycle 64 and ends in 9,000. -/
def windowState : State := updEng 15 (fun e => { e with part := none, lastPc := none, latch := none }) runState
theorem witness_windows : windowAt (engOf (settle 15 63 (advance { windowState with now := 63 } 64)) 15) (cycleOf (settle 15 63 (advance { windowState with now := 63 } 64)) 64) = some 0
    ∧ (engOf (settle 15 63 (advance { windowState with now := 63 } 64)) 15).running = true
    ∧ (engOf (settle 15 63 (advance { windowState with now := 63 } 64)) 15).part = none
    ∧ (engOf runState 15).part = some 0 ∧ min (partEntry runState 15 0).stop (windowEnd runState) ≤ cycleOf runState 9000
    ∧ (engOf runState 15).pendAt = none ∧ (engOf runState 15).muted = false := by decide

/-- A transfer of engine 15 of the given kind, due at instant 50. -/
def oneXfer (k : XferKind) (bank : Option Nat) : Xfer := ⟨k, 15, 0, 0, 0, 0, true, true, true, 0, 0x1FFFC0, false, none, bank, 50, List.replicate 64 7⟩
theorem witness_transfers_complete : StateInv { State.reset with xfers := [oneXfer .clwr (some 50)] }
    ∧ (oneXfer .clwr (some 50)).engine / 4 = 3 ∧ (oneXfer .clwr (some 50)).data.length = 64
    ∧ hasUe { State.reset with xfers := [oneXfer .clrd (some 50)] } (clmPhys 3 0x1FFFC0) 64 = false
    ∧ clusterQuiet (advance { State.reset with clu := [(3, ⟨[], true⟩)] } 9) 3 9 = true
    ∧ regBit (setReg State.reset (pgMe 15) Off.CTRL 8) (pgMe 15) Off.CTRL 3 = true ∧ engineQuiet (advance State.reset 9) 15 9 = true
    ∧ regBit (setReg State.reset (pgClu 3) Off.CTRL 4) (pgClu 3) Off.CTRL 2 = true := by unfold StateInv; decide
theorem test_clwr_last_row : Memory.read (after (exec (.clusterBankAccess 3 50) { State.reset with xfers := [oneXfer .clwr (some 50)] })).mem 0x307FFFFF = some 7 := by decide

/-- Cluster 0 powered, and an admitted write of 4 bytes at the end of the memory of engine 0. -/
def fabricState (w : Option (List Byte)) : State :=
  { setReg State.reset pgClk Off.PD_STAT 1 with fabric := [⟨0, 0x2009FFFC, 4, w, 0, true⟩] }
theorem witness_fabric : fabricPlace (fabricState none) 0x2009FFFC 4 = some (.dmem 0 3 3) ∧ fabricPlace (fabricState none) 0x200A0000 4 = none
    ∧ (tenOf (fabricState none) 0).state ≠ .resetting ∧ jobRegion (fabricState none) 0x2009FFFC 4 = false
    ∧ fabricFree (advance (fabricState none) 8) (.dmem 0 3 3) 8 = true
    ∧ StateInv (settlePlace (.dmem 0 3 3) 8 (admitFabric { advance (fabricState none) 8 with fabric := (fabricState none).fabric.eraseIdx 0 })) := by
  unfold StateInv; decide
theorem test_fabric_write : (after (exec (.fabricAccessServed 0 8) (fabricState (some [1, 2, 3, 4])))).mem
    = [(0x2009FFFC, 1), (0x2009FFFD, 2), (0x2009FFFE, 3), (0x2009FFFF, 4)] := by decide

/-- An entry of one channel staged for subscription 511 at slot 511 and block 4095, at 4,800 Hz. -/
def subStage : State :=
  [(Off.HSUB_SEL, 511), (Off.SUB_LAYOUT, 0x000105FF), (Off.SUB_FRAME, 4095), (Off.SUB_POLICY, 1), (Off.SUB_SVID_LEN, 1)].foldl
    (fun s p => setReg s pgHop1 p.1 (word p.2)) State.reset
theorem witness_hopper_config : judge subStage 0 pgHop1 Off.HSUB_CMD = .ok ∧ regFld subStage pgHop1 Off.HSUB_SEL 0 9 = 511
    ∧ (tenOf subStage (subTid (subOf subStage 511))).job = none ∧ subResult subStage 511 (stagedSub subStage) = 0
    ∧ subResult (setReg subStage pgHop1 Off.SUB_FRAME 127) 511 (stagedSub (setReg subStage pgHop1 Off.SUB_FRAME 127)) = 3
    ∧ judge State.reset 0 pgHop0 Off.HOP_CFG = .ok ∧ (∀ t, 1 ≤ t → t ≤ 15 → tenRunning State.reset t = false)
    ∧ judge State.reset 0 pgHop2 (Off.FRANGE + 4 * 15) = .ok ∧ rangeBad State.reset 15 128 4096 = false ∧ rangeBad State.reset 15 127 4096 = true
    ∧ judge State.reset 0 pgHop3 Off.CTRL = .ok := by
  refine ⟨by decide, by decide, by decide, by decide, by decide, by decide, ?_, by decide, by decide, by decide, by decide⟩
  intro t h1 h2
  simp only [tenRunning]; rw [if_neg (by omega)]
  simp [tenOf, State.reset, tget, Tenant.init, show t ≠ 0 by omega]

/-- A frame of one ASDU of one channel: svID 'a', smpCnt 3, value 5. -/
def svOctets : List Byte :=
  List.replicate 12 0 ++ [0x88, 0xBA, 0x40, 0x00, 0, 46, 0, 0, 0, 0, 0x60, 36, 0x80, 1, 1, 0xA2, 31, 0x30, 29, 0x80, 1, 0x61, 0x82, 2, 0, 3, 0x83, 4, 0, 0, 0, 1, 0x85, 1, 2,
    0x87, 8, 0, 0, 0, 5, 0, 0, 0x20, 0, 0x88, 1, 0]
/-- The Hopper in CONFIGURE, with an entry for that frame, in the tick of count 3. -/
def svState : State :=
  let x : HopSub := { HopSub.init with daHi := 0x40000000, confRev := 1, layout := 0x000105FF, frame := 4095, policy := 0x00F00001, svidLen := 1
                                       svid := 0x61 :: List.replicate 15 0 }
  let s := setReg (setReg State.reset pgHop0 Off.CTRL 1) pgMode Off.MODE_STAT 0x55
  { s with hop := { s.hop with subs := [(511, x)] }, tick := { s.tick with edgeAt := some 0, running := true, count := 3 }
           tim := { s.tim with tbs := [(0, { TimeBase.init with state := .locked })] } }
theorem test_sv_stored : tget [] (after (exec (.svFrame 3 svOctets 100) svState)).hop.ring (64 * 511 + 3) = [(5, 0x2000)] := by decide
theorem witness_sv : regBit svState pgHop0 Off.CTRL 0 = true ∧ 3 < numPorts svState.variant
    ∧ (etherHeader svOctets).2.2.2.1 = 0x88BA ∧ (matchSub svState 0 none 0x4000 [0x61]).isSome = true ∧ matchSub svState 0 none 0x4001 [0x61] = none
    ∧ (takeHanded 3 svOctets 100 svState).1 = (100, 0) ∧ realTimeMode svState = true ∧ stampTick svState 100 = 3 ∧ nowTick (advance svState 100) = 3
    ∧ presentAt svState.hop 511 3 = false := by decide

theorem witness_seal : svState.tick.edgeAt.isSome = true ∧ svState.tick.sealedTick = false ∧ 2400 ≤ cycleOf svState (max svState.now 2400)
    ∧ lagOf (setReg svState pgHop0 Off.HOP_CFG 2) ≤ svState.tick.count
    ∧ ((after (exec (.sealPoint 2400) svState)).hop.forming.map (·.tick)).isSome = true
    ∧ presentAt (after (exec (.svFrame 3 svOctets 100) svState)).hop 511 3 = true
    ∧ presentAt (after (exec (.svFrame 3 svOctets 100) svState)).hop 511 4 = false := by decide

/-- Chain 63 of TID 0 on channel 0 of slot 511, D = 2, one tap in each bank, output to entry 7 of block 4000, in the sealed tick 4. -/
def chainState (ctrl : Word) (x : Chain) : State :=
  let s := [(Off.DCH_SRC, 511), (Off.DCH_OUT, 4000 + 7 * 0x10000 + 0x100000), (Off.BANK_CFG0, 1), (Off.BANK_CFG1, 1)].foldl
    (fun s p => setReg s pgDec0 (p.1 + 0x20 * 63) (word p.2)) svState
  let s1 := setReg (setReg s pgDec0 (Off.DCH_CTRL + 0x20 * 63) ctrl) pgDec0 Off.CTRL 1
  { s1 with dec := { s1.dec with chains := [(63, x)] }, hop := { s1.hop with forming := some { HopFrame.init with tick := some 4 } } }
theorem witness_decimation : judge (chainState 0 Chain.init) 0 pgDec0 (Off.DCH_CTRL + 0x20 * 63) = .ok ∧ chainResult (chainState 0 Chain.init) 63 = 0
    ∧ chainEn (chainState 0 Chain.init) 63 = false ∧ (tenOf (chainState 0 Chain.init) (chainTid (chainState 0 Chain.init) 63)).job = none
    ∧ chainResult (setReg (chainState 0 Chain.init) pgDec0 (Off.DCH_OUT + 0x20 * 63) 4000) 63 = 4
    ∧ fld (dch (chainState 1 Chain.init) 63 Off.DCH_CTRL) 4 3 ≠ 7 ∧ swapWhy (chainState 1 { Chain.init with count := 1 }) 63 = 0
    ∧ swapWhy (chainState 0 Chain.init) 63 = 0 ∧ swapWhy (chainState 1 Chain.init) 63 = 3
    ∧ chainWorks (chainState 1 { Chain.init with swapPending := true }) 63 = true ∧ swapDue (chainState 1 { Chain.init with swapPending := true }) 63 4 = true
    ∧ (chainOf (chainState 1 { Chain.init with fade := some ⟨6, 1024⟩ }) 63).fade = some ⟨6, 1024⟩ ∧ 2 ^ (6 + 4) ≤ 1024 := by decide

theorem witness_fir : bankTaps (chainState 0 Chain.init) 63 0 ≤ [((7 : Word), (0 : Word))].length
    ∧ (List.range (bankTaps (chainState 0 Chain.init) 63 0)).foldl (fun a i => a + (coefOf { chainState 0 Chain.init with dec := ⟨[], [(128 * 126, 0x40000000)]⟩ } 63 0 i).toInt) 0 = (2 ^ 30 : Int) := by decide

/-- A device in CONFIGURE at the edge of tick 3, at instant 0. -/
def tickState : State :=
  let s := setReg State.reset pgMode Off.MODE_STAT 0x55
  { s with tick := { s.tick with edgeAt := some 0, running := true, count := 3 } }
/-- Lane 255 written for TID 0 and blocks 4000 to 4095, with its words and what waits. -/
def laneState : State :=
  let s := setReg (setReg tickState pgCar0 0xFF8 0x10000FA0) pgCar0 0xFFC 0x80000000
  { s with car := { s.car with lanesPend := true, pubPend := true } }
theorem witness_lanes : judge tickState 0 pgCar0 Off.PUB_POINT = .ok ∧ latestP tickState = 240000 ∧ fld (240001 : Word) 0 20 > latestP tickState
    ∧ judge tickState 0 pgCar0 0xFFC = .ok ∧ (tenOf laneState (laneTid (laneWritten laneState 255))).job = none
    ∧ laneState.car.lanesPend = true ∧ laneState.car.pubPend = true ∧ laneState.tick.edgeAt = some 0 ∧ laneState.now ≤ 0
    ∧ (255, ((0x10000FA0 : Word), (0x80000000 : Word))) ∈ writtenLanes laneState ∧ judge tickState 0 pgCar0 Off.CTRL = .ok := by decide
theorem witness_lane_good : laneBad laneState 254 (laneWritten laneState 254) (laneAfter 0xFF4 0x80000000 (0x0FA00000, 0)) = false := by decide
theorem witness_lane_bad : laneBad laneState 254 (laneWritten laneState 254) (laneAfter 0xFF4 0x80000000 (0x0FA10000, 0)) = true
    ∧ laneBad laneState 254 (0, 0) (laneAfter 0xFF0 0x10010000 (0, 0)) = true := by decide

/-- Engine 15's deposit into block 4095, and lane 255 in force for it. -/
def depState (ports : List BlockPlace) (flipped : Bool) : State :=
  { laneState with
    car := { laneState.car with lanes := [(255, ((0x10000FA0 : Word), (0x80000000 : Word)))], ports := [(15, ports)], flipped := flipped }
    xfers := [⟨.dep, 15, 0, 0, 0, 0, true, true, true, 0, 4095, false, none, none, 20, List.replicate 64 7⟩] }
theorem witness_deposit : (∀ y ∈ (depState [] false).xfers, y.engine = 15 → y.srcDue = none)
    ∧ ((depState [] false).xfers.filter (fun y => y.engine = 15 && y.kind = .dep && y.landDue ≤ 20)).length = 1
    ∧ ownsBlock (depState [] false) 0 0 4095 = true ∧ ownsBlock (depState [] false) 1 0 4095 = false ∧ (depState [] true).car.flipped = true
    ∧ portFull (depState [] false) 15 = false ∧ portFull (depState (List.replicate 32 ⟨none, [], 0, 0⟩) false) 15 = true
    ∧ nextPort (depState [⟨some 4095, [1], 0, 0⟩] false) = some 15 ∧ (depState [] false).car.lastDrainAt ≠ some (20 / 2) := by decide
theorem test_deposit_lands : (tget [] (after (exec (.depositAccept 15 20) (depState [] false))).car.ports 15).map (·.block) = [some 4095] := by decide

/-- The state before a flip, block 4095 drained. -/
def flipState : State := { depState [] false with xfers := [], now := 240000, car := { (depState [] false).car with drained := [(4095, List.replicate 64 7)] } }
theorem witness_flip : flipState.tick.edgeAt.isSome = true ∧ flipState.car.pubPoint ≤ cycleOf flipState (max flipState.now 240000)
    ∧ flipState.car.restored = [] ∧ laneEn ((0x10000FA0 : Word), (0x80000000 : Word)) = true ∧ laneSrc ((0x10000FA0 : Word), (0x80000000 : Word)) = 0
    ∧ laneInvalid flipState 255 ((0x10000FA0 : Word), (0x80000000 : Word)) = false ∧ flipState.car.flipped = false := by decide
theorem witness_flip_ports : (∀ n, tget [] flipState.car.ports n = []) := by
  intro n; simp [flipState, depState, tget]
/-- TB0 runs and the generator is on: the first edge may be issued at instant 4. -/
def edgeState : State :=
  let s := setReg State.reset pgTime0 Off.TICK_CFG 1
  { s with tim := { s.tim with tbs := [(0, { TimeBase.init with state := .locked })] } }
theorem witness_edge : edgeDue edgeState 4 = true ∧ edgeState.now ≤ 4 ∧ edgeDue edgeState 5 = false := by decide

/-- Publication 255 of one member at block 4095, and subscription 1023 of one mapped value into lane 254, staged. -/
def gseState : State :=
  let s := [(Off.PUB_SEL, 255), (Off.P_POLICY, 0x1001), (Off.P_STRLEN, 0x010101), (Off.P_TIMING, 0x01000101), (Off.P_MEM, 0x00010FFF)].foldl
    (fun s p => setReg s pgGse0 p.1 (word p.2)) (depState [] false)
  let s1 := [(Off.GSUB_SEL, 1023), (Off.S_POLICY, 0x00404001), (Off.S_REFLEN, 1), (Off.S_OUT, 0xF9F), (Off.S_MAP, 0x007F0000)].foldl
    (fun s p => setReg s pgGse1 p.1 (word p.2)) s
  { s1 with car := { s1.car with lanes := (254, ((0x0FA00F9F : Word), (0x80000010 : Word))) :: s1.car.lanes } }
theorem witness_goose_pub : judge gseState 0 pgGse0 Off.PUB_CMD = .ok ∧ regFld gseState pgGse0 Off.PUB_SEL 0 8 = 255
    ∧ (tenOf gseState (pubTid (pubOf gseState 255))).job = none ∧ pubResult gseState 255 { GsePub.init with words := staged gseState pgGse0 pubOffs } = 0
    ∧ pubEn { GsePub.init with words := staged gseState pgGse0 pubOffs } = true
    ∧ pubResult (setReg gseState pgGse0 Off.P_STRLEN 0x4201) 255 { GsePub.init with words := staged (setReg gseState pgGse0 Off.P_STRLEN 0x4201) pgGse0 pubOffs } = 1 := by decide
theorem witness_goose_sub : judge gseState 0 pgGse1 Off.GSUB_CMD = .ok ∧ regFld gseState pgGse1 Off.GSUB_SEL 0 10 = 1023
    ∧ (tenOf gseState (gsubTid (gsubOf gseState 1023))).job = none ∧ gsubResult gseState 1023 { GseSub.init with words := staged gseState pgGse1 gsubOffs } = 0
    ∧ gsubResult (setReg gseState pgGse1 Off.S_OUT 0xFA0) 1023 { GseSub.init with words := staged (setReg gseState pgGse1 Off.S_OUT 0xFA0) pgGse1 gsubOffs } = 3 := by decide

/-- A GOOSE frame of one BOOLEAN data element, TRUE; gocbRef 'a', confRev 7. -/
def gooseOctets : List Byte :=
  List.replicate 12 0 ++ [0x88, 0xB8, 0, 0, 0, 55, 0, 0, 0, 0, 0x61, 45, 0x80, 1, 0x61, 0x81, 1, 100, 0x82, 1, 0x62, 0x83, 1, 0x63, 0x84, 8, 0, 0, 0, 0, 0, 0, 0, 0,
    0x85, 1, 1, 0x86, 1, 0, 0x87, 1, 0, 0x88, 1, 7, 0x89, 1, 0, 0x8A, 1, 1, 0xAB, 3, 0x83, 1, 1]
/-- The subscription that this frame matches, enabled. -/
def gooseState : State :=
  let x : GseSub := { GseSub.init with words := [(Off.S_POLICY, 0x00404011), (Off.S_CONFREV, 7), (Off.S_REFLEN, 1), (Off.S_OUT, 0xF9F)
                                                 , (Off.S_GOCBREF, 0x61), (Off.S_MAP, 0x007F0000)] }
  let s := gseState
  { s with gse := { s.gse with subs := [(1023, x)], pubs := [(255, { GsePub.init with words := [(Off.P_POLICY, 0x1001), (Off.P_TIMING, 0x01000401)], next := some 3 })] }
           car := { s.car with flipped := true } }
theorem test_goose_accepted : (gsubOf (after (exec (.gooseFrame 0 gooseOctets 50) gooseState)) 1023).values = [(1, 0)] := by decide
theorem witness_goose : (etherHeader gooseOctets).2.2.2.1 = 0x88B8 ∧ (parseGoose (etherHeader gooseOctets).2.2.2.2).isSome = true
    ∧ (gsubOf (after (exec (.gooseFrame 0 gooseOctets 50) gooseState)) 1023).state = .valid
    ∧ gsubEn (gsubOf (after (exec (.gooseFrame 0 gooseOctets 50) gooseState)) 1023) = true
    ∧ pubEn (pubOf gooseState 255) = true ∧ tenRunning gooseState 0 = true ∧ (pubOf gooseState 255).next = some 3 ∧ 3 ≤ gooseState.tick.count
    ∧ pubAuth (pubOf gooseState 255) = 0 ∧ gateOpen gooseState = false := by decide

/-- The 3,576 bytes of an image of one section that a loader may skip, with a signature of zeros. -/
def imgBytes : List Byte :=
  [0x57, 0x53, 0x54, 0x52, 1, 0, 1, 0, 0xC0, 0x12, 0, 0, 0, 0, 0, 0, 7, 0, 0, 0, 192, 0, 0, 0] ++ List.replicate 40 0
    ++ [99, 0, 1, 0, 0, 0, 0, 0, 128, 0, 0, 0, 64, 0, 0, 0] ++ List.replicate 112 0 ++ [0x57, 0x53, 0x49, 0x47] ++ List.replicate 3380 0
/-- Bytes as cells of memory from an address. -/
def cellsFrom (a : Nat) : List Byte → List Host.Cell
  | [] => []
  | b :: r => (a, b) :: cellsFrom (a + 1) r
/-- An empty verify slot. -/
def verifyKey : KeySlot := { KeySlot.init with kind := .verify }
/-- The image in LPDDR4X, a verify slot of KEY_ID 0 in the vault. -/
def imgState : State :=
  let s := setReg (setReg (setReg tickState pgStr0 Off.IMG_ADDR_HI 8) pgStr0 Off.IMG_LEN 3576) pgMode Off.MODE_STAT 0x55
  { s with mem := cellsFrom 0x800000000 imgBytes, vlt := { s.vlt with slots := [(16, verifyKey)] } }
theorem cells_read (bs : List Byte) : ∀ (a i : Nat), i < bs.length → Memory.read (cellsFrom a bs) (a + i) = bs[i]? := by
  induction bs with
  | nil => intro a i h; simp at h
  | cons b r ih =>
    intro a i h
    cases i with
    | zero => simp [cellsFrom, Memory.read]
    | succ j =>
      have : Memory.read (cellsFrom a (b :: r)) (a + (j + 1)) = Memory.read (cellsFrom (a + 1) r) (a + 1 + j) := by
        simp only [cellsFrom, Memory.read]
        rw [if_neg (by omega), if_neg (by omega)]; congr 1; omega
      rw [this, ih _ _ (by simpa using h)]; simp
theorem cells_bytes (s : State) (bs : List Byte) (a k n : Nat) (hm : s.mem = cellsFrom a bs) (h : k + n ≤ bs.length) :
    readMem s (a + k) n = (bs.drop k).take n := by
  apply List.ext_getElem
  · simp [readMem, Memory.readBytes]; omega
  · intro i h1 h2
    simp only [readMem, Memory.readBytes, List.length_map, List.length_range] at h1
    simp only [readMem, Memory.readBytes, hm, List.getElem_map, List.getElem_range, List.getElem_take, List.getElem_drop]
    rw [show a + k + i = a + (k + i) by omega, cells_read _ _ _ (by omega)]
    simp [List.getElem?_eq_getElem (show k + i < bs.length by omega)]
theorem cells_readable (s : State) (bs : List Byte) (a n : Nat) (hm : s.mem = cellsFrom a bs) (h : n ≤ bs.length) : readableMem s a n = true := by
  simp only [readableMem, List.all_eq_true, List.mem_range]
  intro i hi
  rw [hm, cells_read _ _ _ (by omega)]
  simp [List.getElem?_eq_getElem (show i < bs.length by omega)]
theorem witness_load (h1 : ∀ p m e, Config.ed25519Verify p m e = true) (h2 : ∀ p m e, Config.mldsa65Verify p m e = true) :
    ∃ x, checkImage imgState = .ok x ∧ enginesBusy imgState x.sections = false
      ∧ unitsLocked imgState (namedEngines x.sections) (namedClusters x.sections) = false := by
  have hl : imgBytes.length = 3576 := by decide
  have e0 : readMem imgState 0x800000000 64 = imgBytes.take 64 := by simpa using cells_bytes imgState imgBytes 0x800000000 0 64 rfl (by omega)
  have e1 : readMem imgState 0x800000000 192 = imgBytes.take 192 := by simpa using cells_bytes imgState imgBytes 0x800000000 0 192 rfl (by omega)
  have e2 : readMem imgState (0x800000000 + 192) 3384 = (imgBytes.drop 192).take 3384 := cells_bytes imgState imgBytes 0x800000000 192 3384 rfl (by omega)
  have r0 : readableMem imgState 0x800000000 64 = true := cells_readable imgState imgBytes _ _ rfl (by omega)
  have r1 : readableMem imgState 0x800000000 3576 = true := cells_readable imgState imgBytes _ _ rfl (by omega)
  have ha : imgAddr imgState = 0x800000000 := by decide
  have hh : (reg imgState pgStr0 Off.IMG_LEN).toNat = 3576 := by decide
  have f1 : leAt (imgBytes.take 64) 6 2 = 1 := by decide
  have f2 : leAt (imgBytes.take 64) 0x14 4 = 192 := by decide
  have f3 : leAt (imgBytes.take 64) 0 4 = 0x52545357 := by decide
  have f4 : leAt (imgBytes.take 64) 4 2 = 1 := by decide
  have f5 : leAt ((imgBytes.drop 192).take 3384) 0 4 = 0x47495357 := by decide
  have f6 : (leAt (imgBytes.take 64) 0x10 4).testBit (variantBit imgState.variant) = true := by decide
  have f7 : leAt (imgBytes.take 64) 8 4 = rateHz imgState := by decide
  have f8 : leAt (imgBytes.take 64) 0x18 8 = 0 := by decide
  have f9 : verifySlot imgState.vlt 0 0 0 = some verifyKey := by decide
  have f10 : checkEnvelope verifyKey.pub (sha512 (imgBytes.take 192)) ((imgBytes.drop 192).take 3384) = 0 := by
    simp only [checkEnvelope, h1, h2]; rw [if_neg (by decide)]; rfl
  have f11 : leAt (imgBytes.take 64) 0x0C 4 = 0 := by decide
  have g1 : sectionsBad (imgBytes.take 192) 1 ((List.range 1).map (sectionAt (imgBytes.take 192))) = none := by decide
  have g2 : signaturesBad imgState.vlt (imgBytes.take 192) ((List.range 1).map (sectionAt (imgBytes.take 192))) = none := by
    have : ownersOf ((List.range 1).map (sectionAt (imgBytes.take 192))) = [] := by decide
    simp only [signaturesBad, this]; rfl
  have g3 : altsOf (imgBytes.take 192) ((List.range 1).map (sectionAt (imgBytes.take 192))) = [] := by decide
  have g4 : setsOf (imgBytes.take 192) ((List.range 1).map (sectionAt (imgBytes.take 192))) = [] := by decide
  have g5 : crossBad (imgBytes.take 192) ((List.range 1).map (sectionAt (imgBytes.take 192))) [] [] = none := by decide
  have g6 : overlaysBad (imgBytes.take 192) ((List.range 1).map (sectionAt (imgBytes.take 192))) [] = none := by decide
  refine ⟨{ body := imgBytes.take 192, sections := (List.range 1).map (sectionAt (imgBytes.take 192)), alts := [], sets := [] }, ?_, by decide, by decide⟩
  simp only [checkImage, ha, hh, e0, e1, e2, r0, r1, f1, f2, f3, f4, f5, f6, f7, f8, f9, f10, f11, g1, g2, g3, g4, g5, g6]
  simp [firstErr, ownersBad]; decide

/-- Tick 3, a reshape to alternate 1 of cluster 3 pending for tick `n`. -/
def rsState (n : Nat) (staged : Bool) : State := { tickState with str := { tickState.str with reshape := some ⟨0x40, n, false, staged⟩ } }
/-- Every engine and cluster holds alternate 0; a request for tick 5. -/
def reqState : State :=
  let s := setReg tickState pgStr1 Off.RS_TICK 5
  { s with str := { s.str with alts := (List.range 16).map (fun n => ⟨n, 0, 0, []⟩), sets := (List.range 4).map (fun c => ⟨c, 0, []⟩) } }
theorem witness_reshape : judge reqState 0 pgStr1 Off.RS_CMD = .ok ∧ rsCheck reqState (regFld reqState pgStr1 Off.RS_ALT 0 8) = 0
    ∧ rsCheck tickState (regFld tickState pgStr1 Off.RS_ALT 0 8) = 0x21 ∧ nowTick (rsState 5 false) + 1 < 5
    ∧ (rsState 4 false).tick.edgeAt = some 0 ∧ (rsState 4 false).tick.count + 1 = 4 ∧ mode (rsState 4 false) = mConfigure
    ∧ (rsState 3 true).tick.count = 3 ∧ (∀ n ∈ enginesOf (changedClusters (rsState 3 true) 0x40), firstBad (rsState 3 true) (writtenTable (rsState 3 true) n) [] = none)
    ∧ mode (setReg (rsState 4 false) pgMode Off.MODE_STAT 0x66) = mShadow ∧ rsMatch (setReg (rsState 4 false) pgMode Off.MODE_STAT 0x66) 0x40 4 = false := by decide
theorem witness_image_refused : judge tickState 0 pgStr0 Off.LD_CMD = .ok ∧ mode tickState = mConfigure ∧ tickState.str.load = none ∧ tickState.str.reshape = none
    ∧ mode State.reset ≠ mConfigure ∧ mode State.reset ≠ mMaintain ∧ (match checkImage tickState with | .error e => e.code | .ok _ => 0) = 2 := by decide
theorem witness_load_done : ({ tickState with str := { tickState.str with load := some ⟨[], [], [], []⟩ } } : State).str.load.isSome = true
    ∧ enginesBusy tickState [] = false ∧ Memory.wf tickState.mem = true := by decide

/-- Point 127, disabled, selected; block 4000 in a lane of the Quantity engine. -/
def qeState : State :=
  let s := setReg (setReg tickState pgQe1 Off.PT_SEL 127) pgQe1 Off.PT_CFG (word (0x411 + 4000 * 0x100000))
  let s1 := (List.range 16).foldl (fun s i => setReg s pgQe1 (Off.TC_T + 4 * i) (word (i * 0x00800000))) s
  { s1 with car := { s1.car with lanes := [(9, ((0x10000FA0 : Word), (0x80000020 : Word)))] } }
/-- The point enabled, its frequency valid, no crossing for 1,000 ticks. -/
def qeRuns : State :=
  { qeState with met := { qeState.met with points := [(127, { QePoint.init with cfg := [(Off.PT_CFG, 0x411)], freq := { FreqState.init with valid := true, since := 1000 } })] } }
theorem witness_points : judge qeState 0 pgQe1 Off.PT_CMD = .ok ∧ regFld qeState pgQe1 Off.PT_SEL 0 7 = 127 ∧ (tenOf qeState (ptTid (pointOf qeState 127))).job = none
    ∧ regBit qeState pgQe0 Off.LOCK 0 = false ∧ ptEn (pointOf qeRuns 127) = true ∧ freqDue qeRuns (pointOf qeRuns 127) = true := by decide
theorem witness_point_fails : ptResult (setReg qeState pgQe1 Off.PT_CFG 0x411) 127 { QePoint.init with cfg := stagedPoint (setReg qeState pgQe1 Off.PT_CFG 0x411) } = 4
    ∧ ptEn { QePoint.init with cfg := stagedPoint (setReg qeState pgQe1 Off.PT_CFG 0x411) } = true := by decide
theorem witness_point_commits : ptResult qeState 127 { pointOf qeState 127 with cfg := stagedPoint qeState } = 0 := by decide

/-- Pulse output 7, in residue mode on block 4000 of a lane of TID 0, with the word of its PO_CFG, its status and its inner state. -/
def pulState (cfg stat : Word) (x : PulseOut) : State :=
  let s := [(Off.PO_KH, (1 : Word)), (Off.PO_WIDTH, 2), (Off.PO_SRC, 4000), (Off.PO_CFG, cfg), (Off.PO_STAT, stat)].foldl
    (fun s p => setReg s pgPul (p.1 + 0x20 * 7) p.2) qeState
  let s1 := setReg (setReg s pgPair0 Off.GATE_STAT 1) pgPul Off.CTRL 1
  { s1 with met := { s1.met with outs := [(7, x)] } }
theorem witness_pulse_enable : judge (pulState 0 0 PulseOut.init) 0 pgPul (Off.PO_CFG + 0x20 * 7) = .ok ∧ poEn (pulState 0 0 PulseOut.init) 7 = false
    ∧ poResult (pulState 0 0 PulseOut.init) 7 (3 &&& 0x000F7F77) = 0 ∧ poResult (pulState 0 0 PulseOut.init) 7 (1 &&& 0x000F7F77) = 3
    ∧ poEn (pulState 3 0 PulseOut.init) 7 = true ∧ ((2 : Word) &&& 0x000F7F77) ||| 1 = po (pulState 3 0 PulseOut.init) 7 Off.PO_CFG ||| 1 := by decide
theorem witness_pulses : poHigh (pulState 3 1 PulseOut.init) 7 = false ∧ poBacklog (pulState 3 1 PulseOut.init) 7 = 0 + 1 ∧ gateOpen (pulState 3 1 PulseOut.init) = true
    ∧ regBit (pulState 3 1 PulseOut.init) pgPul Off.CTRL 0 = true ∧ poHigh (pulState 3 0x10000 { PulseOut.init with highEnd := 5 }) 7 = true
    ∧ (outOf (pulState 3 0 { PulseOut.init with lowEnd := some 4 }) 7).lowEnd = some 4 ∧ poBacklog (pulState 3 0 { PulseOut.init with lowEnd := some 4 }) 7 = 0
    ∧ (outOf (pulState 3 0 { PulseOut.init with since := some 3, inc := 1, acc := 2 ^ 48 - 1 }) 7).since = some 3
    ∧ gateOpen (setReg (pulState 3 0 PulseOut.init) pgPair0 Off.GATE_STAT 0) = false := by decide
theorem test_residue_carry : po (after (exec (.residueCarry 7 9) (pulState 3 0 { PulseOut.init with since := some 3, inc := 1, acc := 2 ^ 48 - 1 }))) 7 Off.PO_COUNT = 1 := by decide

/-- Recorder 7 of one channel, of SRC kind 2 on block 4000, with a ring of 64 KiB, its state and its inside. -/
def capState (en : Bool) (st : Nat) (x : Recorder) : State :=
  let s := [(Off.REC_CFG, (0x10000 : Nat)), (Off.REC_PRE, 1), (Off.REC_POST, 1), (Off.RING_HI, 8), (Off.RING_SIZE, 16), (Off.CH_SRC, 4000 + 2 * 0x1000000), (Off.REC_STAT, st)].foldl
    (fun s p => setReg s (pgCap 7) p.1 (word p.2)) qeState
  let s1 := if en then setReg s (pgCap 7) Off.CTRL 1 else s
  { s1 with cap := { s1.cap with recs := [(7, x)] } }
theorem witness_recorder_enable : judge (capState false 0 Recorder.init) 0 (pgCap 7) Off.CTRL = .ok ∧ recEn (capState false 0 Recorder.init) 7 = false
    ∧ recResult (capState false 0 Recorder.init) 7 = 0 ∧ recResult (setReg (capState false 0 Recorder.init) (pgCap 7) Off.REC_POST 0) 7 = 1
    ∧ judge (capState true 4 Recorder.init) 0 (pgCap 7) Off.REC_CMD = .ok ∧ recEn (capState true 4 Recorder.init) 7 = true := by decide
theorem witness_recorder_runs : recState (capState true 4 Recorder.init) 7 = 4 ∧ recBytes (recNch (capState true 4 Recorder.init) 7) + 64 ≤ ringFree (capState true 4 Recorder.init) 7
    ∧ ringFree (capState true 4 { Recorder.init with table := [⟨0, 0, 0, 0, 0, false, false, 0, 0⟩] }) 7 < 128
    ∧ Memory.wf (capState true 3 Recorder.init).mem = true ∧ wrPtr (capState true 3 Recorder.init) 7 < ringSizeOf (capState true 3 Recorder.init) 7 ∧ 64 ≤ ringSizeOf (capState true 3 Recorder.init) 7
    ∧ recState (capState true 2 Recorder.init) 7 = 2 ∧ recState (capState true 0 Recorder.init) 7 = 0 := by decide
theorem test_stop_truncates : ((recOf (after (exec (.recStop 0 7) (capState true 3 { Recorder.init with now := some ⟨0, 0, 0, 0, 0, false, 1, 1, 0, false⟩ }))) 7).table.map (·.trunc)) = [true] := by decide

/-- Partition 0 with a program of one CONST and its ranges, in CONFIGURE. -/
def lgrState : State :=
  let s := [(Off.LP_OUT, (0 : Word)), (Off.LP_STAT, 0x100000)].foldl (fun s p => setReg s pgLgr0 p.1 p.2) tickState
  { s with lgr := { s.lgr with parts := [(0, { LogicPart.init with elems := [3], scan := some ⟨7, [(1, 0)]⟩ })] } }
theorem witness_partition : judge lgrState 0 pgLgr0 Off.LP_CTRL = .ok ∧ (tenOf lgrState 0).job = none ∧ lpEn lgrState 0 = false
    ∧ lpResult lgrState 0 (0x21 &&& 0x01FF1FF3) = 0 ∧ lpResult lgrState 0 (0x11 &&& 0x01FF1FF3) = 1 ∧ judge lgrState 0 pgLgr0 Off.CTRL = .ok := by decide
theorem witness_changes : judge lgrState 0 pgLgr1 Off.ONL_CMD = .ok ∧ onlResult lgrState 0 false 0 5 = 0 ∧ onlResult lgrState 0 false 1 5 = 2
    ∧ judge lgrState 0 pgLgr1 Off.FRC_CMD = .ok ∧ regBit lgrState pgLgr0 Off.LOCK 0 = false ∧ 0 < (partOf lgrState 0).elems.length ∧ lgrState.lgr.forces = []
    ∧ (after (exec (.forceSet 0) lgrState)).lgr.forces.find? (fun f => f.1 = 0) = some (0, ⟨0, 0, none, some (0, 0), none⟩)
    ∧ (partOf lgrState 0).scan = some ⟨7, [(1, 0)]⟩ ∧ 7 ≤ 12 / 2 + 1 := by decide
theorem witness_logic_refused : judge lgrState 0 pgLgr1 Off.LLD_CMD = .ok ∧ (match logicCheck (setReg lgrState pgLgr1 Off.LLD_CMD (1 &&& 0xF00)) 0 with | .error e => e.1 | .ok _ => 0) = 0x12 := by decide
/-- The 3,512 bytes of a logic image of one CONST element, with a signature of zeros. -/
def lgcBytes : List Byte :=
  [0x57, 0x4C, 0x47, 0x43, 1, 0, 0, 0, 1, 0, 0, 0, 0, 0, 0, 0, 0, 0, 0, 0, 0xC0, 0x12, 0, 0] ++ List.replicate 8 0 ++ [128, 0, 0, 0] ++ List.replicate 28 0
    ++ [3] ++ List.replicate 63 0 ++ [0x57, 0x53, 0x49, 0x47] ++ List.replicate 3380 0
/-- An empty verify slot for logic. -/
def logicKey : KeySlot := { KeySlot.init with kind := .verify, purpose := 2 }
/-- The image in LPDDR4X, a verify slot for logic of KEY_ID 0 in the vault. -/
def lgcState : State :=
  let s := setReg (setReg lgrState pgLgr1 Off.LLD_ADDR_HI 8) pgLgr1 Off.LLD_LEN 3512
  { s with mem := cellsFrom 0x800000000 lgcBytes, vlt := { s.vlt with slots := [(16, logicKey)] } }
theorem witness_logic_load (h1 : ∀ p m e, Config.ed25519Verify p m e = true) (h2 : ∀ p m e, Config.mldsa65Verify p m e = true) :
    ∃ r, logicCheck (setReg lgcState pgLgr1 Off.LLD_CMD (1 &&& 0xF00)) 0 = .ok r := by
  have hl : lgcBytes.length = 3512 := by decide
  generalize hs : setReg lgcState pgLgr1 Off.LLD_CMD (1 &&& 0xF00) = s
  have hm : s.mem = cellsFrom 0x800000000 lgcBytes := by subst hs; rfl
  have rd : ∀ k n, k + n ≤ 3512 → dmaRead s 0 (0x800000000 + k) n = some ((lgcBytes.drop k).take n) := by
    intro k n h
    have hr : readableMem s (0x800000000 + k) n = true := by
      simp only [readableMem, List.all_eq_true, List.mem_range]
      intro i hi
      rw [hm, Nat.add_assoc, cells_read _ _ _ (by omega)]
      simp [List.getElem?_eq_getElem (show k + i < lgcBytes.length by omega)]
    have hw : inWindow s 0 (0x800000000 + k) n = true := by simp [inWindow]; omega
    rw [dmaRead, hw, hr, cells_bytes s lgcBytes 0x800000000 k n hm (by omega)]; rfl
  have e0 : dmaRead s 0 0x800000000 64 = some (lgcBytes.take 64) := by simpa using rd 0 64 (by omega)
  have e1 : dmaRead s 0 0x800000000 128 = some (lgcBytes.take 128) := by simpa using rd 0 128 (by omega)
  have e2 : dmaRead s 0 (0x800000000 + 128) 3384 = some ((lgcBytes.drop 128).take 3384) := rd 128 3384 (by omega)
  have ha : logicAddr s = 0x800000000 := by subst hs; decide
  have hh : (reg s pgLgr1 Off.LLD_LEN).toNat = 3512 := by subst hs; decide
  have f1 : logicHeader (lgcBytes.take 64) = ⟨true, 0, 1, 0, 0, 4800, 0, 128⟩ := by decide
  have f2 : leNat (((lgcBytes.drop 128).take 3384).take 4) = 0x47495357 := by decide
  have f3 : rateHz s = 4800 := by subst hs; decide
  have f4 : (0 : Nat) < numTids s.variant := by subst hs; decide
  have f5 : verifySlot s.vlt 0 2 0 = some logicKey := by subst hs; decide
  have f6 : checkEnvelope logicKey.pub (sha512 (lgcBytes.take 128)) ((lgcBytes.drop 128).take 3384) = 0 := by
    simp only [checkEnvelope, h1, h2, f2]; rfl
  have f7 : programBad s 0 (bodyElems (lgcBytes.take 128) 1) 0 0 = none := by subst hs; decide
  have f8 : lpEn s 0 = false := by subst hs; decide
  have f9 : mode s = mConfigure := by subst hs; decide
  have f10 : s.lgr.load = none := by subst hs; rfl
  have f11 : regBit s pgLgr0 Off.LOCK 0 = false := by subst hs; decide
  have f12 : lpElems s 0 = 1 ∧ lpTimers s 0 = 0 ∧ lpEdges s 0 = 0 := by subst hs; decide
  generalize lgcBytes.take 64 = b64 at *
  generalize lgcBytes.take 128 = b128 at *
  generalize (lgcBytes.drop 128).take 3384 = env at *
  refine ⟨(bodyElems b128 1, [], Config.sha3_512 b128), ?_⟩
  delta logicCheck
  simp only [ha, hh, e0, e1, e2, f1, f2, f3, f4, f5, f6, f7, f8, f9, f10, f11, f12.1, f12.2.1, f12.2.2]
  rfl

/-- Tick 3 in CONFIGURE, tenant 15 as given, TEN_AT naming tick 5. -/
def tenState15 (x : Tenant) : State := { setReg tickState (pgTen 15) Off.TEN_AT 5 with ten := [(0, Tenant.initZero), (15, x)] }
theorem witness_tenant_commands : judge (tenState15 Tenant.init) 0 (pgTen 15) Off.TEN_CMD = .ok ∧ tenMode (tenState15 Tenant.init) = true
    ∧ tenState (tenState15 Tenant.init) 15 = .empty ∧ tenState (tenState15 { Tenant.init with state := .running }) 15 = .running
    ∧ 2 ≤ s32diff (reg (tenState15 Tenant.init) (pgTen 15) Off.TEN_AT) (nowTick (tenState15 Tenant.init)) ∧ nowTick (tenState15 Tenant.init) + 1 < 5
    ∧ (tenState15 Tenant.init).tick.edgeAt = some 0 ∧ (tenState15 Tenant.init).tick.count = 3 ∧ limitReached (tenState15 Tenant.init) 15 = false
    ∧ limitReached (setReg (setReg (tenState15 Tenant.init) (pgTen 15) Off.FAULT_LIMIT 1) (pgTen 15) Off.FAULT_RUN 1) 15 = true := by decide
theorem witness_evict : namesTenant (setReg (tenState15 { Tenant.init with state := .loaded }) (pgTen 15) Off.TID_OWNER 15) 15 = false
    ∧ (∀ r < 4, tenOcc (tenState15 { Tenant.init with state := .loaded }) 15 r = 0) := by decide
theorem test_thaw_missed : reg (after (exec (.thawApply 15 0) (tenState15 { Tenant.init with state := .frozen, freezeTick := 1, pend := some ⟨3, 3, true⟩ }))) (pgTen 15) Off.TMISSED = 2 := by decide

/-- Tenant 15 with one window of the 2 MiB from 0x8_0000_0000. -/
def winState (x : Tenant) : State := setReg (tenState15 x) (pgTen 15) (Off.DDR_WIN + 12) 0x00010000
theorem witness_resources : judge (tenState15 Tenant.init) 0 (pgTen 15) (Off.SHARE + 12) = .ok
    ∧ (List.range (numTids (tenState15 Tenant.init).variant)).foldl (fun a u => a + (if u = 15 then 0 else shareWritten (tenState15 Tenant.init) u 3)) 0 + fld (768 : Word) 0 11 ≤ shareTotal 3
    ∧ shareTotal 3 < (List.range (numTids (tenState15 Tenant.init).variant)).foldl (fun a u => a + (if u = 15 then 0 else shareWritten (tenState15 Tenant.init) u 3)) 0 + fld (769 : Word) 0 11
    ∧ shareOf (setReg (tenState15 Tenant.init) (pgTen 15) (Off.SHARE + 12) 768) 15 3 < shareWritten (setReg (tenState15 Tenant.init) (pgTen 15) (Off.SHARE + 12) 768) 15 3
    ∧ 768 + (List.range (numTids (tenState15 Tenant.init).variant)).foldl (fun a u => a + (if u = 15 then 0 else max (shareOf (tenState15 Tenant.init) u 3) (tenOcc (tenState15 Tenant.init) u 3))) 0 ≤ shareTotal 3
    ∧ judge (tenState15 Tenant.init) 0 (pgTen 15) (Off.DDR_WIN + 12) = .ok ∧ windowBad (tenState15 Tenant.init) 15 0x00010000 = false ∧ windowBad (tenState15 Tenant.init) 15 1 = true
    ∧ inWindow (winState Tenant.init) 15 0x8001FFFFF 1 = true ∧ inWindow (winState Tenant.init) 15 0x8001FFFFF 2 = false
    ∧ Memory.wf (winState Tenant.init).mem = true := by decide
theorem witness_readable : readableMem { winState Tenant.init with mem := [(0x8001FFFFF, 5)] } 0x8001FFFFF 1 = true := by decide
theorem witness_drain : tenState (tenState15 { Tenant.init with state := .resetting, draining := [0, 12] }) 15 = .resetting
    ∧ 12 ∈ (tenOf (tenState15 { Tenant.init with state := .resetting, draining := [0, 12] }) 15).draining
    ∧ (tenOf (tenState15 { Tenant.init with state := .resetting, draining := [0, 12] }) 15).draining.filter (· ≠ 12) ≠ []
    ∧ (tenOf (tenState15 { Tenant.init with state := .resetting, draining := [12] }) 15).draining.filter (· ≠ 12) = []
    ∧ tenState (tenState15 { Tenant.init with state := .frozen }) 15 ≠ .resetting ∧ tenState (tenState15 { Tenant.init with state := .frozen }) 15 ≠ .empty := by decide

/-- Tenant 15 with a migration buffer, keys and entropy. -/
def migState (x : Tenant) : State :=
  let s := [(Off.MIG_ADDR_HI, (8 : Word)), (Off.MIG_LEN, 0x10000)].foldl (fun s p => setReg s (pgTen 15) p.1 p.2) (tenState15 x)
  { s with vlt := { s.vlt with entropyOk := true, slots := [(1, { KeySlot.init with kind := .root }), (2, { KeySlot.init with kind := .root }), (6, { KeySlot.init with kind := .root })] } }
theorem witness_migration : judge (migState Tenant.init) 0 (pgTen 15) Off.TEN_CMD = .ok ∧ tenMode (migState Tenant.init) = true
    ∧ tenState (migState { Tenant.init with state := .frozen }) 15 = .frozen ∧ 0x800000000 ≤ migAddr (migState Tenant.init) 15
    ∧ (tenOf (migState { Tenant.init with job := some ⟨5, [1, 2], 7⟩ }) 15).job = some ⟨5, [1, 2], 7⟩ ∧ tenUnpowered (migState Tenant.init) 15 = false
    ∧ tenState (migState { Tenant.init with state := .loaded }) 15 = .loaded ∧ Memory.wf (migState Tenant.init).mem = true := by decide
theorem witness_save : migSize (payloadSections (migState { Tenant.init with state := .frozen }) 15).flatten.length ≤ migLen (migState Tenant.init) 15
    ∧ migAddr (migState Tenant.init) 15 + migSize (payloadSections (migState { Tenant.init with state := .frozen }) 15).flatten.length ≤ 0xC00000000
    ∧ migKeyOk (migState Tenant.init) 1 = true ∧ migKeyOk (migState Tenant.init) 2 = true ∧ (migState Tenant.init).vlt.entropyOk = true := by decide

/-- Tick 40 of a device in mode `m` whose Pair block stands as given, with the gate as given. -/
def pairState (m : Nat) (gate : Word) (p : Pair) : State :=
  let s := setReg (setReg tickState pgMode Off.MODE_STAT (word m)) pgPair0 Off.GATE_STAT gate
  { s with tick := { s.tick with count := 40 }, pair := p }
theorem witness_pair_commands : judge (pairState mConfigure 0 Pair.init) 0 pgPair0 Off.PAIR_CMD = .ok ∧ mode (pairState mConfigure 0 Pair.init) = mConfigure
    ∧ mode (pairState mShadow 0 Pair.init) = mShadow ∧ judge (pairState mShadow 0 Pair.init) 0 pgPair0 Off.PAIR_CMD = .ok ∧ holdsTop (pairState mShadow 0 Pair.init) = false
    ∧ hoMode (pairState mShadow 0 Pair.init) = true ∧ hoCheck (pairState mShadow 0 Pair.init) 0 (hoTick (pairState mShadow 0 Pair.init)) = 1
    ∧ hoCheck (setReg (pairState mShadow 0 { Pair.init with link := 2, role := .leased }) pgPair0 Off.HO_TICK 50) 2 50 = 0
    ∧ hoPending (pairState mShadow 0 { Pair.init with ho := { PairHo.init with state := 1, h := 50 } }) = true ∧ nowTick (pairState mShadow 0 Pair.init) + 1 < 50
    ∧ cfgDiff (pairState mShadow 0 Pair.init) = false := by decide
theorem witness_pair_edges : (pairState mActive 1 Pair.init).tick.edgeAt = some 0 ∧ (pairState mActive 1 Pair.init).now ≤ 0 ∧ (pairState mActive 1 Pair.init).tick.count = 40
    ∧ skewOk (pairState mActive 1 Pair.init) = false ∧ skewOk (pairState mActive 1 { Pair.init with skewKnown := true }) = true ∧ mode (pairState mActive 1 Pair.init) ≠ mTest
    ∧ ownUnit (setReg (setReg (pairState mShadow 0 Pair.init) pgMode Off.STRAPS 1) pgPair0 Off.PAIR_CFG 0x10101) = 0
    ∧ regBit (setReg (pairState mShadow 0 Pair.init) pgPair0 Off.PAIR_CFG 0x10101) pgPair0 Off.PAIR_CFG 16 = true
    ∧ regFld (setReg (pairState mShadow 0 Pair.init) pgPair0 Off.REVERT_HOLD 1) pgPair0 Off.REVERT_HOLD 0 12 * rateHz (pairState mShadow 0 Pair.init) ≤ 4800
    ∧ holdsTop (pairState mActive 1 { Pair.init with role := .leased }) = true ∧ gateOpen (pairState mActive 1 Pair.init) = true
    ∧ unfitToClaim (pairState mShadow 0 Pair.init) = false ∧ max (pairState mShadow 0 Pair.init).pair.lastString 0 + pairLease (pairState mShadow 0 Pair.init) + 2 < 40 := by decide
theorem test_lease_expiry : mode (after (exec (.leaseExpiry 0) (pairState mActive 1 { Pair.init with role := .leased, expiry := 40 }))) = mFenced := by decide

/-- Header and payload of a message of TYPE `type` of unit A in mode ACTIVE at tick 39, before its tag. -/
def msgBody (type len : Byte) (payload : List Byte) : List Byte := [1, type, 0, 7, len, 0, 0, 0, 39, 0, 0, 0, 0, 0, 0, 0] ++ payload
/-- The message with its tag under a key. -/
def msgTagged (k : Nat) (b : List Byte) : List Byte := b ++ pairTag k b
theorem leBytes_length (n v : Nat) : (leBytes n v).length = n := by
  induction n generalizing v with
  | zero => rfl
  | succ n ih => simp [leBytes, ih]
theorem beBytes_length (n v : Nat) : (beBytes n v).length = n := by simp [beBytes, leBytes_length]
theorem tag_length (k : Nat) (b : List Byte) : (pairTag k b).length = 16 := beBytes_length 16 _
/-- A standby of unit B in SHADOW, admitted. -/
def standbyState : State := pairState mShadow 0 { Pair.init with link := 2, role := .standby }
theorem witness_heartbeat : PairValid standbyState 0x11 (msgTagged (keyOf standbyState.vlt 8) (msgBody 0x11 104 (0 :: 0 :: 1 :: List.replicate 101 0))) := by
  refine ⟨rfl, by decide, rfl, rfl, ?_, ?_, rfl⟩
  · have := tag_length (keyOf standbyState.vlt 8) (msgBody 0x11 104 (0 :: 0 :: 1 :: List.replicate 101 0))
    simp only [parsePair, msgTagged, List.length_append, this]; decide
  · show (0 : Nat) ≠ ownUnit standbyState; decide
theorem witness_heartbeat_fields : payNat (parsePair (msgTagged (keyOf standbyState.vlt 8) (msgBody 0x11 104 (0 :: 0 :: 1 :: List.replicate 101 0)))) 2 2 % 2 = 1
    ∧ (parsePair (msgTagged (keyOf standbyState.vlt 8) (msgBody 0x11 104 (0 :: 0 :: 1 :: List.replicate 101 0)))).mode ≠ mFenced ∧ standbyState.pair.granted = none
    ∧ standbyState.pair.ho.state = 0 ∧ standbyState.pair.seen = [] := ⟨rfl, by show (7 : Nat) ≠ 8; decide, rfl, rfl, rfl⟩
theorem witness_grant (type : Byte) (payload : List Byte) (hp : payload.length = 16) (ht : payloadLen type.toNat = 16) :
    PairValid standbyState type.toNat (msgTagged (keyOf standbyState.vlt 8) (msgBody type 16 payload)) := by
  have hb : (msgBody type 16 payload).length = 32 := by simp [msgBody, hp]
  have e1 : (msgTagged (keyOf standbyState.vlt 8) (msgBody type 16 payload)).take 32 = msgBody type 16 payload := by
    rw [msgTagged, List.take_append_of_le_length (by omega), List.take_of_length_le (by omega)]
  have e2 : (msgTagged (keyOf standbyState.vlt 8) (msgBody type 16 payload)).drop 32 = pairTag (keyOf standbyState.vlt 8) (msgBody type 16 payload) := by
    rw [msgTagged, List.drop_append_of_le_length (by omega), List.drop_of_length_le (by omega)]; rfl
  have t0 : (parsePair (msgTagged (keyOf standbyState.vlt 8) (msgBody type 16 payload))).type = type.toNat := by
    show type.toNat + 256 * 0 = type.toNat; omega
  refine ⟨rfl, by decide, t0, rfl, ?_, ?_, ?_⟩
  · have h := tag_length (keyOf standbyState.vlt 8) (msgBody type 16 payload)
    have h1 : (parsePair (msgTagged (keyOf standbyState.vlt 8) (msgBody type 16 payload))).lenOk
        = decide ((msgTagged (keyOf standbyState.vlt 8) (msgBody type 16 payload)).length = 32 + 16 ∧ 16 = payloadLen (type.toNat + 256 * 0)) := by
      show (_ && _) = _; rw [Bool.decide_and]; rfl
    rw [h1]; simp only [Nat.mul_zero, Nat.add_zero, ht, msgTagged, List.length_append, h, hb]; rfl
  · show (0 : Nat) ≠ ownUnit standbyState; decide
  · show (msgTagged _ _).drop 32 = pairTag _ ((msgTagged _ _).take 32); rw [e1, e2]
theorem witness_peer_states : mode (pairState mActive 1 { Pair.init with role := .leased }) ≠ mFenced
    ∧ holdsTop (pairState mActive 1 { Pair.init with role := .leased }) = true ∧ peerHasTop (pairState mShadow 0 { Pair.init with peerFlags := 1 }) = true
    ∧ slotPresent standbyState.vlt 7 = false ∧ pairMode (pairState mFenced 0 Pair.init) = true
    ∧ slotPresent { standbyState.vlt with slots := [(2, { KeySlot.init with kind := .imported })] } 7 = true := by decide
/-- A message without a tag is not a valid one, whatever the tag function. -/
theorem witness_wrong_tag : (parsePair (msgBody 0x30 16 [])).type = 0x30
    ∧ (parsePair (msgBody 0x30 16 [])).tag ≠ pairTag (keyOf standbyState.vlt 8) (parsePair (msgBody 0x30 16 [])).body := by
  refine ⟨by decide, fun h => ?_⟩
  have h1 : (parsePair (msgBody 0x30 16 [])).tag = [] := by decide
  have h2 := congrArg List.length h
  rw [h1, tag_length] at h2
  simp at h2
/-- Unit B, FENCED and not admitted, its nonce and the peer's HELLO as given. -/
def helloState (h : Option (List Byte × Nat × Nat × Nat)) : State :=
  let s := pairState mFenced 0 { Pair.init with link := 1, nonce := List.replicate 32 9, hello := h }
  { s with vlt := { s.vlt with slots := [(2, { KeySlot.init with kind := .imported })] } }
theorem witness_hello : (parsePair (msgBody 1 48 (List.replicate 64 5))).type = 1 ∧ (parsePair (msgBody 1 48 (List.replicate 64 5))).ver = 1
    ∧ (parsePair (msgBody 1 48 (List.replicate 64 5))).lenOk = true ∧ (helloState none).pair.link = 1 ∧ pairMode (helloState none) = true
    ∧ (helloState none).pair.answered = none ∧ (helloState none).pair.seen = [] := by decide
theorem witness_response (R : List Byte) (hR : R = responseOf (keyOf (helloState none).vlt 7) (List.replicate 32 9) (List.replicate 32 5) 0) :
    ∃ msg, (parsePair msg).type = 2 ∧ (parsePair msg).ver = 1 ∧ (parsePair msg).lenOk = true ∧ ((parsePair msg).payload.drop 32).take 32 = List.replicate 32 9
      ∧ (parsePair msg).payload.take 32 = List.replicate 32 5 ∧ (parsePair msg).unit = 0
      ∧ ((parsePair msg).payload.drop 64).take 32 = responseOf (keyOf (helloState none).vlt 7) (List.replicate 32 9) (List.replicate 32 5) 0 := by
  have hl : R.length = 32 := by rw [hR]; exact beBytes_length 32 _
  refine ⟨msgBody 2 96 (List.replicate 32 5 ++ List.replicate 32 9) ++ (R ++ List.replicate 16 0), rfl, rfl, ?_, rfl, rfl, rfl, ?_⟩
  · simp only [parsePair, List.length_append, hl]; rfl
  · show List.take 32 (List.take 32 (R ++ List.replicate 16 0)) = _
    rw [List.take_take, ← hR]; simp [hl]
theorem witness_admission : (helloState (some (List.replicate 32 5, ownCfg (helloState none), 0, 0))).pair.hello = some (List.replicate 32 5, ownCfg (helloState none), 0, 0)
    ∧ (0 : Nat) ≠ ownUnit (helloState none) ∧ slotPresent (helloState none).vlt 7 = true := by decide

/-- Port 3 with its page registers and its port state as given, beside cells of memory. -/
def netState (regs : List (Nat × Word)) (x : Port) (m : List Host.Cell) : State :=
  let s := regs.foldl (fun s p => setReg s (pgPort 3) p.1 p.2) tickState
  { s with net := [(3, x)], mem := m }
/-- A transmit and a receive ring of TID 0 on port 3: 16 descriptors each at the start and 4 KiB into LPDDR4X. -/
def ringRegs : List (Nat × Word) :=
  [(Off.LINK_STAT, 3), (Off.TXR_BASE_LO + 4, 8), (Off.TXR_CFG, 0xFF43), (Off.RXR_BASE_LO, 0x1000), (Off.RXR_BASE_LO + 4, 8), (Off.RXR_CFG, 0x43)]
/-- A descriptor of a frame of 60 zeros at 0x8_0000_2000 for queue 3, and the frame. -/
def descCells : List Host.Cell := cellsFrom 0x800000000 [0, 0x20, 0, 0, 8, 0, 0, 0, 60, 0, 3, 0, 0, 0, 0, 0] ++ cellsFrom 0x800002000 (List.replicate 60 0)
/-- A frame of port 3 that ends at instant 0. -/
def endedWire (src : TxSrc) : TxWire := ⟨⟨0, [], src⟩, 0, 0, 64, none, 0, false⟩
theorem witness_links : hasPort (netState [(Off.CTRL, 1), (Off.STAT, 1)] Port.init []) 3 = true ∧ regBit (netState [(Off.CTRL, 1), (Off.STAT, 1)] Port.init []) (pgPort 3) Off.CTRL 0 = true
    ∧ regBit (netState [(Off.CTRL, 1), (Off.STAT, 1)] Port.init []) (pgPort 3) Off.STAT 0 = true ∧ linkUp (netState [(Off.CTRL, 1), (Off.STAT, 1)] Port.init []) 3 = false
    ∧ linkUp (netState ringRegs Port.init []) 3 = true ∧ 3 < numPorts (netState [] Port.init []).variant := by decide
theorem witness_silent : Silent (netState [] { Port.init with verifying := true, attempts := 3, pauseUntil := some 0 } []) 3 :=
  ⟨by decide, by decide, by decide, by decide⟩
theorem witness_frame_end : (portOf (netState ringRegs { Port.init with wire := some (endedWire (.ring 0 0 false)) } descCells) 3).wire = some (endedWire (.ring 0 0 false))
    ∧ ringHead (netState ringRegs Port.init descCells) (txRing 3 0) = 0 ∧ ringSize (netState ringRegs Port.init descCells) (txRing 3 0) = 16
    ∧ inWindow (netState ringRegs Port.init descCells) 0 (ringDesc (netState ringRegs Port.init descCells) (txRing 3 0) 0) 32 = true
    ∧ Memory.wf (netState ringRegs Port.init descCells).mem = true := by decide
theorem witness_tails : judge (netState ringRegs Port.init descCells) 0 (pgPort 3) Off.DB_TX_TAIL = .ok ∧ judge (netState ringRegs Port.init descCells) 0 (pgPort 3) Off.DB_RX_TAIL = .ok
    ∧ tailResult (netState ringRegs Port.init descCells) (txRing 3 0) 1 = 0 ∧ tailResult (netState ringRegs Port.init descCells) (txRing 3 0) 16 = 1
    ∧ tailResult (netState ringRegs Port.init descCells) (rxRing 3 0) 15 = 0 ∧ tailResult (netState ringRegs Port.init descCells) (rxRing 3 0) 16 = 1 := by decide
theorem witness_queue_full : tailResult { netState ringRegs Port.init descCells with ten := [(0, { Tenant.initZero with depth := [0, 0, 0, 0] })] } (txRing 3 0) 1 = 2
    ∧ tailResult { netState ringRegs Port.init descCells with ten := [(0, { Tenant.initZero with depth := [0, 0, 0, 0] })] } (rxRing 3 0) 1 = 2 := by decide
theorem witness_desc_sent : (match txCheck (netState ringRegs Port.init descCells) (txRing 3 0) 3 0 with | .ok x => x.2.1 | .error _ => 9) = 3 := by decide
theorem witness_pause : fifoLevel (netState [] { Port.init with pausing := true, fifo := [⟨List.replicate 60 0, 0, [0], 3, 0, 0, 0, 63⟩] } []) 3 = 60
    ∧ rxLo (netState [(Off.PAUSE_CFG, 0)] Port.init []) 3 = 0 ∧ pauseTime (netState [(Off.PAUSE_CFG, 0)] Port.init []) 3 = 0 := by decide

/-- A frame of 60 octets of an EtherType, from a multicast or the pause address, with what follows the EtherType. -/
def frameOf (ty : Nat) (body : List Byte) : List Byte :=
  let f := beBytes 6 0x0180C2000001 ++ beBytes 6 0x020000000001 ++ beBytes 2 ty ++ body
  f ++ List.replicate (60 - f.length) 0
/-- Such a frame with the trailer of LAN B. -/
def prpFrame : List Byte := frameOf 0x88BA [] ++ [0, 7] ++ beBytes 2 (0xB000 + 52) ++ [0x88, 0xFB]
/-- Port 3 with its link up and a receive descriptor whose buffer lies at 0x8_0000_2000. -/
def rxState (x : Port) : State :=
  let s := setReg (netState ringRegs x (cellsFrom 0x800001000 [0, 0x20, 0, 0, 8, 0, 0, 0])) (pgPort 3) Off.DB_RX_TAIL 1
  { s with ten := [(0, { Tenant.initZero with state := .running })] }
/-- A received frame for the ring of TID 0 of port 3. -/
def rxOne : RxFrame := ⟨List.replicate 60 0, 0, [0], 3, 0, 0, 0, 63⟩
/-- Pair 1 in PRP, with a key that it remembers. -/
def prpState : State :=
  { setReg (rxState Port.init) pgRed (Off.RED_CFG + 4) 0x01900001 with
    red := [(1, { RedPair.init with keys := [(0x020000000001, 7, 0)], nodes := [(3, ⟨1, 0, 0, 0, false⟩)], proxy := [(4, 5, 0)] })] }
theorem witness_bad_frame : (List.range 5).find? (fun i => rxFlags (rxState Port.init) 3 [1, 2] .none / 2 ^ i % 2 = 1) = some 1
    ∧ hasPort (rxState Port.init) 3 = true ∧ linkUp (rxState Port.init) 3 = true ∧ regBit (rxState Port.init) (pgPort 3) Off.PCFG 5 = false := by decide
theorem witness_good_frame : rxFlags (rxState Port.init) 3 (frameOf 0x88BA []) .none = 0 ∧ redMode (rxState Port.init) 1 = 0
    ∧ (∀ g < 2, ¬(redBox (rxState Port.init) g = true ∧ redIl (rxState Port.init) g = 3)) ∧ (etherHeader (frameOf 0x88BA [])).2.2.2.1 = 0x88BA
    ∧ (etherHeader (frameOf 0x8808 [0, 1, 0, 9])).2.2.2.1 = 0x8808 ∧ beNat ((etherHeader (frameOf 0x8808 [0, 1, 0, 9])).2.2.2.2.take 2) = 1
    ∧ (etherHeader (frameOf 0x8808 [0, 1, 0, 9])).1 = 0x0180C2000001 ∧ regFld (rxState Port.init) (pgPort 3) Off.PCFG 8 2 = 1 := by decide
theorem witness_steered : (List.range 32).find? (fun e => clMatch (rxState Port.init) 3 e 0x0180C2000001 none 0x0800) = none
    ∧ ringEn (rxState Port.init) (rxRing 3 0) = true ∧ freeDescs (rxState Port.init) 3 0 = 1 ∧ regFld (rxState Port.init) (pgPort 3) Off.PCFG 20 4 = 0
    ∧ regBit (rxState Port.init) (pgPort 3) Off.PCFG 24 = false ∧ regBit (rxState Port.init) (pgPort 3) Off.PCFG 10 = false := by decide
theorem witness_prp : redMode prpState 1 = 1 ∧ trailerOf prpFrame = some (7, 0xA + 3 % 2) ∧ (etherHeader (prpFrame.take (prpFrame.length - 6))).2.2.2.1 = 0x88BA
    ∧ rxFlags prpState 3 prpFrame .none = 0 ∧ (liveKeys prpState 1 0 (redOf prpState 1).keys).any (fun k => k.1 = beNat ((prpFrame.drop 6).take 6) && k.2.1 = 7) = true := by decide
theorem witness_first_copy : (liveKeys prpState 1 480000001 (redOf prpState 1).keys) = [] := by decide
theorem witness_rx_fill : (portOf (rxState { Port.init with fifo := [rxOne] }) 3).fifo = [rxOne] ∧ ringSize (rxState Port.init) (rxRing 3 0) = 16
    ∧ inWindow (rxState Port.init) 0 (ringDesc (rxState Port.init) (rxRing 3 0) (ringHead (rxState Port.init) (rxRing 3 0))) 32 = true
    ∧ dmaRead (rxState Port.init) 0 (ringDesc (rxState Port.init) (rxRing 3 0) (ringHead (rxState Port.init) (rxRing 3 0))) 8 = some [0, 0x20, 0, 0, 8, 0, 0, 0]
    ∧ inWindow (rxState Port.init) 0 0x800002000 60 = true ∧ ringDesc (rxState Port.init) (rxRing 3 0) 0 = 0x800001000 ∧ Memory.wf (rxState Port.init).mem = true := by decide
theorem witness_rings : ringAt (pgPort 3) Off.RXR_CFG = some (3, 0, false) ∧ ringAt (pgPort 3) Off.TXR_CFG = some (3, 0, true)
    ∧ judge (rxState Port.init) 0 (pgPort 3) Off.RXR_CFG = .ok ∧ ringGood (rxState Port.init) (rxRing 3 0) 0x41 = true ∧ ringGood (rxState Port.init) (rxRing 3 0) 0x31 = false
    ∧ fld (0x40 : Word) 4 4 = regFld (rxState Port.init) (pgPort 3) Off.RXR_CFG 4 4 ∧ ringOcc (rxState Port.init) (rxRing 3 0) = 1 ∧ ringOcc (rxState Port.init) (txRing 3 0) = 0
    ∧ inWindow (rxState Port.init) 0 (ringBase (rxState Port.init) (rxRing 3 0)) (32 * 16) = true
    ∧ ringEn (setReg (rxState Port.init) (pgPort 3) Off.TXR_CFG 0x42) (txRing 3 0) = false := by decide
theorem witness_red : judge prpState 0 pgRed (Off.RED_CFG + 4) = .ok ∧ redCfgBad prpState 1 0x01900001 = false ∧ redCfgBad prpState 1 0x01900005 = true
    ∧ regBit (setReg prpState pgRed (Off.SUP_CFG + 4) 0x140001) pgRed (Off.SUP_CFG + 4) 0 = true ∧ redBox prpState 1 = false ∧ 38 ≤ maxLen prpState 2
    ∧ (3, ⟨1, 0, 0, 0, false⟩) ∈ (redOf prpState 1).nodes ∧ (4, 5, 0) ∈ (redOf prpState 1).proxy
    ∧ regFld prpState pgRed (Off.NODE_CFG + 4) 0 12 * 1200000000 ≤ 10000000000000 := by decide
theorem witness_sup_silent : Silent prpState 2 ∧ Silent prpState 3 := ⟨⟨by decide, by decide, by decide, by decide⟩, ⟨by decide, by decide, by decide, by decide⟩⟩

/-- Tick 3 in CONFIGURE with time base 3 as given and registers of TIME pages as given. -/
def timState (regs : List (Nat × Nat × Word)) (b : TimeBase) : State :=
  let s := regs.foldl (fun s p => setReg s p.1 p.2.1 p.2.2) tickState
  { s with tim := { s.tim with tbs := [(0, b), (3, b)] } }
theorem witness_time_base : judge (timState [] TimeBase.init) 0 pgTime1 (Off.TB_CMD + 0xC0) = .ok ∧ judge (timState [] TimeBase.init) 0 pgTime1 Off.TB_CMD = .ok
    ∧ (tbOf (timState [] TimeBase.init) 3).state = .stopped ∧ (tbOf (timState [] { TimeBase.init with state := .locked }) 3).state = .locked
    ∧ (timState [] TimeBase.init).tick.edgeAt = some 0 ∧ (tbOf (timState [] { TimeBase.init with swPend := true }) 0).swPend = true
    ∧ switchResult (timState [] TimeBase.init) 0 ≠ 0 ∧ (tbOf (timState [] TimeBase.init) 3).lastMeas + lossCycles (timState [] TimeBase.init) 3 ≤ 20000000000 := by decide
theorem witness_switch : switchResult { tickState with tim := { tickState.tim with tbs := [(0, { TimeBase.init with state := .locked }), (4, { TimeBase.init with state := .locked })] } } 0 = 0 := by decide
theorem witness_tick_cfg : judge (timState [] TimeBase.init) 0 pgTime0 Off.TICK_CFG = .ok ∧ mode (timState [] TimeBase.init) = mConfigure
    ∧ regBit (timState [] TimeBase.init) pgTime0 Off.TICK_CFG 0 = false ∧ regBit (timState [(pgTime0, Off.TICK_CFG, 1)] TimeBase.init) pgTime0 Off.TICK_CFG 0 = true := by decide
/-- PPS_IN1 enabled, with a delay of 9 ns, and named by time base 3 in LOCKED. -/
def ppsState : State := timState [(pgTime0, Off.PPS_IN_CFG + 4, 0x00090007), (pgTime1, Off.TB_CFG + 0xC0, 0x41310003)] { TimeBase.init with state := .locked, base := unitsPerNs * 10 }
theorem witness_pps_in : regBit ppsState pgTime0 (Off.PPS_IN_CFG + 4) 0 = true ∧ (tget PpsIn.init ppsState.tim.ppsIn 1).lastAt = none
    ∧ (∀ e < 5, e ≠ 3 → fld (tbReg ppsState e Off.TB_CFG) 0 3 ≠ 2 + 1) ∧ fld (tbReg ppsState 3 Off.TB_CFG) 0 3 = 2 + 1
    ∧ (fromSecond (ppsStamp ppsState 3 0 9 * 2 ^ 16)).natAbs ≤ jumpThresh ppsState 3 ∧ fromSecond (ppsStamp ppsState 3 0 9 * 2 ^ 16) = 65536
    ∧ jumpThresh ppsState 3 < (fromSecond (ppsStamp ppsState 3 600000 9 * 2 ^ 16)).natAbs := by decide
theorem witness_servoed : Servoed ppsState 3 := ⟨by decide, by decide, by decide, by decide, by decide⟩
/-- A PPS output and a compare unit that are due. -/
def cmpState : State :=
  timState [(pgTime0, Off.PPS_OUT_CFG + 8, 3), (pgTime3, Off.CMP_CFG + 0xF0, 0xB), (pgTime3, Off.CMP_TARGET + 0xF0, 3), (pgTime3, Off.CMP_PERIOD + 0xF0, 4)] TimeBase.init
theorem witness_compare : regBit cmpState pgTime3 (Off.CMP_CFG + 0xF0) 0 = true ∧ regFld cmpState pgTime3 (Off.CMP_CFG + 0xF0) 1 3 = 5
    ∧ 0 ≤ (compareNow cmpState 15 0 - reg cmpState pgTime3 (Off.CMP_TARGET + 0xF0)).toInt ∧ judge cmpState 0 pgTime3 (Off.CMP_CFG + 0xF0) = .ok
    ∧ regFld cmpState pgTime0 (Off.PPS_OUT_CFG + 8) 0 2 = 3
    ∧ (tget PpsOut.init (setPpsOut 1 ⟨true, 5⟩ cmpState).tim.ppsOut 1).high = true ∧ fld (0xC : Word) 1 3 = 6 ∧ fld (0xB : Word) 1 3 = 5 := by decide
theorem test_compare_periodic : reg (after (exec (.compareFire 15 0) cmpState)) pgTime3 (Off.CMP_TARGET + 0xF0) = 7 := by decide

/-- A message of port identity 0-0-1 in a frame from 01-1B-19-00-00-00, its type, twoStepFlag, sequenceId and body given. -/
def ptpFrameOf (ty twoStep seq : Nat) (body : List Byte) : List Byte :=
  beBytes 6 0x011B19000000 ++ beBytes 6 2 ++ beBytes 2 0x88F7
    ++ [BitVec.ofNat 8 ty, 2, 0, BitVec.ofNat 8 (34 + body.length), 0, 0, BitVec.ofNat 8 (2 * twoStep), 0] ++ List.replicate 12 0
    ++ [0, 0, 0, 0, 0, 0, 0, 0, 0, 1] ++ [0, BitVec.ofNat 8 seq, 0, 0] ++ body
/-- The message in such a frame. -/
def ptpMsgOf (ty : Nat) (two : Bool) (seq ident : Nat) : PtpMsg := ⟨ty, 0, two, 0, 1, seq, 0, ident⟩
/-- PP_CFG.EN on port 3, and time base 3 with SRC = PTP on it, PARENT 0-0-1. -/
def ptpState (b : TimeBase) (x : PtpPort) : State :=
  let s := timState [(pgTime2, Off.PP_CFG + 0xC0, 0x81), (pgTime1, Off.TB_CFG + 0xC0, 0x41313001), (pgTime1, Off.PARENT_HI + 0xC0, 1)] b
  { s with tim := { s.tim with ports := [(3, x)] } }
/-- One such state: LOCKED with a Sync that waits, PD_VALID, a request that waits for its answer. -/
def ptpBusy : State :=
  ptpState { TimeBase.init with state := .locked, pendSync := some ⟨5, 0, 0, 0⟩ } { PtpPort.init with valid := true, waiting := true, seq := 5, resp := some (1, 0, 0) }
theorem witness_timed : Timed ptpBusy 3 0 (ptpFrameOf 0 1 5 (List.replicate 10 0)) (ptpMsgOf 0 true 5 0)
    ∧ Timed ptpBusy 3 8 (ptpFrameOf 8 0 5 (List.replicate 10 0)) (ptpMsgOf 8 false 5 0)
    ∧ Timed ptpBusy 3 2 (ptpFrameOf 2 0 5 (List.replicate 20 0)) (ptpMsgOf 2 false 5 0)
    ∧ Timed ptpBusy 3 3 (ptpFrameOf 3 0 5 (List.replicate 19 0 ++ [4])) (ptpMsgOf 3 false 5 4)
    ∧ Timed ptpBusy 3 10 (ptpFrameOf 10 0 5 (List.replicate 19 0 ++ [4])) (ptpMsgOf 10 false 5 4) := by
  refine ⟨?_, ?_, ?_, ?_, ?_⟩ <;> exact ⟨by decide, by decide, by decide, by decide, by decide, by decide, by decide⟩
theorem witness_reference : (∀ e < 5, ofReference ptpBusy 3 e (ptpMsgOf 0 true 5 0) = true ↔ e = 3)
    ∧ ofReference ptpBusy 3 3 (ptpMsgOf 8 false 5 0) = true ∧ (tbOf ptpBusy 3).pendSync = some ⟨5, 0, 0, 0⟩ ∧ (ptpOf ptpBusy 3).valid = true
    ∧ pdDomain ptpBusy 3 = 0 ∧ answers ptpBusy 3 (ptpMsgOf 3 false 5 4) = true ∧ (ptpOf ptpBusy 3).resp = some (1, 0, 0)
    ∧ ppEn ptpBusy 3 = true ∧ (ptpOf ptpBusy 3).reqAt = none := by decide
theorem witness_ptp_servoed : Servoed ptpBusy 3 := ⟨by decide, by decide, by decide, by decide, by decide⟩
theorem witness_ready : Ready ptpBusy 3 0 := ⟨by decide, .inl ⟨⟨by decide, by decide, by decide, by decide⟩, by decide⟩⟩
/-- Port 3 a master of time base 1, which is LOCKED and reaches a whole second between fabric cycles 0 and 1. -/
def masterState : State :=
  let s := timState [(pgTime2, Off.PP_CFG + 0xC0, 0x21)] TimeBase.init
  { s with tim := { s.tim with tbs := [(1, { TimeBase.init with state := .locked, base := 1000000000 * unitsPerNs - 1 })] } }
theorem witness_sync_send : sendsSync masterState 3 1 = true
    ∧ tbNs masterState 1 2 / pow2Of (10 ^ 9) (logSync masterState 3) ≠ tbNs masterState 1 (2 - 2) / pow2Of (10 ^ 9) (logSync masterState 3) := by decide
/-- The PTP rings enabled, with a transmit descriptor that names port 4. -/
def ptpRingState : State :=
  let s := timState [(pgTime2, Off.PTP_RXR_BASE_HI, 8), (pgTime2, Off.PTP_RXR_CFG, 0x43), (pgTime2, Off.PTP_TXR_BASE_HI, 8), (pgTime2, Off.PTP_TXR_CFG, 0x43)] TimeBase.init
  { s with mem := cellsFrom 0x800000000 [0, 0, 0, 0, 0, 0, 0, 0, 0, 0, 0, 4, 0, 0, 0, 0] }
theorem witness_ptp_rings : judge ptpRingState 0 pgTime2 Off.PTP_TAILS = .ok ∧ (tenOf ptpRingState 0).state ≠ .resetting ∧ ringTail ptpRingState ptpTxRing = 0
    ∧ ringHead ptpRingState ptpTxRing = 0 ∧ tailResult ptpRingState ptpRxRing 5 = 0 ∧ tailResult ptpRingState ptpRxRing 16 = 1 ∧ tailResult ptpRingState ptpTxRing 1 = 0
    ∧ ringSize ptpRingState ptpTxRing = 16 ∧ inWindow ptpRingState 0 (ringDesc ptpRingState ptpTxRing 0) 32 = true
    ∧ dmaRead ptpRingState 0 (ringDesc ptpRingState ptpTxRing 0) 16 = some [0, 0, 0, 0, 0, 0, 0, 0, 0, 0, 0, 4, 0, 0, 0, 0] ∧ Memory.wf ptpRingState.mem = true := by decide

/-- A descriptor of operation `op` on slots 16 and 17, FLAGS 0, USE 127, input at 0x8_0000_1000, output at 0x8_0000_4000, ARG as given. -/
def vqBytes (op inLen outLen : Nat) (arg : List Byte) : List Byte :=
  [BitVec.ofNat 8 op, 0, 0x7F, 0, 16, 17, 0, 0] ++ leBytes 8 0x800001000 ++ leBytes 4 inLen ++ leBytes 4 outLen ++ leBytes 8 0x800004000 ++ arg
    ++ List.replicate (32 - arg.length) 0
/-- A device in PROVISION whose ring of TID 0 holds one command; slot 1 is a root and slot 16 an imported key below it. -/
def vqState (desc input : List Byte) : State :=
  let s := [(Off.VQ_BASE_HI, (0x84000008 : Word)), (Off.VQ_PTR, 1)].foldl (fun s p => setReg s pgVlt p.1 p.2) (setReg tickState pgMode Off.MODE_STAT 0x54)
  { s with
    mem := cellsFrom 0x800000000 desc ++ cellsFrom 0x800001000 input
    vlt := { s.vlt with
      otp := { s.vlt.otp with lifecycle := 1 }, entropyOk := true
      slots := [(1, { KeySlot.init with kind := .root, use := 1 }), (16, { KeySlot.init with kind := .imported, use := 127, depth := 1, parent := 1 })] } }
/-- What `vqState` with such a descriptor serves. -/
def vqServed (op inLen outLen : Nat) (arg : List Byte) : VqCmd := vqCmdOf 0 (vqBytes op inLen outLen arg)
theorem witness_serves (op : Nat) (h : op ∈ [0x01, 0x02, 0x03, 0x04, 0x06, 0x07, 0x08, 0x0A, 0x0B, 0x0C, 0x0D, 0x0E, 0x11, 0x12]) :
    Serves (vqState (vqBytes op 32 96 []) (List.replicate 32 7)) 0 op (vqServed op 32 96 []) := by
  simp only [List.mem_cons, List.not_mem_nil, or_false] at h
  rcases h with h | h | h | h | h | h | h | h | h | h | h | h | h | h <;> subst h <;>
    exact ⟨rfl, by decide, by decide, by decide, by decide, by unfold StateInv; decide⟩
theorem witness_vault : slotStatus (vqState [] []).vlt 16 0 1 = 0 ∧ slotStatus (vqState [] []).vlt 16 0 0 = 0 ∧ slotStatus (vqState [] []).vlt 16 0 2 = 0
    ∧ slotStatus (vqState [] []).vlt 16 0 4 = 0 ∧ slotStatus (vqState [] []).vlt 16 0 8 = 0 ∧ slotStatus (vqState [] []).vlt 16 0 16 = 0
    ∧ slotStatus (vqState [] []).vlt 16 0 64 = 0 ∧ slotPresent (vqState [] []).vlt 17 = false ∧ (slotInfoOf (vqState [] []).vlt 16).depth = 1
    ∧ dmaRead (vqState [] (List.replicate 32 7)) 0 0x800001000 32 = some (List.replicate 32 7) ∧ mode (vqState [] []) = mProvision
    ∧ slotPresent (vqState [] []).vlt 16 = true ∧ (vqState [] []).vlt.entropyOk = true := by decide
theorem witness_import : Serves (vqState (vqBytes 0x09 60 0 []) (List.replicate 60 7)) 0 0x09 (vqServed 0x09 60 0 []) :=
  ⟨rfl, by decide, by decide, by decide, by decide, by unfold StateInv; decide⟩
theorem cells_readable_at (s : State) (bs : List Byte) (a k n : Nat) (hm : s.mem = cellsFrom a bs) (h : k + n ≤ bs.length) : readableMem s (a + k) n = true := by
  simp only [readableMem, List.all_eq_true, List.mem_range]
  intro i hi
  rw [hm, show a + k + i = a + (k + i) by omega, cells_read _ _ _ (by omega)]
  simp [List.getElem?_eq_getElem (show k + i < bs.length by omega)]
theorem cells_wf (bs : List Byte) : ∀ (lo a : Nat), lo ≤ a → 0x800000000 ≤ a → a + bs.length ≤ 0xC00000000 → Memory.wfFrom lo (cellsFrom a bs) = true := by
  induction bs with
  | nil => intros; rfl
  | cons b r ih =>
    intro lo a h1 h2 h3
    simp only [List.length_cons] at h3
    have ho : isOffChip a = true := by simp only [isOffChip, Bool.or_eq_true, Bool.and_eq_true, decide_eq_true_eq]; omega
    have : unlisted a = none := by simp [unlisted, ho]
    simp [cellsFrom, Memory.wfFrom, h1, this, ih (a + 1) (a + 1) (Nat.le_refl _) (by omega) (by omega)]
/-- A device whose ring of TID 0 holds one command with an input of 3,384 or 1,984 bytes, slot 16 a verify slot. -/
def longState (desc : List Byte) (v : KeySlot) : State :=
  let s := vqState [] []
  { s with mem := cellsFrom 0x800000000 (desc ++ List.replicate 8000 0), vlt := { s.vlt with slots := [(16, v)] } }
theorem witness_verify : Serves (longState (vqBytes 0x05 3384 0 []) { verifyKey with use := 64 }) 0 0x05 (vqServed 0x05 3384 0 [])
    ∧ slotStatus (longState [] { verifyKey with use := 64 }).vlt 16 0 64 = 0
    ∧ (dmaRead (longState (vqBytes 0x05 3384 0 []) { verifyKey with use := 64 }) 0 0x800001000 3384).isSome = true := by
  have hl : (vqBytes 0x05 3384 0 [] ++ List.replicate 8000 0).length = 8064 := by rw [List.length_append, List.length_replicate]; rfl
  refine ⟨⟨rfl, by decide, by decide, by decide, by decide, cells_wf _ _ _ (Nat.zero_le _) (Nat.le_refl _) (by rw [hl]; decide)⟩, by decide, ?_⟩
  have h : readableMem (longState (vqBytes 0x05 3384 0 []) { verifyKey with use := 64 }) (0x800000000 + 0x1000) 3384 = true :=
    cells_readable_at _ _ _ _ _ rfl (by rw [hl]; decide)
  have w : inWindow (longState (vqBytes 0x05 3384 0 []) { verifyKey with use := 64 }) 0 0x800001000 3384 = true := by decide
  simp [dmaRead, w, h]
theorem witness_reg_vk : Serves (longState (vqBytes 0x0A 1984 0 []) { verifyKey with keyId := 1 }) 0 0x0A (vqServed 0x0A 1984 0 [])
    ∧ (∀ x ∈ (longState [] { verifyKey with keyId := 1 }).vlt.slots, x.2.kind = .verify → x.2.keyId ≠ leNat ((vqServed 0x0A 1984 0 []).arg.take 8))
    ∧ (dmaRead (longState (vqBytes 0x0A 1984 0 []) { verifyKey with keyId := 1 }) 0 0x800001000 1984).isSome = true := by
  have hl : (vqBytes 0x0A 1984 0 [] ++ List.replicate 8000 0).length = 8064 := by rw [List.length_append, List.length_replicate]; rfl
  refine ⟨⟨rfl, by decide, by decide, by decide, by decide, cells_wf _ _ _ (Nat.zero_le _) (Nat.le_refl _) (by rw [hl]; decide)⟩, by decide, ?_⟩
  have h : readableMem (longState (vqBytes 0x0A 1984 0 []) { verifyKey with keyId := 1 }) (0x800000000 + 0x1000) 1984 = true :=
    cells_readable_at _ _ _ _ _ rfl (by rw [hl]; decide)
  have w : inWindow (longState (vqBytes 0x0A 1984 0 []) { verifyKey with keyId := 1 }) 0 0x800001000 1984 = true := by decide
  simp [dmaRead, w, h]
theorem witness_otp : Serves (vqState (vqBytes 0x0F 0 0 [0, 1, 9, 0]) []) 0 0x0F (vqServed 0x0F 0 0 [0, 1, 9, 0])
    ∧ Serves (vqState (vqBytes 0x0F 0 0 [1, 3]) []) 0 0x0F (vqServed 0x0F 0 0 [1, 3]) :=
  ⟨⟨rfl, by decide, by decide, by decide, by decide, by unfold StateInv; decide⟩, ⟨rfl, by decide, by decide, by decide, by decide, by unfold StateInv; decide⟩⟩
/-- BLANK, with a package of one digest. -/
def blankState : State :=
  let s := vqState (vqBytes 0x10 156 0 []) (List.replicate 156 7)
  { s with vlt := { s.vlt with otp := { s.vlt.otp with lifecycle := 0 } } }
theorem witness_prov_import : Serves blankState 0 0x10 (vqServed 0x10 156 0 []) ∧ dmaRead blankState 0 0x800001000 156 = some (List.replicate 156 7) :=
  ⟨⟨rfl, by decide, by decide, by decide, by decide, by unfold StateInv; decide⟩, by decide⟩

/-- A device in mode `m` with a watchdog that expires at 0, a bad window behind it and TAMP_CFG(3) with EN and ACTION 2. -/
def safeState (m : Nat) (wdog : Word) : State :=
  let s := setReg (setReg tickState pgMode Off.MODE_STAT (word m)) pgMode Off.WDOG_CFG wdog
  { s with
    mod := { s.mod with wdogAt := some 0, monBad := 1 }
    vlt := { s.vlt with vbat := { s.vlt.vbat with regs := [(0x3C, 0x9)] } } }
theorem witness_safe : canSafe (safeState mActive 1) ∧ ¬canSafe (safeState mSafe 1) := by unfold canSafe; decide
theorem witness_safe_causes : judge (safeState mActive 1) 0 pgMode Off.MODE_CMD = .ok ∧ (0xFF000020 : Word) &&& 0x5F = 0 ∧ (safeState mActive 1).mod.wdogAt = some 0
    ∧ regBit (safeState mActive 1) pgMode Off.WDOG_CFG 1 = false ∧ regBit (safeState mActive 3) pgMode Off.WDOG_CFG 1 = true ∧ (safeState mActive 3).mod.power = true
    ∧ Memory.wf (safeState mActive 3).mem = true ∧ ((25010001 : Nat) - 25000000 : Int).natAbs = 10001 ∧ regBit (safeState mActive 1) pgClk Off.MON_CFG 0 = true
    ∧ bit (tampCfg (safeState mActive 1).vlt 3) 0 = true ∧ fld (tampCfg (safeState mActive 1).vlt 3) 2 2 = 2 := by decide
theorem witness_vq_tail : judge (vqState [] []) 0 pgVlt Off.VQ_PTR = .ok ∧ vqSize (vqState [] []) 0 = 16 ∧ vqOcc (vqState [] []) 0 = 1 ∧ vqEn (vqState [] []) 0 = true
    ∧ vqDist (vqState [] []) 0 15 (vqHead (vqState [] []) 0) ≤ shareOf (vqState [] []) 0 0 := by decide
theorem witness_vq_full : shareOf { vqState [] [] with ten := [(0, { Tenant.initZero with depth := [2, 0, 0, 0] })] } 0 0
    < vqDist { vqState [] [] with ten := [(0, { Tenant.initZero with depth := [2, 0, 0, 0] })] } 0 3 0 := by decide
theorem test_ppm : reg (after (exec (.clockMonitorWindow 24999950 0) State.reset)) pgClk Off.MON_PPM = -2 := by decide

/-- An owned device in PROVISION with both roots. -/
def ownedState : State :=
  let s := setReg tickState pgMode Off.MODE_STAT 0x43
  { setReg s pgMode Off.MODE_STAT 4 with vlt := { s.vlt with
    otp := { s.vlt.otp with lifecycle := 1 }, slots := [(1, { KeySlot.init with kind := .root }), (2, { KeySlot.init with kind := .root })] } }
theorem witness_configure : judge ownedState 0 pgMode Off.MODE_CMD = .ok ∧ mode ownedState = mProvision ∧ ownedState.vlt.otp.lifecycle = 1
    ∧ slotPresent ownedState.vlt 1 = true ∧ slotPresent ownedState.vlt 2 = true ∧ slotPresent tickState.vlt 2 = false ∧ (0xFF000001 : Word) &&& 0x7E = 0 := by decide
theorem witness_test_mode : 2 ≤ s32diff (reg (setReg (safeState mActive 0) pgMode Off.MODE_AT 5) pgMode Off.MODE_AT) (nowTick (safeState mActive 0))
    ∧ s32diff (reg (setReg (safeState mActive 0) pgMode Off.MODE_AT 4) pgMode Off.MODE_AT) (nowTick (safeState mActive 0)) < 2
    ∧ (safeState mActive 0).mod.pend = none ∧ mode (safeState mTest 0) = mTest ∧ mode (safeState mShadow 0) = mShadow ∧ (0xA5000040 : Word) &&& 0x3F = 0
    ∧ fld (0xA5000040 : Word) 24 8 = 0xA5 := by decide
theorem witness_test_entry : ({ safeState mActive 0 with mod := { Modes.init with pend := some ⟨1, 3, true⟩ } }).tick.count = 3 := by decide
theorem test_test_entry : mode (after (exec (.testEntry 0) { safeState mActive 0 with mod := { Modes.init with pend := some ⟨1, 3, true⟩ } })) = mTest := by decide
theorem witness_harts : judge ownedState 0 pgMode Off.HART_REL = .ok ∧ mProvision ≤ mode ownedState ∧ ownedState.mod.harts.any (fun x => x.1 = 3) = false
    ∧ judge ownedState 0 pgMode Off.WDOG_CFG = .ok ∧ judge ownedState 0 pgMode Off.WDOG_KICK = .ok ∧ judge ownedState 0 pgClk Off.CLU_PD = .ok
    ∧ (∀ c < 4, clusterStopped ownedState c = true) ∧ clusterStopped (setReg ownedState (pgMe 15) Off.CTRL 1) 3 = false := by decide
theorem witness_cluster : 3 < numClusters tickState.variant ∧ regBit (setReg tickState pgClk Off.PD_STAT 7) pgClk Off.PD_STAT 3 = false
    ∧ regBit tickState pgClk Off.CLU_PD 3 = false ∧ regBit (setReg tickState pgClk Off.PLL_STAT 4) pgClk Off.PLL_STAT (1 + 1) = true
    ∧ Memory.wf tickState.mem = true := by decide
theorem witness_all_silent : ∀ p < 5, Silent tickState p := by unfold Silent; decide

/-- A device right after reset with a latch, without main power, or with a power warning. -/
def powerState (m : Modes) : State := { State.reset with mod := m }
theorem witness_resets : (powerState Modes.init).mod.power = true ∧ Memory.wf (powerState Modes.init).mem = true ∧ (powerState { Modes.init with porst := true }).mod.porst = true
    ∧ (powerState { Modes.init with power := false }).mod.power = false ∧ (powerState { Modes.init with warnAt := some 0 }).mod.warnAt = some 0
    ∧ (powerState Modes.init).mod.failLow = false := by decide
theorem witness_reset_release : resetReleased State.reset = true ∧ latched State.reset.vlt 1 3 = false ∧ slotOrder [] = [0, 1] := by decide
/-- An image that boots with 4 bytes of PLAT_FW at 0x8_0000_0000. -/
def bootImg : BootImage := ⟨1, 7, leBytes 8 0x800000000 ++ leBytes 8 0x800000000 ++ [1, 2, 3, 4], [], [], none, false⟩
theorem witness_boot_complete : mode (setReg (powerState { Modes.init with boot := some bootImg }) pgMode Off.MODE_STAT 3) = mVerify
    ∧ (powerState { Modes.init with boot := some bootImg }).mod.boot = some bootImg ∧ bootImg.slot < 2 ∧ leAt bootImg.plat 0 8 = 0x800000000 := by decide
theorem test_por_cause : reg (after (exec (.porstLow 0) tickState)) pgMode Off.RST_CAUSE = 1 ∧ mode (after (exec (.porstLow 0) tickState)) = mReset := by decide
theorem test_no_image_stops : mode (after (exec (.resetRelease [] 0) State.reset)) = mSafe := by decide

end Sys2Proof.Tests
end

section
/-!
The GOOSE windows (spec/08_carafe_publication.md R215, R219, R221, R224, R225): what a commit and a read of an entry do, from one rule for each
shared operation that they use.
-/
namespace Sys2Proof.Machine

/-! ### Frames of register operations -/

/-- Two steps together change the registers that either may change. -/
theorem OnlyRegs.append {l l' : List (Nat × Nat)} {s t u : State} (h : OnlyRegs l s t) (h' : OnlyRegs l' t u) : OnlyRegs (l ++ l') s u := by
  intro pg o ho hn
  rw [List.mem_append, not_or] at hn
  exact (h' pg o ho hn.2).trans (h pg o ho hn.1)

theorem setReg_onlyRegs (s : State) (pg o : Nat) (w : Word) (ho : o < 0x1000) : OnlyRegs [(pg, o)] s (setReg s pg o w) :=
  fun pg' off h hn => onlyRegs_setReg s pg o w ho pg' off h (mt List.mem_singleton.mpr hn)

theorem reg_orReg_ne (s : State) (pg o pg' o' : Nat) (m : Word) (h : pageAddr pg' o' ≠ pageAddr pg o) :
    reg (orReg s pg o m) pg' o' = reg s pg' o' := by
  rw [orReg, reg_setReg_ne _ _ _ _ _ _ h, reg_noteFlags]

/-- An error flag changes ERR_STAT, ERR_INFO and IRQ_STAT of its page (R21). -/
theorem flagErr_onlyRegs (s : State) (pg i off tid : Nat) (write : Bool) :
    OnlyRegs [(pg, Off.ERR_STAT), (pg, Off.ERR_INFO), (pg, Off.IRQ_STAT)] s (flagErr pg i off tid write s) := by
  intro pg' o ho hn
  simp only [List.mem_cons, List.not_mem_nil, or_false, not_or, Prod.mk.injEq] at hn
  obtain ⟨hstat, hinfo, hirq⟩ := hn
  have hne : ∀ o' < 0x1000, ¬(pg' = pg ∧ o = o') → pageAddr pg' o ≠ pageAddr pg o' := fun o' h' => mt (pageAddr_inj ho h').mp
  have hstat := hne Off.ERR_STAT (by decide) hstat
  have hinfo := hne Off.ERR_INFO (by decide) hinfo
  have hirq := hne Off.IRQ_STAT (by decide) hirq
  simp only [flagErr, flagErrInfo]
  split <;> split <;> simp [reg_setIrq_ne, reg_setReg_ne, reg_orReg_ne, hstat, hinfo, hirq]

/-- An error flag stands in ERR_STAT with those that stood (R21). -/
theorem errStat_flagErr (s : State) (pg i off tid : Nat) (write : Bool) :
    reg (flagErr pg i off tid write s) pg Off.ERR_STAT = reg s pg Off.ERR_STAT ||| 1 <<< i := by
  have hne : ∀ o < 0x1000, Off.ERR_STAT ≠ o → pageAddr pg Off.ERR_STAT ≠ pageAddr pg o :=
    fun o ho hn h => hn ((pageAddr_inj (by decide) ho).mp h).2
  have hinfo := hne Off.ERR_INFO (by decide) (by decide)
  have hirq := hne Off.IRQ_STAT (by decide) (by decide)
  simp only [flagErr, flagErrInfo]
  split <;> split <;> simp [reg_setIrq_ne, reg_setReg_ne, reg_orReg_ne, hinfo, hirq]

theorem regBit_flagErr (s : State) (pg i off tid : Nat) (write : Bool) (hi : i < 32) :
    regBit (flagErr pg i off tid write s) pg Off.ERR_STAT i = true := by
  rw [regBit, errStat_flagErr, bit, BitVec.getLsbD_or, BitVec.natCast_eq_ofNat, BitVec.getLsbD_ofNat]
  simp [hi, Nat.testBit_shiftLeft]

/-- The state with the access answered as done. -/
def answered (s : State) : State := { s with resp := .done }

@[simp] theorem answered_gse (s : State) : (answered s).gse = s.gse := rfl
@[simp] theorem answered_mem (s : State) : (answered s).mem = s.mem := rfl
@[simp] theorem reg_answered (s : State) (pg o : Nat) : reg (answered s) pg o = reg s pg o := reg_congr rfl rfl pg o

/-- A register set by an answered access. -/
theorem setReg_answered_onlyRegs (s : State) (pg o : Nat) (w : Word) (ho : o < 0x1000) : OnlyRegs [(pg, o)] s (setReg (answered s) pg o w) :=
  fun pg' off h hn => (setReg_onlyRegs (answered s) pg o w ho pg' off h hn).trans (reg_answered s pg' off)

/-- A command that ends in `t` reaches what holds of `t`. -/
theorem reaches_next {f t : State} {post : State → Prop} (h : f = t) (ht : post t) : Reaches (.next f) post := ⟨t, congrArg _ h, ht⟩

/-! ### Windows: the staging registers, and a commit that is refused -/

/-- Loading words into staging registers changes only registers. -/
theorem stage_frame (pg : Nat) (os : List Nat) (t : Tab Word) (s : State) : (stage pg os t s).gse = s.gse ∧ (stage pg os t s).mem = s.mem := by
  induction os generalizing s with
  | nil => exact ⟨rfl, rfl⟩
  | cons o os ih => exact ih (setReg s pg o (tget 0 t o))

theorem stage_onlyRegs (pg : Nat) (os : List Nat) (t : Tab Word) (s : State) (hos : ∀ o ∈ os, o < 0x1000) :
    OnlyRegs (os.map (fun o => (pg, o))) s (stage pg os t s) := by
  induction os generalizing s with
  | nil => exact fun _ _ _ _ => rfl
  | cons o os ih =>
    obtain ⟨ho, hos⟩ := List.forall_mem_cons.mp hos
    exact (setReg_onlyRegs s pg o _ ho).append (ih _ hos)

/-- Each staging register holds its word of the entry, also where an offset is listed twice. -/
theorem reg_stage (pg : Nat) (os : List Nat) (t : Tab Word) (s : State) (o : Nat) :
    reg (stage pg os t s) pg o = if o ∈ os then tget 0 t o else reg s pg o := by
  induction os generalizing s with
  | nil => rfl
  | cons o' os ih =>
    refine (ih (setReg s pg o' (tget 0 t o'))).trans ?_
    by_cases h : o = o'
    · subst h; simp
    · simp [h, reg_setReg_off _ _ _ _ _ h]

/-- READ of a window: the staging registers hold the entry's words, and nothing else changes. -/
theorem stage_loads (pg : Nat) (os : List Nat) (t : Tab Word) (s : State) (hos : ∀ o ∈ os, o < 0x1000) :
    let u := stage pg os t (answered s)
    (∀ o ∈ os, reg u pg o = tget 0 t o) ∧ u.gse = s.gse ∧ OnlyRegs (os.map (fun o => (pg, o))) s u ∧ MemSame s u := by
  obtain ⟨hgse, hmem⟩ := stage_frame pg os t (answered s)
  refine ⟨fun o ho => by rw [reg_stage, if_pos ho], hgse, fun pg' o ho hn => ?_, fun x => by rw [hmem, answered_mem]⟩
  exact (stage_onlyRegs pg os t (answered s) hos pg' o ho hn).trans (reg_answered s pg' o)

theorem pubOffs_inPage : ∀ o ∈ pubOffs, o < 0x1000 := by
  simp only [pubOffs, Off.P_GOCBREF, Off.P_DATSET, Off.P_GOID, Off.P_MEM, List.mem_append, List.mem_map, List.mem_range]
  omega

theorem gsubOffs_inPage : ∀ o ∈ gsubOffs, o < 0x1000 := by
  simp only [gsubOffs, Off.S_GOCBREF, Off.S_MAP, List.mem_append, List.mem_map, List.mem_range]
  omega

/-- A write to an entry of a tenant that runs no job is performed (R302). -/
theorem entryWrite_free {s : State} {t : Nat} (tid pg off : Nat) (body : State → State) (h : (tenOf s t).job = none) :
    entryWrite t tid pg off body s = body s := by
  simp [entryWrite, h]

/-- A commit answered with result `r`: the result shows in its register, and error flag 8 is set (R221). -/
theorem refusedCommit_shows (s : State) (pg o off tid : Nat) (r : Word) (ho : o < 0x1000) (hn : o ∉ [Off.ERR_STAT, Off.ERR_INFO, Off.IRQ_STAT]) :
    let t := flagErr pg 8 off tid true (setReg (answered s) pg o r)
    t.gse = s.gse ∧ reg t pg o = r ∧ regBit t pg Off.ERR_STAT 8 = true
      ∧ OnlyRegs [(pg, o), (pg, Off.ERR_STAT), (pg, Off.ERR_INFO), (pg, Off.IRQ_STAT)] s t ∧ MemSame s t := by
  have hflag := flagErr_onlyRegs (setReg (answered s) pg o r) pg 8 off tid true
  refine ⟨by simp, ?_, regBit_flagErr _ _ _ _ _ _ (by decide), (setReg_answered_onlyRegs s pg o r ho).append hflag, fun x => by simp⟩
  rw [hflag pg o ho (by simpa using hn), reg_setReg_same]

/-! ### Entries -/

@[simp] theorem pubOf_updPub_same (s : State) (p : Nat) (f : GsePub → GsePub) : pubOf (updPub p f s) p = f (pubOf s p) := by
  simp [pubOf, updPub]

theorem pubOf_updPub_ne (s : State) (p q : Nat) (f : GsePub → GsePub) (h : q ≠ p) : pubOf (updPub p f s) q = pubOf s q := by
  simp [pubOf, updPub, tget_tset_ne _ _ _ _ _ h]

@[simp] theorem gsubOf_updGsub_same (s : State) (k : Nat) (f : GseSub → GseSub) : gsubOf (updGsub k f s) k = f (gsubOf s k) := by
  simp [gsubOf, updGsub]

theorem gsubOf_updGsub_ne (s : State) (k j : Nat) (f : GseSub → GseSub) (h : j ≠ k) : gsubOf (updGsub k f s) j = gsubOf s j := by
  simp [gsubOf, updGsub, tget_tset_ne _ _ _ _ _ h]

@[simp] theorem reg_updPub (s : State) (p : Nat) (f : GsePub → GsePub) (pg o : Nat) : reg (updPub p f s) pg o = reg s pg o := reg_congr rfl rfl pg o
@[simp] theorem reg_updGsub (s : State) (k : Nat) (f : GseSub → GseSub) (pg o : Nat) : reg (updGsub k f s) pg o = reg s pg o := reg_congr rfl rfl pg o

/-- Publication `old` after the commit of `x` (R215). -/
def committedPub (x old : GsePub) : GsePub :=
  if pubEn x && pubEn old then { old with words := x.words }
  else if pubEn x then { x with fresh := true, sent := old.sent, gated := old.gated, keyErrs := old.keyErrs }
  else { old with words := x.words, next := none, fresh := false, restart := false }

theorem committedPub_words (x old : GsePub) : (committedPub x old).words = x.words := by
  unfold committedPub; split
  · rfl
  · split <;> rfl

/-- A publication that becomes enabled has not been transmitted yet. -/
theorem committedPub_fresh {x old : GsePub} (hx : pubEn x = true) (hold : pubEn old = false) : (committedPub x old).fresh = true := by
  simp [committedPub, hx, hold]

theorem committedPub_next {x : GsePub} (old : GsePub) (hx : pubEn x = false) : (committedPub x old).next = none := by
  simp [committedPub, hx]

/-- Subscription `old` after the commit of `x` (R219, R225). -/
def committedSub (x old : GseSub) : GseSub :=
  if gsubEn x && gsubEn old then { old with words := x.words, simSeen := false } else { x with image := old.image }

theorem committedSub_words (x old : GseSub) : (committedSub x old).words = x.words := by
  unfold committedSub; split <;> rfl

/-- The state of a subscription that was not enabled starts anew. -/
theorem committedSub_state (x : GseSub) {old : GseSub} (hold : gsubEn old = false) : (committedSub x old).state = x.state := by
  simp [committedSub, hold]

/-! ### The commands of the windows -/

/-- WRITE of the publication window, in order and while the entry's tenant runs no job, of an entry `x` whose checks end with result `r`. -/
theorem gsePubWrite_eq {s : State} {tid p r : Nat} {x : GsePub} (hj : judge s tid pgGse0 Off.PUB_CMD = .ok)
    (hp : regFld s pgGse0 Off.PUB_SEL 0 8 = p) (hjob : (tenOf s (pubTid (pubOf s p))).job = none)
    (hx : x = { GsePub.init with words := staged s pgGse0 pubOffs }) (hr : pubResult s p x = r) :
    gsePubWrite tid s =
      if r ≠ 0 then flagErr pgGse0 8 Off.PUB_CMD tid true (setReg (answered s) pgGse0 Off.PUB_RESULT (word r))
      else updPub p (fun _ => committedPub x (pubOf s p)) (setReg (answered s) pgGse0 Off.PUB_RESULT (word r)) := by
  subst hp hx hr
  exact (access_ok _ _ hj).trans (entryWrite_free (s := answered s) _ _ _ _ hjob)

/-- WRITE of the subscription window, in order and while the entry's tenant runs no job, of an entry `x` whose checks end with result `r`. -/
theorem gseSubWrite_eq {s : State} {tid k r : Nat} {x : GseSub} (hj : judge s tid pgGse1 Off.GSUB_CMD = .ok)
    (hk : regFld s pgGse1 Off.GSUB_SEL 0 10 = k) (hjob : (tenOf s (gsubTid (gsubOf s k))).job = none)
    (hx : x = { GseSub.init with words := staged s pgGse1 gsubOffs }) (hr : gsubResult s k x = r) :
    gseSubWrite tid s =
      if r ≠ 0 then flagErr pgGse1 8 Off.GSUB_CMD tid true (setReg (answered s) pgGse1 Off.GSUB_RESULT (word r))
      else updGsub k (fun _ => committedSub x (gsubOf s k)) (setReg (answered s) pgGse1 Off.GSUB_RESULT (word r)) := by
  subst hk hx hr
  exact (access_ok _ _ hj).trans (entryWrite_free (s := answered s) _ _ _ _ hjob)

/-- READ of the publication window, in order. -/
theorem gsePubRead_eq {s : State} {tid p : Nat} (hj : judge s tid pgGse0 Off.PUB_CMD = .ok) (hp : regFld s pgGse0 Off.PUB_SEL 0 8 = p) :
    gsePubRead tid s = stage pgGse0 pubOffs (pubOf s p).words (answered s) := by
  subst hp
  exact access_ok _ _ hj

/-- READ of the subscription window, in order. -/
theorem gseSubRead_eq {s : State} {tid k : Nat} (hj : judge s tid pgGse1 Off.GSUB_CMD = .ok) (hk : regFld s pgGse1 Off.GSUB_SEL 0 10 = k) :
    gseSubRead tid s = stage pgGse1 gsubOffs (gsubOf s k).words (answered s) := by
  subst hk
  exact access_ok _ _ hj

/-! ### The statement -/

/-- Settles O40: each command is its named effect on the state with the access answered, and the rule of that effect gives the clause. -/
theorem gooseWindows : Obligations.goose_windows := by
  unfold Obligations.goose_windows
  refine ⟨?pubCommit, ?pubRefused, ?pubRead, ?subCommit, ?subRefused, ?subRead⟩
  case pubCommit =>
    intro s tid p x hj hp hjob hx hr
    refine reaches_next (gsePubWrite_eq hj hp hjob hx hr) ?_
    have hregs := setReg_answered_onlyRegs s pgGse0 Off.PUB_RESULT 0 (by decide)
    exact ⟨by simp [committedPub_words], fun q hq => pubOf_updPub_ne _ p q _ hq, rfl, by simpa using committedPub_fresh,
      by simpa using committedPub_next _, (reg_updPub ..).trans (reg_setReg_same ..),
      fun pg o ho hn => (reg_updPub ..).trans (hregs pg o ho hn), fun _ => rfl⟩
  case subCommit =>
    intro s tid k x hj hk hjob hx hr
    refine reaches_next (gseSubWrite_eq hj hk hjob hx hr) ?_
    have hregs := setReg_answered_onlyRegs s pgGse1 Off.GSUB_RESULT 0 (by decide)
    exact ⟨by simp [committedSub_words], fun q hq => gsubOf_updGsub_ne _ k q _ hq, rfl, fun hold => by simp [committedSub_state _ hold, hx, GseSub.init],
      (reg_updGsub ..).trans (reg_setReg_same ..), fun pg o ho hn => (reg_updGsub ..).trans (hregs pg o ho hn), fun _ => rfl⟩
  case pubRefused =>
    intro s tid p r hj hp hjob hr h0
    exact reaches_next ((gsePubWrite_eq hj hp hjob rfl hr).trans (if_pos h0)) (refusedCommit_shows s _ _ _ _ _ (by decide) (by decide))
  case subRefused =>
    intro s tid k r hj hk hjob hr h0
    exact reaches_next ((gseSubWrite_eq hj hk hjob rfl hr).trans (if_pos h0)) (refusedCommit_shows s _ _ _ _ _ (by decide) (by decide))
  case pubRead =>
    intro s tid p hj hp
    exact reaches_next (gsePubRead_eq hj hp) (stage_loads _ _ _ _ pubOffs_inPage)
  case subRead =>
    intro s tid k hj hk
    exact reaches_next (gseSubRead_eq hj hk) (stage_loads _ _ _ _ gsubOffs_inPage)

end Sys2Proof.Machine
end

section
/-!
The pulse outputs (spec/09_quantity_engine.md R242, R244, R245, R248): one rule for each operation on an output's status and counters, the
frame that every operation of one output keeps, and from these what the commands and the events of an output do.
-/
namespace Sys2Proof.Machine

/-! ### Register fields -/

/-- Each bit of a field is the bit of the word at its place. -/
theorem testBit_fld (w : Word) (lo n j : Nat) : (fld w lo n).testBit j = (decide (j < n) && bit w (lo + j)) := by
  rw [fld, Nat.testBit_mod_two_pow, Nat.testBit_div_two_pow, bit, BitVec.getLsbD, Nat.add_comm j lo]

/-- Setting a field keeps the bits above it and below it in place. -/
theorem toNat_setFld (w : Word) (lo n v : Nat) (h : lo + n ≤ 32) :
    (setFld w lo n v).toNat = 2 ^ lo * (2 ^ n * (w.toNat / 2 ^ lo / 2 ^ n) + v % 2 ^ n) + w.toNat % 2 ^ lo := by
  have hlow := Nat.div_add_mod w.toNat (2 ^ lo)
  have hfld := Nat.div_add_mod (w.toNat / 2 ^ lo) (2 ^ n)
  have hsize : (2 : Nat) ^ 32 = 2 ^ lo * (2 ^ n * 2 ^ (32 - (lo + n))) := by
    rw [← Nat.pow_add, ← Nat.pow_add, show lo + (n + (32 - (lo + n))) = 32 by omega]
  have habove : w.toNat / 2 ^ lo / 2 ^ n < 2 ^ (32 - (lo + n)) := by
    rw [Nat.div_div_eq_div_mul, Nat.div_lt_iff_lt_mul (Nat.mul_pos (Nat.two_pow_pos lo) (Nat.two_pow_pos n)), Nat.mul_comm, Nat.mul_assoc, ← hsize]
    exact w.isLt
  have hv : v % 2 ^ n < 2 ^ n := Nat.mod_lt _ (Nat.two_pow_pos _)
  have ha : w.toNat % 2 ^ lo < 2 ^ lo := Nat.mod_lt _ (Nat.two_pow_pos _)
  generalize hc : w.toNat / 2 ^ lo / 2 ^ n = c at *
  have hshape : w.toNat - fld w lo n * 2 ^ lo + v % 2 ^ n * 2 ^ lo = 2 ^ lo * (2 ^ n * c + v % 2 ^ n) + w.toNat % 2 ^ lo := by
    have hsplit : ∀ m, 2 ^ lo * (2 ^ n * c + m) = 2 ^ lo * (2 ^ n * c) + m * 2 ^ lo := fun m => by rw [Nat.mul_add, Nat.mul_comm m]
    have hword : w.toNat = 2 ^ lo * (2 ^ n * c) + w.toNat % 2 ^ lo + fld w lo n * 2 ^ lo := by
      have hq := hsplit (fld w lo n)
      rw [fld, hfld] at hq
      rw [fld]
      omega
    rw [Nat.sub_eq_of_eq_add hword, hsplit]
    omega
  have hfits : 2 ^ lo * (2 ^ n * c + v % 2 ^ n) + w.toNat % 2 ^ lo < 2 ^ 32 :=
    calc 2 ^ lo * (2 ^ n * c + v % 2 ^ n) + w.toNat % 2 ^ lo
      _ < 2 ^ lo * (2 ^ n * c + v % 2 ^ n + 1) := by rw [Nat.mul_succ]; omega
      _ ≤ 2 ^ lo * (2 ^ n * (c + 1)) := Nat.mul_le_mul_left _ (by rw [Nat.mul_succ]; omega)
      _ ≤ 2 ^ 32 := hsize ▸ Nat.mul_le_mul_left _ (Nat.mul_le_mul_left _ habove)
  rw [setFld, hshape, BitVec.toNat_ofNat, Nat.mod_eq_of_lt hfits]

/-- Setting a field replaces its bits and keeps the others. -/
theorem bit_setFld (w : Word) (lo n v i : Nat) (h : lo + n ≤ 32) :
    bit (setFld w lo n v) i = if lo ≤ i ∧ i < lo + n then v.testBit (i - lo) else bit w i := by
  have ha : w.toNat % 2 ^ lo < 2 ^ lo := Nat.mod_lt _ (Nat.two_pow_pos _)
  have hv : v % 2 ^ n < 2 ^ n := Nat.mod_lt _ (Nat.two_pow_pos _)
  rw [bit, BitVec.getLsbD, toNat_setFld _ _ _ _ h, Nat.testBit_two_pow_mul_add _ ha, Nat.testBit_two_pow_mul_add _ hv,
    Nat.testBit_mod_two_pow, Nat.testBit_mod_two_pow, Nat.testBit_div_two_pow, Nat.testBit_div_two_pow, bit, BitVec.getLsbD]
  rcases Nat.lt_or_ge i lo with hlo | hlo
  · simp [hlo, Nat.not_le.mpr hlo]
  · rcases Nat.lt_or_ge i (lo + n) with hn | hn
    · have hin : i - lo < n := by omega
      simp [hlo, hn, hin, Nat.not_lt.mpr hlo]
    · have hin : ¬i - lo < n := by omega
      have hpos : i - lo - n + n + lo = i := by omega
      simp [hlo, hin, Nat.not_lt.mpr hlo, Nat.not_lt.mpr hn, hpos]

/-- A field just set is read back modulo its size. -/
theorem fld_setFld_same (w : Word) (lo n v : Nat) (h : lo + n ≤ 32) : fld (setFld w lo n v) lo n = v % 2 ^ n := by
  refine Nat.eq_of_testBit_eq fun j => ?_
  rw [testBit_fld, bit_setFld _ _ _ _ _ h, Nat.testBit_mod_two_pow]
  by_cases hj : j < n <;> simp [hj]

/-- Setting a field leaves every field that lies apart from it. -/
theorem fld_setFld_apart (w : Word) (lo n v lo' n' : Nat) (h : lo + n ≤ 32) (ha : lo + n ≤ lo' ∨ lo' + n' ≤ lo) :
    fld (setFld w lo n v) lo' n' = fld w lo' n' := by
  refine Nat.eq_of_testBit_eq fun j => ?_
  rw [testBit_fld, testBit_fld, bit_setFld _ _ _ _ _ h]
  by_cases hj : j < n'
  · rw [if_neg (by omega)]
  · simp [hj]

/-- A bit of a word that a mask keeps. -/
theorem bit_and_mask (w m : Word) (i : Nat) (h : bit m i = true) : bit (w &&& m) i = bit w i := by
  rw [bit, BitVec.getLsbD_and, show m.getLsbD i = true from h, Bool.and_true, bit]

/-! ### The registers and the state of an output -/

theorem poOff_ne {f f' o : Nat} (h : f' ≠ f) : f' + 0x20 * o ≠ f + 0x20 * o := by omega

@[simp] theorem outOf_updOut_same (s : State) (o : Nat) (f : PulseOut → PulseOut) : outOf (updOut o f s) o = f (outOf s o) := by
  simp [outOf, updOut]

theorem outOf_updOut_ne (s : State) (o p : Nat) (f : PulseOut → PulseOut) (h : p ≠ o) : outOf (updOut o f s) p = outOf s p := by
  simp [outOf, updOut, tget_tset_ne _ _ _ _ _ h]

@[simp] theorem reg_updOut (s : State) (o : Nat) (f : PulseOut → PulseOut) (pg off : Nat) : reg (updOut o f s) pg off = reg s pg off :=
  reg_congr rfl rfl pg off

/-- A pulse output depends on the meter alone. -/
theorem outOf_congr {s t : State} (h : t.met = s.met) (o : Nat) : outOf t o = outOf s o := by rw [outOf, h, outOf]

@[simp] theorem outOf_setBacklog (o n : Nat) (s : State) (p : Nat) : outOf (setBacklog o n s) p = outOf s p := rfl
@[simp] theorem outOf_setHigh (o : Nat) (b : Bool) (s : State) (p : Nat) : outOf (setHigh o b s) p = outOf s p := rfl
@[simp] theorem outOf_countOut (o off n : Nat) (s : State) (p : Nat) : outOf (countOut o off n s) p = outOf s p := rfl
@[simp] theorem outOf_advance (s : State) (tm o : Nat) : outOf (advance s tm) o = outOf s o := rfl
@[simp] theorem answered_met (s : State) : (answered s).met = s.met := rfl
@[simp] theorem outOf_answered (s : State) (o : Nat) : outOf (answered s) o = outOf s o := rfl

@[simp] theorem po_updOut (s : State) (o : Nat) (f : PulseOut → PulseOut) (p off : Nat) : po (updOut o f s) p off = po s p off := reg_updOut ..
@[simp] theorem po_advance (s : State) (tm p off : Nat) : po (advance s tm) p off = po s p off := reg_advance ..
@[simp] theorem po_answered (s : State) (p off : Nat) : po (answered s) p off = po s p off := reg_answered ..

theorem po_setReg_same (s : State) (o f : Nat) (w : Word) : po (setReg s pgPul (f + 0x20 * o) w) o f = w := reg_setReg_same ..

theorem po_setReg_ne (s : State) (o f f' : Nat) (w : Word) (h : f' ≠ f) : po (setReg s pgPul (f + 0x20 * o) w) o f' = po s o f' :=
  reg_setReg_off _ _ _ _ _ (poOff_ne h)

/-- HIGH and BACKLOG of an output lie in its PO_STAT. -/
theorem poHigh_congr {s t : State} {o : Nat} (h : po t o Off.PO_STAT = po s o Off.PO_STAT) : poHigh t o = poHigh s o := by
  rw [poHigh, h, poHigh]
theorem poBacklog_congr {s t : State} {o : Nat} (h : po t o Off.PO_STAT = po s o Off.PO_STAT) : poBacklog t o = poBacklog s o := by
  rw [poBacklog, h, poBacklog]

@[simp] theorem poHigh_updOut (s : State) (o : Nat) (f : PulseOut → PulseOut) (p : Nat) : poHigh (updOut o f s) p = poHigh s p :=
  poHigh_congr (po_updOut ..)
@[simp] theorem poBacklog_updOut (s : State) (o : Nat) (f : PulseOut → PulseOut) (p : Nat) : poBacklog (updOut o f s) p = poBacklog s p :=
  poBacklog_congr (po_updOut ..)
@[simp] theorem poHigh_advance (s : State) (tm o : Nat) : poHigh (advance s tm) o = poHigh s o := poHigh_congr (po_advance ..)
@[simp] theorem poBacklog_advance (s : State) (tm o : Nat) : poBacklog (advance s tm) o = poBacklog s o := poBacklog_congr (po_advance ..)

theorem po_setBacklog_ne (o n : Nat) (s : State) (f : Nat) (h : f ≠ Off.PO_STAT) : po (setBacklog o n s) o f = po s o f :=
  po_setReg_ne _ _ _ _ _ h
theorem po_setHigh_ne (o : Nat) (b : Bool) (s : State) (f : Nat) (h : f ≠ Off.PO_STAT) : po (setHigh o b s) o f = po s o f :=
  po_setReg_ne _ _ _ _ _ h
theorem po_countOut_ne (o off n : Nat) (s : State) (f : Nat) (h : f ≠ off) : po (countOut o off n s) o f = po s o f :=
  po_setReg_ne (noteCount pgPul (off + 0x20 * o) n s) _ _ _ _ h
theorem po_countOut_same (o off n : Nat) (s : State) : po (countOut o off n s) o off = po s o off + word n := reg_countReg_same ..

theorem poBacklog_setBacklog (o n : Nat) (s : State) (h : n < 65536) : poBacklog (setBacklog o n s) o = n := by
  rw [poBacklog, setBacklog, setRegFld, po_setReg_same, fld_setFld_same _ _ _ _ (by decide)]
  exact Nat.mod_eq_of_lt h

@[simp] theorem poBacklog_setHigh (o : Nat) (b : Bool) (s : State) : poBacklog (setHigh o b s) o = poBacklog s o := by
  rw [poBacklog, setHigh, setRegFld, po_setReg_same, fld_setFld_apart _ _ _ _ _ _ (by decide) (by decide)]; rfl

@[simp] theorem poHigh_setHigh (o : Nat) (b : Bool) (s : State) : poHigh (setHigh o b s) o = b := by
  rw [poHigh, setHigh, setRegFld, po_setReg_same, bit_setFld _ _ _ _ _ (by decide), if_pos (by decide)]; cases b <;> rfl

/-! ### What an operation of one output leaves alone -/

/-- No other pulse output changes, no register but those listed, and no memory. -/
def OnlyPulse (o : Nat) (l : List (Nat × Nat)) (s t : State) : Prop :=
  (∀ p, p ≠ o → outOf t p = outOf s p) ∧ OnlyRegs l s t ∧ MemSame s t

/-- The registers of an output that its pulses, its enable and its disable change. -/
def pulseRegs (o : Nat) : List (Nat × Nat) :=
  [Off.PO_CFG, Off.PO_STAT, Off.PO_COUNT, Off.PO_GATED, Off.PO_LOST].map (fun f => (pgPul, f + 0x20 * o)) ++ [(pgPul, Off.IRQ_STAT)]

section
variable {o : Nat} {l : List (Nat × Nat)} {s t u : State}

theorem OnlyPulse.refl : OnlyPulse o l s s := ⟨fun _ _ => rfl, fun _ _ _ _ => rfl, fun _ => rfl⟩

theorem OnlyPulse.trans (h : OnlyPulse o l s t) (h' : OnlyPulse o l t u) : OnlyPulse o l s u := by
  obtain ⟨hout, hregs, hmem⟩ := h
  obtain ⟨hout', hregs', hmem'⟩ := h'
  exact ⟨fun p hp => (hout' p hp).trans (hout p hp), fun pg off ho hn => (hregs' pg off ho hn).trans (hregs pg off ho hn),
    fun x => (hmem' x).trans (hmem x)⟩

/-- Time, the answer and the notes of a fabric cycle enter no output, no register and no memory. -/
theorem onlyPulse_congr (hv : t.variant = s.variant) (hr : t.regs = s.regs) (hmet : t.met = s.met) (hmem : t.mem = s.mem) : OnlyPulse o l s t :=
  ⟨fun p _ => outOf_congr hmet p, fun pg off _ _ => reg_congr hv hr pg off, fun x => by rw [hmem]⟩

theorem advance_onlyPulse (tm : Nat) : OnlyPulse o l s (advance s tm) := onlyPulse_congr rfl rfl rfl rfl

theorem answered_onlyPulse : OnlyPulse o l s (answered s) := onlyPulse_congr rfl rfl rfl rfl

theorem updOut_onlyPulse (f : PulseOut → PulseOut) : OnlyPulse o l s (updOut o f s) :=
  ⟨fun p hp => outOf_updOut_ne s o p f hp, fun pg off _ _ => reg_updOut s o f pg off, fun _ => rfl⟩

theorem setReg_onlyPulse {pg f : Nat} (w : Word) (hf : f < 0x1000) (hm : (pg, f) ∈ l) : OnlyPulse o l s (setReg s pg f w) :=
  ⟨fun _ _ => rfl, fun pg' off ho hn => onlyRegs_setReg s pg f w hf pg' off ho (fun e => hn (e ▸ hm)), fun _ => rfl⟩

theorem countOut_onlyPulse {f : Nat} (n : Nat) (hf : f + 0x20 * o < 0x1000) (hm : (pgPul, f + 0x20 * o) ∈ l) :
    OnlyPulse o l s (countOut o f n s) :=
  OnlyPulse.trans (t := noteCount pgPul (f + 0x20 * o) n s) (onlyPulse_congr rfl rfl rfl rfl) (setReg_onlyPulse _ hf hm)

theorem setIrq_onlyPulse (m : Word) (hm : (pgPul, Off.IRQ_STAT) ∈ l) : OnlyPulse o l s (setIrq pgPul m s) := by
  refine ⟨fun p _ => outOf_congr (by simp) p, fun pg off ho hn => reg_setIrq_ne s pgPul pg off m ?_, fun x => by simp⟩
  rw [ne_eq, pageAddr_inj ho (by decide)]
  rintro ⟨rfl, rfl⟩
  exact hn hm

/-- Steps of one output, one after another. -/
theorem foldl_onlyPulse {α : Type} (f : State → α → State) (hf : ∀ s a, OnlyPulse o l s (f s a)) (as : List α) (s : State) :
    OnlyPulse o l s (as.foldl f s) := by
  induction as generalizing s with
  | nil => exact .refl
  | cons a as ih => exact (hf s a).trans (ih (f s a))

theorem setBacklog_onlyPulse (ho : o < 8) (n : Nat) (hm : (pgPul, Off.PO_STAT + 0x20 * o) ∈ l) : OnlyPulse o l s (setBacklog o n s) :=
  setReg_onlyPulse _ (by simp only [Off.PO_STAT]; omega) hm

theorem setHigh_onlyPulse (ho : o < 8) (b : Bool) (hm : (pgPul, Off.PO_STAT + 0x20 * o) ∈ l) : OnlyPulse o l s (setHigh o b s) :=
  setReg_onlyPulse _ (by simp only [Off.PO_STAT]; omega) hm

/-- A pulse that begins changes PO_STAT and PO_COUNT of its output. -/
theorem raisePulse_onlyPulse (ho : o < 8) (tm : Nat) (hstat : (pgPul, Off.PO_STAT + 0x20 * o) ∈ l) (hcount : (pgPul, Off.PO_COUNT + 0x20 * o) ∈ l) :
    OnlyPulse o l s (raisePulse o tm s) :=
  ((updOut_onlyPulse _).trans (setHigh_onlyPulse ho true hstat)).trans (countOut_onlyPulse 1 (by simp only [Off.PO_COUNT]; omega) hcount)

theorem mem_pulseRegs {f : Nat} (h : f ∈ [Off.PO_CFG, Off.PO_STAT, Off.PO_COUNT, Off.PO_GATED, Off.PO_LOST]) :
    (pgPul, f + 0x20 * o) ∈ pulseRegs o :=
  List.mem_append_left _ (List.mem_map_of_mem h)

theorem irq_mem_pulseRegs : (pgPul, Off.IRQ_STAT) ∈ pulseRegs o := List.mem_append_right _ (List.mem_singleton_self _)

theorem startQueued_onlyPulse (ho : o < 8) (tm : Nat) (s : State) : OnlyPulse o (pulseRegs o) s (startQueued o tm s) := by
  unfold startQueued
  split
  · exact (setBacklog_onlyPulse ho _ (mem_pulseRegs (by decide))).trans
      (raisePulse_onlyPulse ho tm (mem_pulseRegs (by decide)) (mem_pulseRegs (by decide)))
  · exact .refl

theorem endPulse_onlyPulse (ho : o < 8) (tm : Nat) (hm : (pgPul, Off.PO_STAT + 0x20 * o) ∈ l) (s : State) : OnlyPulse o l s (endPulse o tm s) := by
  simp only [endPulse]
  split
  · exact (updOut_onlyPulse _).trans (setHigh_onlyPulse ho false hm)
  · exact .refl

theorem endLow_onlyPulse (ho : o < 8) (tm : Nat) (s : State) : OnlyPulse o (pulseRegs o) s (endLow o tm s) := by
  unfold endLow
  split
  · split
    · exact (updOut_onlyPulse _).trans (startQueued_onlyPulse ho _ _)
    · exact .refl
  · exact .refl

theorem outTo_onlyPulse (ho : o < 8) (tm n : Nat) (s : State) : OnlyPulse o (pulseRegs o) s (outTo o tm n s) := by
  induction n generalizing s with
  | zero => exact .refl
  | succ n ih =>
    have hround := (endPulse_onlyPulse ho tm (mem_pulseRegs (by decide)) s).trans (endLow_onlyPulse ho tm _)
    simp only [outTo]
    split
    · exact hround.trans (ih _)
    · exact hround

theorem placePulse_onlyPulse (ho : o < 8) (tm : Nat) (s : State) : OnlyPulse o (pulseRegs o) s (placePulse o tm s) := by
  unfold placePulse
  split
  · exact raisePulse_onlyPulse ho tm (mem_pulseRegs (by decide)) (mem_pulseRegs (by decide))
  · split
    · exact (setBacklog_onlyPulse ho _ (mem_pulseRegs (by decide))).trans (startQueued_onlyPulse ho tm _)
    · exact (countOut_onlyPulse 1 (by simp only [Off.PO_LOST]; omega) (mem_pulseRegs (by decide))).trans (setIrq_onlyPulse 1 irq_mem_pulseRegs)

theorem pulseDue_onlyPulse (ho : o < 8) (tm : Nat) (s : State) : OnlyPulse o (pulseRegs o) s (pulseDue o tm s) := by
  have hserve := outTo_onlyPulse ho tm (poBacklog s o + 2) s
  simp only [pulseDue]
  split
  · exact hserve.trans (countOut_onlyPulse 1 (by simp only [Off.PO_GATED]; omega) (mem_pulseRegs (by decide)))
  · exact hserve.trans (placePulse_onlyPulse ho tm _)

/-- The carries of an output change only what its pulses change. -/
theorem residueRun_onlyPulse (ho : o < 8) (f : Nat) (s : State) : OnlyPulse o (pulseRegs o) s (residueRun o f s) :=
  (updOut_onlyPulse _).trans (foldl_onlyPulse _ (fun s c => pulseDue_onlyPulse ho (2 * c) s) _ _)

theorem quietOut_onlyPulse (ho : o < 8) (s : State) : OnlyPulse o (pulseRegs o) s (quietOut o s) :=
  ((updOut_onlyPulse _).trans (setBacklog_onlyPulse ho 0 (mem_pulseRegs (by decide)))).trans (setHigh_onlyPulse ho false (mem_pulseRegs (by decide)))

end

/-! ### Pulses (R242) -/

/-- A pulse that begins at `tm` drives the output high for WIDTH × 10 µs and is counted. -/
theorem raisePulse_raises (o tm : Nat) (s : State) :
    let t := raisePulse o tm s
    let w := fld (po s o Off.PO_WIDTH) 0 16 * 12000
    poHigh t o = true ∧ poBacklog t o = poBacklog s o ∧ po t o Off.PO_COUNT = po s o Off.PO_COUNT + 1
      ∧ outOf t o = { outOf s o with highEnd := tm + w, width := w, lowEnd := none } := by
  intro t w
  have hstat : ∀ u : State, po (countOut o Off.PO_COUNT 1 u) o Off.PO_STAT = po u o Off.PO_STAT := fun u => po_countOut_ne _ _ _ _ _ (by decide)
  refine ⟨(poHigh_congr (hstat _)).trans (poHigh_setHigh ..), (poBacklog_congr (hstat _)).trans ?_, (po_countOut_same ..).trans ?_, ?_⟩
  · simp
  · rw [po_setHigh_ne _ _ _ _ (by decide), po_updOut]; rfl
  · simp [t, w, raisePulse]

/-- An output that is low, and whose low time has passed, is served by any instant. -/
theorem serveOut_idle {o : Nat} {s : State} (tm : Nat) (hhigh : poHigh s o = false) (hlow : (outOf s o).lowEnd = none) : serveOut o tm s = s := by
  have hend : endPulse o tm s = s := by simp [endPulse, hhigh]
  have hround : endLow o tm (endPulse o tm s) = s := by rw [hend, endLow, hlow]
  simp [serveOut, outTo, hround, hhigh]

/-- A queued pulse begins where the output is free and enabled and the gate is open. -/
theorem startQueued_starts {o : Nat} {s : State} (tm : Nat) (hhigh : poHigh s o = false) (hlow : (outOf s o).lowEnd = none) (hq : 0 < poBacklog s o)
    (hgate : gateOpen s = true) (hon : pulOn s = true) (hen : poEn s o = true) :
    startQueued o tm s = raisePulse o tm (setBacklog o (poBacklog s o - 1) s) := by
  have hgate : gateIsOpen s = true := hgate
  simp [startQueued, hhigh, hlow, hq, hgate, hon, hen]

/-- Without a queued pulse none begins. -/
theorem startQueued_empty {o : Nat} {s : State} (tm : Nat) (hq : poBacklog s o = 0) : startQueued o tm s = s := by simp [startQueued, hq]

/-- A pulse that falls due at a free output without a queue begins, or is only counted where the gate is closed. -/
theorem pulseDue_idle {o : Nat} {s : State} (tm : Nat) (hhigh : poHigh s o = false) (hlow : (outOf s o).lowEnd = none) (hq : poBacklog s o = 0) :
    pulseDue o tm s = if gateOpen s then raisePulse o tm s else countOut o Off.PO_GATED 1 s := by
  have hgate : gateIsOpen s = gateOpen s := rfl
  rw [pulseDue, serveOut_idle tm hhigh hlow, hgate]
  cases hopen : gateOpen s <;> simp [placePulse, hgate, hopen, hhigh, hlow, hq]

/-- A pulse whose width has passed goes low, its low time as long as its width. -/
theorem endPulse_ends {o tm : Nat} {s : State} (hhigh : poHigh s o = true) (hend : (outOf s o).highEnd ≤ tm) :
    endPulse o tm s = setHigh o false (updOut o (fun x => { x with lowEnd := some (x.highEnd + x.width) }) s) := by
  simp [endPulse, hhigh, hend]

/-- A low time that has passed ends, with no further pulse where none is queued. -/
theorem endLow_ends {o tm e : Nat} {s : State} (hhigh : poHigh s o = false) (hlow : (outOf s o).lowEnd = some e) (he : e ≤ tm)
    (hq : poBacklog s o = 0) : endLow o tm s = updOut o (fun x => { x with lowEnd := none }) s := by
  have hempty := startQueued_empty (o := o) (s := updOut o (fun x => { x with lowEnd := none }) s) e (by simpa using hq)
  simp [endLow, hlow, hhigh, he, hempty]

/-! ### Residue mode (R244) -/

/-- The output with ACC_RES at `acc` before fabric cycle `f`. -/
def residueAt (acc f : Nat) (x : PulseOut) : PulseOut := { x with acc := acc, since := some f }

@[simp] theorem residueAt_acc (acc f : Nat) (x : PulseOut) : (residueAt acc f x).acc = acc := rfl
@[simp] theorem residueAt_since (acc f : Nat) (x : PulseOut) : (residueAt acc f x).since = some f := rfl
@[simp] theorem residueAt_lowEnd (acc f : Nat) (x : PulseOut) : (residueAt acc f x).lowEnd = x.lowEnd := rfl

/-- A sum below 2^48 stands as it is. -/
theorem residueTo_noCarry {x : PulseOut} {b f : Nat} (hsince : x.since = some b) (hb : b ≤ f) (h : x.acc + x.inc * (f - b + 1) < 2 ^ 48) :
    residueTo x f = (x.acc + x.inc * (f - b + 1), []) := by
  by_cases hinc : x.inc = 0
  · simp [residueTo, hsince, hinc]
  · simp only [residueTo, hsince, hinc, Nat.not_lt.mpr hb, decide_false, Bool.or_self, Bool.false_eq_true, if_false, Nat.mod_eq_of_lt h,
      Nat.div_eq_of_lt h, List.range_zero, List.map_nil]

/-- A sum of 2^48 or more, but below twice that, carries once. -/
theorem residueTo_oneCarry {x : PulseOut} {b f : Nat} (hsince : x.since = some b) (hb : b ≤ f) (hlo : 2 ^ 48 ≤ x.acc + x.inc * (f - b + 1))
    (hhi : x.acc + x.inc * (f - b + 1) < 2 * 2 ^ 48) (hacc : x.acc < 2 ^ 48) :
    ∃ c, residueTo x f = (x.acc + x.inc * (f - b + 1) - 2 ^ 48, [c]) := by
  have hinc : x.inc ≠ 0 := by
    intro h0
    rw [h0, Nat.zero_mul] at hlo
    omega
  have hdiv : (x.acc + x.inc * (f - b + 1)) / 2 ^ 48 = 1 := Nat.div_eq_of_lt_le (by omega) (by omega)
  have hmod : (x.acc + x.inc * (f - b + 1)) % 2 ^ 48 = x.acc + x.inc * (f - b + 1) - 2 ^ 48 := by
    rw [Nat.mod_eq_sub_mod hlo, Nat.mod_eq_of_lt (by omega)]
  simp only [residueTo, hsince, hinc, Nat.not_lt.mpr hb, decide_false, Bool.or_self, Bool.false_eq_true, if_false, hdiv, hmod, List.range_one,
    List.map_cons, List.map_nil]
  exact ⟨_, rfl⟩

/-! ### The commands of an output -/

/-- PULSE_ENABLE of a disabled output: a result other than 0 is shown and refused, and otherwise the output starts empty (R245). -/
theorem poCfgWrite_enable {s : State} {tid o r : Nat} {d : Word} (ho : o < 8) (hj : judge s tid pgPul (Off.PO_CFG + 0x20 * o) = .ok)
    (hen : poEn s o = false) (hd : bit d 0 = true) (hr : poResult s o (d &&& 0x000F7F77) = r) :
    let s1 := setRegFld (answered s) pgPul (Off.PO_STAT + 0x20 * o) 20 4 r
    poCfgWrite tid o d s =
      if r ≠ 0 then refuse pgPul 8 (Off.PO_CFG + 0x20 * o) tid s1
      else updOut o (fun _ => { PulseOut.init with kres := if bit d 1 then kRes (po s o Off.PO_KH).toNat else 0 })
        (setReg s1 pgPul (Off.PO_CFG + 0x20 * o) (d &&& 0x000F7F77)) := by
  have hold : bit (po s o Off.PO_CFG) 0 = false := hen
  have hr' : poResult (answered s) o (d &&& 0x000F7F77) = r := hr
  have hnew : ∀ i, bit 0x000F7F77 i = true → bit (d &&& 0x000F7F77) i = bit d i := bit_and_mask d 0x000F7F77
  rw [poCfgWrite, if_neg (Nat.not_le.mpr ho)]
  refine (access_ok _ _ hj).trans ?_
  simp only [show ({ s with resp := .done } : State) = answered s from rfl, po_answered, hold, hr', hnew 0 (by decide), hnew 1 (by decide), hd,
    Bool.false_eq_true, if_false, if_true]

/-- PULSE_DISABLE of an enabled output: its carries so far are taken, then it is low, without a queue, and holds nothing (R245). -/
theorem poCfgWrite_disable {s : State} {tid o : Nat} {d : Word} (ho : o < 8) (hj : judge s tid pgPul (Off.PO_CFG + 0x20 * o) = .ok)
    (hen : poEn s o = true) (hd : bit d 0 = false) (hsame : (d &&& 0x000F7F77) ||| 1 = po s o Off.PO_CFG ||| 1) :
    poCfgWrite tid o d s =
      setReg (quietOut o (residueRun o (s.now / 2) (answered s))) pgPul (Off.PO_CFG + 0x20 * o) (d &&& 0x000F7F77) := by
  have hold : bit (po s o Off.PO_CFG) 0 = true := hen
  have hnew : bit (d &&& 0x000F7F77) 0 = false := (bit_and_mask d _ 0 (by decide)).trans hd
  rw [poCfgWrite, if_neg (Nat.not_le.mpr ho)]
  refine (access_ok _ _ hj).trans ?_
  simp only [show ({ s with resp := .done } : State) = answered s from rfl, po_answered, hold, hnew, hsame, Bool.false_eq_true, if_false, if_true,
    ne_eq, not_true]

/-- The result of an enable fits its field. -/
theorem poResult_lt (s : State) (o : Nat) (w : Word) : poResult s o w < 2 ^ 4 := by
  simp only [poResult]
  repeat' split
  all_goals decide

/-- An output enabled with configuration `w` starts as `x`, and nothing else changes. -/
theorem poEnabled_shows {o : Nat} (ho : o < 8) (s : State) (w : Word) (x : PulseOut) :
    let t := updOut o (fun _ => x) (setReg (setRegFld (answered s) pgPul (Off.PO_STAT + 0x20 * o) 20 4 0) pgPul (Off.PO_CFG + 0x20 * o) w)
    po t o Off.PO_CFG = w ∧ fld (po t o Off.PO_STAT) 20 4 = 0 ∧ outOf t o = x
      ∧ OnlyPulse o [(pgPul, Off.PO_CFG + 0x20 * o), (pgPul, Off.PO_STAT + 0x20 * o)] s t := by
  refine ⟨(po_updOut ..).trans (po_setReg_same ..), ?_, outOf_updOut_same .., ?_⟩
  · rw [po_updOut, po_setReg_ne _ _ _ _ _ (by decide), setRegFld, po_setReg_same, fld_setFld_same _ _ _ _ (by decide), Nat.zero_mod]
  · refine (answered_onlyPulse.trans (setReg_onlyPulse _ ?_ (by simp))).trans ((setReg_onlyPulse _ ?_ (by simp)).trans (updOut_onlyPulse _))
    all_goals simp only [Off.PO_STAT, Off.PO_CFG]; omega

/-- A refused enable shows its result and sets EN_BAD (R245). -/
theorem poRefused_shows {o r : Nat} (ho : o < 8) (hr : r < 2 ^ 4) (s : State) (off tid : Nat) :
    let t := refuse pgPul 8 off tid (setRegFld (answered s) pgPul (Off.PO_STAT + 0x20 * o) 20 4 r)
    t.resp = .error ∧ fld (po t o Off.PO_STAT) 20 4 = r ∧ regBit t pgPul Off.ERR_STAT 8 = true ∧ t.met = s.met
      ∧ OnlyRegs [(pgPul, Off.PO_STAT + 0x20 * o), (pgPul, Off.ERR_STAT), (pgPul, Off.ERR_INFO), (pgPul, Off.IRQ_STAT)] s t ∧ MemSame s t := by
  intro t
  have hoff : Off.PO_STAT + 0x20 * o < 0x1000 := by simp only [Off.PO_STAT]; omega
  have hflag : OnlyRegs [(pgPul, Off.ERR_STAT), (pgPul, Off.ERR_INFO), (pgPul, Off.IRQ_STAT)]
      (setRegFld (answered s) pgPul (Off.PO_STAT + 0x20 * o) 20 4 r) t :=
    fun pg f hf hn => (reg_deny ..).trans (flagErr_onlyRegs _ _ _ _ _ _ pg f hf hn)
  have hstat : po t o Off.PO_STAT = po (setRegFld (answered s) pgPul (Off.PO_STAT + 0x20 * o) 20 4 r) o Off.PO_STAT :=
    hflag _ _ hoff (by simp [Off.PO_STAT, Off.ERR_STAT, Off.ERR_INFO, Off.IRQ_STAT]; omega)
  refine ⟨resp_refuse .., ?_, ?_, by simp [t], ?_, fun x => by simp [t]⟩
  · rw [hstat, setRegFld, po_setReg_same, fld_setFld_same _ _ _ _ (by decide), Nat.mod_eq_of_lt hr]
  · exact (congrArg (bit · 8) (reg_deny ..)).trans (regBit_flagErr _ _ _ _ _ _ (by decide))
  · exact (setReg_answered_onlyRegs s _ _ _ hoff).append hflag

/-- A quiet output is low, with no queue and no state. -/
theorem quietOut_quiet (o : Nat) (s : State) :
    poHigh (quietOut o s) o = false ∧ poBacklog (quietOut o s) o = 0 ∧ outOf (quietOut o s) o = PulseOut.init := by
  refine ⟨poHigh_setHigh .., (poBacklog_setHigh ..).trans (poBacklog_setBacklog _ _ _ (by decide)), ?_⟩
  simp [quietOut]

/-- A disabled output, its carries taken first, is quiet and shows its new configuration. -/
theorem poDisabled_shows {o : Nat} (ho : o < 8) (s : State) (f : Nat) (w : Word) :
    let t := setReg (quietOut o (residueRun o f (answered s))) pgPul (Off.PO_CFG + 0x20 * o) w
    po t o Off.PO_CFG = w ∧ poHigh t o = false ∧ poBacklog t o = 0 ∧ outOf t o = PulseOut.init ∧ OnlyPulse o (pulseRegs o) s t := by
  obtain ⟨hhigh, hq, hout⟩ := quietOut_quiet o (residueRun o f (answered s))
  have hstat := po_setReg_ne (quietOut o (residueRun o f (answered s))) o Off.PO_CFG Off.PO_STAT w (by decide)
  refine ⟨po_setReg_same .., (poHigh_congr hstat).trans hhigh, (poBacklog_congr hstat).trans hq, hout, ?_⟩
  have hrun : OnlyPulse o (pulseRegs o) s (residueRun o f (answered s)) := answered_onlyPulse.trans (residueRun_onlyPulse ho f _)
  exact (hrun.trans (quietOut_onlyPulse ho _)).trans (setReg_onlyPulse w (by simp only [Off.PO_CFG]; omega) (mem_pulseRegs (by decide)))

/-! ### The events of an output -/

/-- PULSE_START of a free output: the first pulse of its queue begins. -/
theorem pulseStart_starts {o tm b : Nat} {s : State} (ho : o < 8) (hhigh : poHigh s o = false) (hlow : (outOf s o).lowEnd = none)
    (hq : poBacklog s o = b + 1) (hgate : gateOpen s = true) (hon : pulOn s = true) (hen : poEn s o = true) :
    pulseStart o tm s = raisePulse o tm (setBacklog o b (advance s tm)) := by
  have hq' : poBacklog (advance s tm) o = b + 1 := (poBacklog_advance ..).trans hq
  have hserve : serveOut o tm (advance s tm) = advance s tm := serveOut_idle tm ((poHigh_advance ..).trans hhigh) hlow
  have hstart := startQueued_starts (s := advance s tm) tm ((poHigh_advance ..).trans hhigh) hlow (by omega) hgate hon hen
  rw [hq', Nat.add_sub_cancel] at hstart
  simp only [pulseStart, if_pos ho, hserve, hstart]

/-- A pulse that falls due at a free output is counted as emitted, or as gated where the gate is closed; the residue stays. -/
theorem pulseDue_counts {o : Nat} {s : State} (tm : Nat) (hhigh : poHigh s o = false) (hlow : (outOf s o).lowEnd = none) (hq : poBacklog s o = 0) :
    let t := pulseDue o tm s
    (outOf t o).acc = (outOf s o).acc
      ∧ (gateOpen s = true → poHigh t o = true ∧ po t o Off.PO_COUNT = po s o Off.PO_COUNT + 1)
      ∧ (gateOpen s = false → poHigh t o = false ∧ po t o Off.PO_COUNT = po s o Off.PO_COUNT ∧ po t o Off.PO_GATED = po s o Off.PO_GATED + 1) := by
  rw [pulseDue_idle tm hhigh hlow hq]
  cases gateOpen s with
  | true =>
    obtain ⟨hup, -, hcount, hout⟩ := raisePulse_raises o tm s
    have hacc : (outOf (raisePulse o tm s) o).acc = (outOf s o).acc := by rw [hout]
    exact ⟨hacc, fun _ => ⟨hup, hcount⟩, nofun⟩
  | false =>
    have hkept := fun f => po_countOut_ne o Off.PO_GATED 1 s f
    exact ⟨rfl, nofun, fun _ => ⟨(poHigh_congr (hkept _ (by decide))).trans hhigh, hkept _ (by decide), po_countOut_same ..⟩⟩

/-- RESIDUE_CARRY in or after fabric cycle `b`, up to which ACC_RES has its sum: it has its sum up to the present cycle, and each carry makes a
pulse due. -/
theorem residueCarry_from {o b tm : Nat} {s : State} {r : Nat × List Nat} (ho : o < 8) (hsince : (outOf s o).since = some b) (hb : b ≤ tm / 2)
    (hr : residueTo (outOf s o) (tm / 2) = r) :
    residueCarry o tm s = r.2.foldl (fun s c => pulseDue o (2 * c) s) (updOut o (residueAt r.1 (tm / 2 + 1)) (advance s tm)) := by
  have hmax : (some b).map (fun b => max b (tm / 2 + 1)) = some (tm / 2 + 1) := by simp; omega
  simp only [residueCarry, if_pos ho, residueRun, outOf_advance, hr, hsince, hmax]
  rfl

/-- RESIDUE_CARRY with one carry at a free output without a queue: its pulse is counted as emitted or as gated. -/
theorem residueCarry_carries {o b tm acc c : Nat} {s : State} (ho : o < 8) (hsince : (outOf s o).since = some b) (hb : b ≤ tm / 2)
    (hr : residueTo (outOf s o) (tm / 2) = (acc, [c])) (hhigh : poHigh s o = false) (hlow : (outOf s o).lowEnd = none) (hq : poBacklog s o = 0) :
    let t := residueCarry o tm s
    (outOf t o).acc = acc
      ∧ (gateOpen s = true → poHigh t o = true ∧ po t o Off.PO_COUNT = po s o Off.PO_COUNT + 1)
      ∧ (gateOpen s = false → poHigh t o = false ∧ po t o Off.PO_COUNT = po s o Off.PO_COUNT ∧ po t o Off.PO_GATED = po s o Off.PO_GATED + 1)
      ∧ OnlyPulse o (pulseRegs o) s t := by
  rw [residueCarry_from ho hsince hb hr]
  obtain ⟨hacc, hopen, hclosed⟩ := pulseDue_counts (o := o) (s := updOut o (residueAt acc (tm / 2 + 1)) (advance s tm)) (2 * c)
    (by simpa using hhigh) (by simpa using hlow) (by simpa using hq)
  simp only [outOf_updOut_same, residueAt_acc, po_updOut, po_advance] at hacc hopen hclosed
  exact ⟨hacc, hopen, hclosed, ((advance_onlyPulse tm).trans (updOut_onlyPulse _)).trans (pulseDue_onlyPulse ho (2 * c) _)⟩

/-! ### The statement -/

/-- Settles O45: each command and each event is its named effect on the output, and the rule of that effect gives the clause. -/
theorem pulseOutputs : Obligations.pulse_outputs := by
  unfold Obligations.pulse_outputs
  refine ⟨?enabled, ?refused, ?disabled, ?start, ?ends, ?lowEnds, ?noCarry, ?carry⟩
  case enabled =>
    intro s tid o d ho hj hen hd hr
    refine reaches_next ((poCfgWrite_enable ho hj hen hd hr).trans (if_neg (by decide))) ?_
    obtain ⟨hcfg, hres, hout, hframe⟩ := poEnabled_shows ho s (d &&& 0x000F7F77)
      { PulseOut.init with kres := if bit d 1 then kRes (po s o Off.PO_KH).toNat else 0 }
    exact ⟨hcfg, by rw [poEn, hcfg, bit_and_mask _ _ _ (by decide), hd], hres, hout, hframe⟩
  case refused =>
    intro s tid o r d ho hj hen hd hr h0
    exact reaches_next ((poCfgWrite_enable ho hj hen hd hr).trans (if_pos h0)) (poRefused_shows ho (hr ▸ poResult_lt ..) s _ tid)
  case disabled =>
    intro s tid o d ho hj hen hd hsame
    exact reaches_next (poCfgWrite_disable ho hj hen hd hsame) (poDisabled_shows ho s (s.now / 2) _)
  case start =>
    intro s o tm b ho hhigh hlow hq hgate hon hen
    refine reaches_next (pulseStart_starts ho hhigh hlow hq hgate hon hen) ?_
    have hb : b + 1 < 65536 := hq ▸ Nat.mod_lt _ (by decide)
    have hkept : ∀ f, f ≠ Off.PO_STAT → po (setBacklog o b (advance s tm)) o f = po s o f :=
      fun f hf => (po_setBacklog_ne _ _ _ f hf).trans (po_advance ..)
    obtain ⟨hup, hqueue, hcount, hout⟩ := raisePulse_raises o tm (setBacklog o b (advance s tm))
    rw [hkept _ (by decide)] at hcount hout
    exact ⟨hup, hqueue.trans (poBacklog_setBacklog _ _ _ (by omega)), hcount, congrArg PulseOut.highEnd hout,
      ((advance_onlyPulse tm).trans (setBacklog_onlyPulse ho b (by simp))).trans (raisePulse_onlyPulse ho tm (by simp) (by simp))⟩
  case ends =>
    intro s o tm ho hhigh hend
    refine reaches_next ((if_pos ho).trans (endPulse_ends ((poHigh_advance ..).trans hhigh) hend)) ?_
    exact ⟨poHigh_setHigh .., by simp, by simp, ((advance_onlyPulse tm).trans (updOut_onlyPulse _)).trans (setHigh_onlyPulse ho false (by simp))⟩
  case lowEnds =>
    intro s o tm e ho hhigh hlow he hq
    refine reaches_next ((if_pos ho).trans (endLow_ends ((poHigh_advance ..).trans hhigh) hlow he ((poBacklog_advance ..).trans hq))) ?_
    exact ⟨by simp, (advance_onlyPulse tm).trans (updOut_onlyPulse _)⟩
  case noCarry =>
    intro s o tm b ho hsince hb hsum
    refine reaches_next (residueCarry_from ho hsince hb (residueTo_noCarry hsince hb hsum)) ?_
    exact ⟨by simp, by simp, (advance_onlyPulse tm).trans (updOut_onlyPulse _)⟩
  case carry =>
    intro s o tm b ho hsince hb hlo hhi hacc hhigh hlow hq
    obtain ⟨c, hc⟩ := residueTo_oneCarry hsince hb hlo hhi hacc
    obtain ⟨hres, hopen, hclosed, hothers, -, hmem⟩ := residueCarry_carries ho hsince hb hc hhigh hlow hq
    exact reaches_next rfl ⟨hres, hopen, hclosed, hothers, hmem⟩

end Sys2Proof.Machine
end

section
/-!
The commands of a recorder (spec/10_capture_unit.md R253, R255-R260, R262): the frame that every operation of one recorder keeps, one rule for
each operation on its state, its ring and its record table, and from these what each command does.
-/
namespace Sys2Proof.Machine

/-! ### A recorder and its registers -/

@[simp] theorem recOf_updRec_same (s : State) (k : Nat) (f : Recorder → Recorder) : recOf (updRec k f s) k = f (recOf s k) := by
  simp [recOf, updRec]

theorem recOf_updRec_ne (s : State) (k j : Nat) (f : Recorder → Recorder) (h : j ≠ k) : recOf (updRec k f s) j = recOf s j := by
  simp [recOf, updRec, tget_tset_ne _ _ _ _ _ h]

@[simp] theorem reg_updRec (s : State) (k : Nat) (f : Recorder → Recorder) (pg o : Nat) : reg (updRec k f s) pg o = reg s pg o :=
  reg_congr rfl rfl pg o

theorem pageAddr_off_ne (pg : Nat) {o o' : Nat} (h : o ≠ o') : pageAddr pg o ≠ pageAddr pg o' := by
  unfold pageAddr
  omega

/-- A register whose offset is not listed is none of the listed ones of its page. -/
theorem reg_notListed (pg : Nat) {o : Nat} (os : List Nat) (h : o ∉ os) : (pg, o) ∉ os.map (fun o => (pg, o)) := by
  intro hm
  obtain ⟨o', ho', heq⟩ := List.mem_map.mp hm
  exact h ((Prod.mk.inj heq).2 ▸ ho')

/-- A recorder depends on the Capture unit alone. -/
theorem recOf_congr {s t : State} (h : t.cap = s.cap) (k : Nat) : recOf t k = recOf s k := by rw [recOf, h, recOf]

@[simp] theorem recOf_setReg (s : State) (pg o : Nat) (w : Word) (k : Nat) : recOf (setReg s pg o w) k = recOf s k := rfl
@[simp] theorem answered_cap (s : State) : (answered s).cap = s.cap := rfl
@[simp] theorem recOf_countReg (s : State) (pg o n k : Nat) : recOf (countReg s pg o n) k = recOf s k := rfl
@[simp] theorem recOf_answered (s : State) (k : Nat) : recOf (answered s) k = recOf s k := rfl
@[simp] theorem recOf_setIrq (s : State) (pg : Nat) (m : Word) (k : Nat) : recOf (setIrq pg m s) k = recOf s k := recOf_congr (by simp) k
@[simp] theorem showRec_mem (k st : Nat) (s : State) : (showRec k st s).mem = s.mem := rfl
@[simp] theorem setEn_mem (pg : Nat) (b : Bool) (s : State) : (setEn pg b s).mem = s.mem := rfl
@[simp] theorem recOf_showRec (k st : Nat) (s : State) (j : Nat) : recOf (showRec k st s) j = recOf s j := rfl
@[simp] theorem recState_updRec (s : State) (k : Nat) (f : Recorder → Recorder) (j : Nat) : recState (updRec k f s) j = recState s j := by
  simp [recState, regFld]

theorem recState_lt (s : State) (k : Nat) : recState s k < 2 ^ 3 := Nat.mod_lt _ (by decide)

theorem reg_showRec_ne (k st : Nat) (s : State) {o : Nat} (hstat : o ≠ Off.REC_STAT) (hhold : o ≠ Off.HOLD_PTR) :
    reg (showRec k st s) (pgCap k) o = reg s (pgCap k) o := by
  simp [showRec, setRegFld, reg_setReg_off, hstat, hhold]

theorem recStat_showRec (k st : Nat) (s : State) : reg (showRec k st s) (pgCap k) Off.REC_STAT
    = setFld (setFld (reg s (pgCap k) Off.REC_STAT) 0 3 st) 4 5 (recOf s k).table.length := by
  simp only [showRec, setRegFld]
  rw [reg_setReg_off _ _ _ _ _ (by decide), reg_setReg_same, reg_setReg_same]

theorem recState_showRec {st : Nat} (k : Nat) (s : State) (h : st < 2 ^ 3) : recState (showRec k st s) k = st := by
  rw [recState, regFld, recStat_showRec, fld_setFld_apart _ _ _ _ _ _ (by decide) (by decide), fld_setFld_same _ _ _ _ (by decide),
    Nat.mod_eq_of_lt h]

theorem recPending_showRec (k st : Nat) (s : State) :
    regFld (showRec k st s) (pgCap k) Off.REC_STAT 4 5 = (recOf s k).table.length % 2 ^ 5 := by
  rw [regFld, recStat_showRec, fld_setFld_same _ _ _ _ (by decide)]

/-- STATE and PENDING lie apart from RESULT. -/
theorem recShown_showRec (k st : Nat) (s : State) :
    regFld (showRec k st s) (pgCap k) Off.REC_STAT 16 4 = regFld s (pgCap k) Off.REC_STAT 16 4 := by
  rw [regFld, recStat_showRec, fld_setFld_apart _ _ _ _ _ _ (by decide) (by decide), fld_setFld_apart _ _ _ _ _ _ (by decide) (by decide), regFld]

theorem reg_setEn_ne (pg : Nat) (b : Bool) (s : State) {o : Nat} (hctrl : o ≠ Off.CTRL) (hstat : o ≠ Off.STAT) :
    reg (setEn pg b s) pg o = reg s pg o := by
  simp [setEn, setRegFld, reg_setReg_off, hctrl, hstat]

theorem regBit_setEn (pg : Nat) (b : Bool) (s : State) : regBit (setEn pg b s) pg Off.CTRL 0 = b := by
  rw [regBit, setEn, setRegFld, reg_setReg_off _ _ _ _ _ (by decide), setRegFld, reg_setReg_same, bit_setFld _ _ _ _ _ (by decide),
    if_pos (by decide)]
  cases b <;> rfl

/-- The state from which a recorder takes samples depends on its REC_CFG and REC_PRE. -/
theorem freshState_congr {s t : State} {k : Nat} (hcfg : reg t (pgCap k) Off.REC_CFG = reg s (pgCap k) Off.REC_CFG)
    (hpre : reg t (pgCap k) Off.REC_PRE = reg s (pgCap k) Off.REC_PRE) : freshState t k = freshState s k := by
  have hrearm : regBit t (pgCap k) Off.REC_CFG 5 = regBit s (pgCap k) Off.REC_CFG 5 := congrArg (bit · 5) hcfg
  have hlen : recPre t k = recPre s k := congrArg (fld · 0 16) hpre
  rw [freshState, hrearm, hlen, freshState]

/-- FILLING with REARM and a pre-trigger part, and ARMED otherwise (R255, R256). -/
theorem freshState_eq (s : State) (k : Nat) : freshState s k = if regBit s (pgCap k) Off.REC_CFG 5 = true ∧ 0 < recPre s k then 1 else 2 := by
  simp [freshState]

theorem freshState_lt (s : State) (k : Nat) : freshState s k < 2 ^ 3 := by
  unfold freshState; split <;> decide

/-! ### What an operation of one recorder leaves alone -/

/-- No other recorder changes, and no register but those listed. -/
def OnlyRecorder (k : Nat) (l : List (Nat × Nat)) (s t : State) : Prop := (∀ j, j ≠ k → recOf t j = recOf s j) ∧ OnlyRegs l s t

section
variable {k : Nat} {l : List (Nat × Nat)} {s t u : State}

theorem OnlyRecorder.refl : OnlyRecorder k l s s := ⟨fun _ _ => rfl, fun _ _ _ _ => rfl⟩

theorem OnlyRecorder.trans (h : OnlyRecorder k l s t) (h' : OnlyRecorder k l t u) : OnlyRecorder k l s u := by
  obtain ⟨hrec, hregs⟩ := h
  obtain ⟨hrec', hregs'⟩ := h'
  exact ⟨fun j hj => (hrec' j hj).trans (hrec j hj), fun pg o ho hn => (hregs' pg o ho hn).trans (hregs pg o ho hn)⟩

/-- The answer, memory and the notes of a fabric cycle enter no recorder and no register. -/
theorem onlyRecorder_congr (hv : t.variant = s.variant) (hr : t.regs = s.regs) (hc : t.cap = s.cap) : OnlyRecorder k l s t :=
  ⟨fun j _ => recOf_congr hc j, fun pg o _ _ => reg_congr hv hr pg o⟩

theorem answered_onlyRecorder : OnlyRecorder k l s (answered s) := onlyRecorder_congr rfl rfl rfl

theorem updRec_onlyRecorder (f : Recorder → Recorder) : OnlyRecorder k l s (updRec k f s) :=
  ⟨fun j hj => recOf_updRec_ne s k j f hj, fun pg o _ _ => reg_updRec s k f pg o⟩

theorem setReg_onlyRecorder {pg o : Nat} (w : Word) (ho : o < 0x1000) (hm : (pg, o) ∈ l) : OnlyRecorder k l s (setReg s pg o w) :=
  ⟨fun _ _ => rfl, fun pg' off hoff hn => onlyRegs_setReg s pg o w ho pg' off hoff (fun e => hn (e ▸ hm))⟩

theorem countReg_onlyRecorder {pg o : Nat} (n : Nat) (ho : o < 0x1000) (hm : (pg, o) ∈ l) : OnlyRecorder k l s (countReg s pg o n) :=
  OnlyRecorder.trans (t := noteCount pg o n s) (onlyRecorder_congr rfl rfl rfl) (setReg_onlyRecorder _ ho hm)

theorem setIrq_onlyRecorder {pg : Nat} (m : Word) (hm : (pg, Off.IRQ_STAT) ∈ l) : OnlyRecorder k l s (setIrq pg m s) := by
  refine ⟨fun j _ => recOf_congr (by simp) j, fun pg' o ho hn => reg_setIrq_ne s pg pg' o m ?_⟩
  rw [ne_eq, pageAddr_inj ho (by decide)]
  rintro ⟨rfl, rfl⟩
  exact hn hm

theorem setEn_onlyRecorder {pg : Nat} (b : Bool) (hctrl : (pg, Off.CTRL) ∈ l) (hstat : (pg, Off.STAT) ∈ l) :
    OnlyRecorder k l s (setEn pg b s) :=
  (setReg_onlyRecorder _ (by decide) hctrl).trans (setReg_onlyRecorder _ (by decide) hstat)

/-- What a recorder shows of itself lies in REC_STAT and HOLD_PTR. -/
theorem showRec_onlyRecorder (st : Nat) (hstat : (pgCap k, Off.REC_STAT) ∈ l) (hhold : (pgCap k, Off.HOLD_PTR) ∈ l) :
    OnlyRecorder k l s (showRec k st s) :=
  ((setReg_onlyRecorder _ (by decide) hstat).trans (setReg_onlyRecorder _ (by decide) hstat)).trans (setReg_onlyRecorder _ (by decide) hhold)

/-- Bytes that the device writes to memory enter no recorder and no register. -/
theorem dmaWrite_onlyRecorder (tid a : Nat) (bs : List Byte) : OnlyRecorder k l s (dmaWrite tid a bs s) := by
  unfold dmaWrite
  split
  · exact onlyRecorder_congr rfl rfl rfl
  · exact .refl

end

/-! ### Enable and disable (R260, R262) -/

/-- A commit that passes its checks: EN, an empty ring, and the recorder as it is after EN. -/
def recOn (k : Nat) (s : State) : State :=
  showRec k (freshState s k) (updRec k (fun _ => Recorder.init) (setReg (setEn (pgCap k) true s) (pgCap k) Off.WR_PTR 0))

/-- RECORDER_ENABLE of a disabled recorder: its result is shown, and one other than 0 is refused. -/
theorem recCtrl_commit {s : State} {tid k r : Nat} {d : Word} (hk : k < 8) (hj : judge s tid (pgCap k) Off.CTRL = .ok)
    (hen : recEn s k = false) (hd : bit d 0 = true) (hr : recResult s k = r) :
    let s1 := setRegFld (answered s) (pgCap k) Off.REC_STAT 16 4 r
    recCtrl tid k d s = if r ≠ 0 then refuse (pgCap k) 8 Off.CTRL tid s1 else recOn k s1 := by
  intro s1
  subst hr
  have hen' : recEn (answered s) k = false := hen
  have hfresh : freshState (updRec k (fun _ => Recorder.init) (setReg (setEn (pgCap k) true s1) (pgCap k) Off.WR_PTR 0)) k = freshState s1 k := by
    refine freshState_congr ?_ ?_ <;> rw [reg_updRec, reg_setReg_off _ _ _ _ _ (by decide), reg_setEn_ne _ _ _ (by decide) (by decide)]
  rw [recCtrl, if_neg (Nat.not_le.mpr hk), recOn, ← hfresh]
  refine (access_ok _ _ hj).trans ?_
  rw [show ({ s with resp := .done } : State) = answered s from rfl, hd, hen']
  rfl

/-- RECORDER_DISABLE of an enabled recorder. -/
theorem recCtrl_disable {s : State} {tid k : Nat} {d : Word} (hk : k < 8) (hj : judge s tid (pgCap k) Off.CTRL = .ok)
    (hen : recEn s k = true) (hd : bit d 0 = false) : recCtrl tid k d s = recOff k (answered s) := by
  have hen' : recEn (answered s) k = true := hen
  rw [recCtrl, if_neg (Nat.not_le.mpr hk)]
  refine (access_ok _ _ hj).trans ?_
  rw [show ({ s with resp := .done } : State) = answered s from rfl, hd, hen']
  rfl

/-- The result of a commit fits its field. -/
theorem recResult_lt (s : State) (k : Nat) : recResult s k < 2 ^ 4 := by
  simp only [recResult]
  repeat' split
  all_goals decide

/-- An accepted commit starts the recorder with an empty ring. -/
theorem recOn_starts (k : Nat) (s : State) :
    let t := recOn k s
    recEn t k = true ∧ recOf t k = Recorder.init ∧ wrPtr t k = 0 ∧ recState t k = freshState s k
      ∧ regFld t (pgCap k) Off.REC_STAT 16 4 = regFld s (pgCap k) Off.REC_STAT 16 4 := by
  refine ⟨?_, by simp [recOn], ?_, recState_showRec _ _ (freshState_lt s k), (recShown_showRec ..).trans ?_⟩
  · rw [recEn, regBit, recOn, reg_showRec_ne _ _ _ (by decide) (by decide), reg_updRec, reg_setReg_off _ _ _ _ _ (by decide)]
    exact regBit_setEn ..
  · rw [wrPtr, recOn, reg_showRec_ne _ _ _ (by decide) (by decide), reg_updRec, reg_setReg_same]
    rfl
  · rw [regFld, reg_updRec, reg_setReg_off _ _ _ _ _ (by decide), reg_setEn_ne _ _ _ (by decide) (by decide), regFld]

theorem recOn_mem (k : Nat) (s : State) : (recOn k s).mem = s.mem := by simp [recOn]

theorem recOn_onlyRecorder (k : Nat) (s : State) :
    OnlyRecorder k ([Off.CTRL, Off.STAT, Off.WR_PTR, Off.REC_STAT, Off.HOLD_PTR].map (fun o => (pgCap k, o))) s (recOn k s) :=
  (((setEn_onlyRecorder true (by simp) (by simp)).trans (setReg_onlyRecorder _ (by decide) (by simp))).trans (updRec_onlyRecorder _)).trans
    (showRec_onlyRecorder _ (by simp) (by simp))

/-- A refused commit shows its result and sets CFG_BAD (R262). -/
theorem refusedRec_shows (k tid : Nat) {r : Nat} (hr : r < 2 ^ 4) (s : State) :
    let t := refuse (pgCap k) 8 Off.CTRL tid (setRegFld (answered s) (pgCap k) Off.REC_STAT 16 4 r)
    t.resp = .error ∧ recEn t k = recEn s k ∧ t.cap = s.cap ∧ regFld t (pgCap k) Off.REC_STAT 16 4 = r
      ∧ regBit t (pgCap k) Off.ERR_STAT 8 = true
      ∧ OnlyRegs ([Off.REC_STAT, Off.ERR_STAT, Off.ERR_INFO, Off.IRQ_STAT].map (fun o => (pgCap k, o))) s t ∧ MemSame s t := by
  intro t
  have hflag : OnlyRegs [(pgCap k, Off.ERR_STAT), (pgCap k, Off.ERR_INFO), (pgCap k, Off.IRQ_STAT)]
      (setRegFld (answered s) (pgCap k) Off.REC_STAT 16 4 r) t :=
    fun pg o ho hn => (reg_deny ..).trans (flagErr_onlyRegs _ _ _ _ _ _ pg o ho hn)
  have hframe := (setReg_answered_onlyRegs s (pgCap k) Off.REC_STAT _ (by decide)).append hflag
  refine ⟨resp_refuse .., ?_, by simp [t], ?_, ?_, hframe, fun x => by simp [t]⟩
  · rw [recEn, regBit, hframe _ _ (by decide) (reg_notListed _ [Off.REC_STAT, Off.ERR_STAT, Off.ERR_INFO, Off.IRQ_STAT] (by decide)), recEn, regBit]
  · rw [regFld, hflag _ _ (by decide) (reg_notListed _ [Off.ERR_STAT, Off.ERR_INFO, Off.IRQ_STAT] (by decide)), setRegFld, reg_setReg_same,
      fld_setFld_same _ _ _ _ (by decide), Nat.mod_eq_of_lt hr]
  · exact (congrArg (bit · 8) (reg_deny ..)).trans (regBit_flagErr _ _ _ _ _ _ (by decide))

/-- A recorder switched off is IDLE and keeps its record table alone (R260). -/
theorem recOff_stops (k : Nat) (s : State) :
    let t := recOff k s
    recEn t k = false ∧ recState t k = 0 ∧ recOf t k = { Recorder.init with table := (recOf s k).table } := by
  refine ⟨?_, recState_showRec _ _ (by decide), ?_⟩
  · rw [recEn, regBit, recOff, reg_showRec_ne _ _ _ (by decide) (by decide), reg_updRec]
    exact regBit_setEn ..
  · simp [recOff, setEn, setRegFld]

theorem recOff_mem (k : Nat) (s : State) : (recOff k s).mem = s.mem := by simp [recOff]

theorem recOff_onlyRecorder (k : Nat) (s : State) :
    OnlyRecorder k ([Off.CTRL, Off.STAT, Off.REC_STAT, Off.HOLD_PTR].map (fun o => (pgCap k, o))) s (recOff k s) :=
  ((setEn_onlyRecorder false (by simp) (by simp)).trans (updRec_onlyRecorder _)).trans (showRec_onlyRecorder _ (by simp) (by simp))

/-! ### START (R259) -/

/-- A command of REC_CMD in order has its effect. -/
theorem recCommand_ok {s : State} {tid k : Nat} (bits : Word) (body : State → State) (hk : k < 8)
    (hj : judge s tid (pgCap k) Off.REC_CMD = .ok) : recCommand tid k bits body s = body (answered s) :=
  (if_pos hk).trans (access_ok _ _ hj)

/-- The recorder waits for space. -/
def waiting (k : Nat) (s : State) : State := updRec k (fun r => { r with starting := true }) s

/-- The space in a ring does not depend on whether a START waits for it. -/
theorem ringFree_waiting (k : Nat) (s : State) : ringFree (waiting k s) k = ringFree s k := by
  simp [ringFree, waiting, ringSizeOf, wrPtr, regFld]

/-- START of a stopped recorder: it waits for space, and resumes at once where there is some. -/
theorem recStart_eq {s : State} {tid k : Nat} (hk : k < 8) (hj : judge s tid (pgCap k) Off.REC_CMD = .ok) (hen : recEn s k = true)
    (hst : recState s k = 4 ∨ recState s k = 5) : recStart tid k s = tryStart k (waiting k (answered s)) := by
  have hen' : recEn (answered s) k = true := hen
  have hst' : recState (answered s) k = 4 ∨ recState (answered s) k = 5 := hst
  refine (recCommand_ok _ _ hk hj).trans (if_pos ?_)
  simpa [hen'] using hst'

/-- A recorder that does not wait does not resume. -/
theorem tryStart_settled {k : Nat} {s : State} (h : (recOf s k).starting = false) : tryStart k s = s := by simp [tryStart, h]

/-- A waiting recorder without space goes on waiting. -/
theorem tryStart_full {k : Nat} {s : State} (h : ringFree s k < recBytes (recNch s k) + 64) : tryStart k s = s := by
  simp [tryStart, Nat.not_le.mpr h]

/-- A waiting recorder with space resumes. -/
theorem tryStart_resumes {k : Nat} {s : State} (hwait : (recOf s k).starting = true) (hst : recState s k = 4 ∨ recState s k = 5)
    (hfree : recBytes (recNch s k) + 64 ≤ ringFree s k) :
    tryStart k s = showRec k (freshState s k) (updRec k (fun r => { r with starting := false }) s) := by
  simp [tryStart, hwait, hst, hfree]

/-- A START, whether it waits or resumes, keeps memory and the record table. -/
theorem tryStart_keeps (k : Nat) (s : State) : (recOf (tryStart k s) k).table = (recOf s k).table ∧ (tryStart k s).mem = s.mem
    ∧ OnlyRecorder k [(pgCap k, Off.REC_STAT), (pgCap k, Off.HOLD_PTR)] s (tryStart k s) := by
  unfold tryStart
  split
  · exact ⟨by simp, rfl, (updRec_onlyRecorder _).trans (showRec_onlyRecorder _ (by simp) (by simp))⟩
  · exact ⟨rfl, rfl, .refl⟩

/-! ### The ring (R257) -/

theorem ringSizeOf_lt (s : State) (k : Nat) : ringSizeOf s k < 2 ^ 32 := by
  have : regFld s (pgCap k) Off.RING_SIZE 0 20 < 2 ^ 20 := Nat.mod_lt _ (by decide)
  unfold ringSizeOf
  omega

theorem dmaWrite_inv {s : State} (tid a : Nat) (bs : List Byte) (h : StateInv s) : StateInv (dmaWrite tid a bs s) := by
  unfold dmaWrite
  split
  · exact writeMem_wf s a bs h
  · exact h

/-- Bytes written by the device leave every byte outside them. -/
theorem read_dmaWrite_outside {s : State} (tid a : Nat) (bs : List Byte) {x : Nat} (h : StateInv s) (ho : x < a ∨ a + bs.length ≤ x) :
    Memory.read (dmaWrite tid a bs s).mem x = Memory.read s.mem x := by
  unfold dmaWrite
  split
  · exact writeMem_outside s a bs x h ho
  · rfl

theorem wrPtr_ringPut (k : Nat) (bs : List Byte) {s : State} (h : 0 < ringSizeOf s k) :
    wrPtr (ringPut k bs s) k = (wrPtr s k + bs.length) % ringSizeOf s k := by
  have hfits := Nat.lt_trans (Nat.mod_lt (wrPtr s k + bs.length) h) (ringSizeOf_lt s k)
  rw [wrPtr, ringPut, reg_setReg_same, word, BitVec.toNat_ofNat, Nat.mod_eq_of_lt hfits]

/-- A record in the ring moves WR_PTR. -/
theorem ringPut_onlyRecorder {k : Nat} {l : List (Nat × Nat)} (bs : List Byte) {s : State} (hm : (pgCap k, Off.WR_PTR) ∈ l) :
    OnlyRecorder k l s (ringPut k bs s) := by
  simp only [ringPut]
  refine OnlyRecorder.trans ?_ (setReg_onlyRecorder _ (by decide) hm)
  split
  · exact (dmaWrite_onlyRecorder _ _ _).trans (dmaWrite_onlyRecorder _ _ _)
  · exact dmaWrite_onlyRecorder _ _ _

theorem recOf_ringPut (k : Nat) (bs : List Byte) (s : State) : recOf (ringPut k bs s) k = recOf s k := by
  have hcap : ∀ tid a bs (u : State), (dmaWrite tid a bs u).cap = u.cap := fun tid a bs u => by unfold dmaWrite; split <;> rfl
  refine recOf_congr (?_ : (ringPut k bs s).cap = s.cap) k
  simp only [ringPut, setReg_cap]
  split <;> simp only [hcap]

/-- A record that fits the ring changes its own bytes from WR_PTR on, behind the ring's end those from offset 0 (R257). -/
theorem read_ringPut {k : Nat} {bs : List Byte} {s : State} {x : Nat} (h : StateInv s) (hw : wrPtr s k < ringSizeOf s k)
    (hfits : bs.length ≤ ringSizeOf s k) (hx : ∀ i < bs.length, x ≠ ringBaseOf s k + (wrPtr s k + i) % ringSizeOf s k) :
    Memory.read (ringPut k bs s).mem x = Memory.read s.mem x := by
  simp only [ringPut, setReg_mem]
  generalize ringSizeOf s k = n, wrPtr s k = w, ringBaseOf s k = a at *
  have hbefore : x < a + w ∨ a + w + (bs.take (n - w)).length ≤ x := by
    rw [List.length_take]
    refine Decidable.byContradiction fun hin => hx (x - (a + w)) (by omega) ?_
    rw [Nat.mod_eq_of_lt (by omega)]
    omega
  have hbehind : x < a ∨ a + (bs.drop (n - w)).length ≤ x := by
    rw [List.length_drop]
    refine Decidable.byContradiction fun hin => hx (x - a + (n - w)) (by omega) ?_
    rw [show w + (x - a + (n - w)) = x - a + n by omega, Nat.add_mod_right, Nat.mod_eq_of_lt (by omega)]
    omega
  split
  · exact (read_dmaWrite_outside _ _ _ (dmaWrite_inv _ _ _ h) hbehind).trans (read_dmaWrite_outside _ _ _ h hbefore)
  · exact read_dmaWrite_outside _ _ _ h hbefore

/-- A mark is 64 bytes long (R258). -/
theorem markBytes_length (k type tick : Nat) {rest : List Byte} (h : rest.length ≤ 56) : (markBytes k type tick rest).length = 64 := by
  simp [markBytes, leBytes]
  omega

/-! ### STOP (R260) -/

/-- The table's entry of record `n` that ends, truncated, at ring offset `stop`. -/
def truncEntry (n : RecNow) (stop : Nat) : RecEntry := ⟨n.start, stop, n.primary, n.frac, n.unit, true, n.preShort, n.samples, n.first⟩

/-- The END mark of record `n` of recorder `k`, which carries TRUNC (R258). -/
def truncMark (k : Nat) (n : RecNow) (s : State) : List Byte :=
  markBytes k 3 (((recOf s k).prev).getD 0) (leBytes 4 n.first ++ leBytes 4 n.samples ++ leBytes 1 (b2n true + b2n n.gap * 2) ++ leBytes 2 n.secondary)

theorem truncMark_length (k : Nat) (n : RecNow) (s : State) : (truncMark k n s).length = 64 :=
  markBytes_length _ _ _ (by simp [leBytes])

/-- A record that is closed by STOP: its mark, then its entry. -/
theorem endRecord_trunc (k : Nat) (n : RecNow) (s : State) : endRecord k n true s = tableRecord k n true (ringPut k (truncMark k n s) s) := rfl

theorem recOf_tableRecord (k : Nat) (n : RecNow) (s : State) : recOf (tableRecord k n true s) k = { recOf s k with
    now := none, retained := [], gaps := [], dead := some 0, missedSince := 0, table := (recOf s k).table ++ [truncEntry n (wrPtr s k)] } := by
  rw [tableRecord, recOf_setIrq, recOf_updRec_same]
  rfl

/-- The recorder after STOP, with the record in progress closed. -/
def stopped (k : Nat) (s : State) : State := showRec k 4 (updRec k (fun r => { r with manual := false, starting := false }) s)

theorem recOf_stopped (k : Nat) (s : State) : recOf (stopped k s) k = { recOf s k with manual := false, starting := false } := by
  simp [stopped]

theorem stopped_mem (k : Nat) (s : State) : (stopped k s).mem = s.mem := rfl

theorem reg_stopped_ne (k : Nat) (s : State) {o : Nat} (hstat : o ≠ Off.REC_STAT) (hhold : o ≠ Off.HOLD_PTR) :
    reg (stopped k s) (pgCap k) o = reg s (pgCap k) o :=
  (reg_showRec_ne _ _ _ hstat hhold).trans (reg_updRec ..)

theorem stopped_onlyRecorder {k : Nat} {l : List (Nat × Nat)} {s : State} (hstat : (pgCap k, Off.REC_STAT) ∈ l)
    (hhold : (pgCap k, Off.HOLD_PTR) ∈ l) : OnlyRecorder k l s (stopped k s) :=
  (updRec_onlyRecorder _).trans (showRec_onlyRecorder _ hstat hhold)

/-- STOP of an enabled recorder. -/
theorem recStop_eq {s : State} {tid k : Nat} {now : Option RecNow} (hk : k < 8) (hj : judge s tid (pgCap k) Off.REC_CMD = .ok)
    (hen : recEn s k = true) (hnow : (recOf s k).now = now) :
    recStop tid k s = stopped k (match now with | some n => endRecord k n true (answered s) | none => answered s) := by
  have hen' : recEn (answered s) k = true := hen
  refine (recCommand_ok _ _ hk hj).trans ?_
  simp only [hen', Bool.not_true, Bool.false_eq_true, if_false, recOf_answered, hnow]
  cases now <;> rfl

/-- A record in progress that STOP closes: its entry, its interrupt, its mark in the ring, and nothing else. -/
theorem stopped_truncates (k : Nat) (n : RecNow) {s : State} (h : StateInv s) (hw : wrPtr s k < ringSizeOf s k) (hsize : 64 ≤ ringSizeOf s k) :
    let t := stopped k (endRecord k n true s)
    recState t k = 4 ∧ (recOf t k).now = none
      ∧ (recOf t k).table = (recOf s k).table ++ [truncEntry n ((wrPtr s k + 64) % ringSizeOf s k)]
      ∧ wrPtr t k = (wrPtr s k + 64) % ringSizeOf s k ∧ regBit t (pgCap k) Off.IRQ_STAT 0 = true
      ∧ (∀ x, (∀ i < 64, x ≠ ringBaseOf s k + (wrPtr s k + i) % ringSizeOf s k) → Memory.read t.mem x = Memory.read s.mem x)
      ∧ OnlyRecorder k ([Off.REC_STAT, Off.HOLD_PTR, Off.WR_PTR, Off.IRQ_STAT].map (fun o => (pgCap k, o))) s t := by
  intro t
  have hlen := truncMark_length k n s
  have hptr := wrPtr_ringPut k (truncMark k n s) (by omega : 0 < ringSizeOf s k)
  rw [hlen] at hptr
  have hrec : recOf t k = { recOf (endRecord k n true s) k with manual := false, starting := false } := recOf_stopped ..
  rw [endRecord_trunc, recOf_tableRecord, recOf_ringPut, hptr] at hrec
  have hput : OnlyRecorder k ([Off.REC_STAT, Off.HOLD_PTR, Off.WR_PTR, Off.IRQ_STAT].map (fun o => (pgCap k, o))) s
      (ringPut k (truncMark k n s) s) := ringPut_onlyRecorder _ (by simp)
  refine ⟨recState_showRec _ _ (by decide), by rw [hrec], by rw [hrec], ?_, ?_, ?_,
    ((hput.trans (updRec_onlyRecorder _)).trans (setIrq_onlyRecorder _ (by simp))).trans (stopped_onlyRecorder (by simp) (by simp))⟩
  · rw [← hptr, wrPtr, reg_stopped_ne _ _ (by decide) (by decide), endRecord_trunc, tableRecord,
      reg_setIrq_ne _ _ _ _ _ (pageAddr_off_ne _ (by decide)), reg_updRec, wrPtr]
  · rw [regBit, reg_stopped_ne _ _ (by decide) (by decide), endRecord_trunc, tableRecord, reg_setIrq_same]
    simp [bit]
  · intro x hx
    rw [stopped_mem, endRecord_trunc, tableRecord, setIrq_mem, updRec_mem]
    exact read_ringPut h hw (by omega) (by rwa [hlen])

/-! ### MTRIG and RELEASE (R253, R256, R260) -/

/-- MTRIG: the next sample fires, or the trigger is missed. -/
theorem manualTrig_eq {s : State} {tid k : Nat} (hk : k < 8) (hj : judge s tid (pgCap k) Off.REC_CMD = .ok) :
    manualTrig tid k s = if recState s k = 2 ∨ recState s k = 3 then updRec k (fun r => { r with manual := true }) (answered s)
      else missTrig k (answered s) := by
  refine (recCommand_ok _ _ hk hj).trans ?_
  simp only [Bool.or_eq_true, decide_eq_true_eq]
  rfl

/-- A missed trigger is counted and raises MISSED_TRIG; memory stays, and so does a manual trigger. -/
theorem missTrig_counts (k : Nat) (s : State) :
    let t := missTrig k s
    reg t (pgCap k) Off.MISSED = reg s (pgCap k) Off.MISSED + 1 ∧ regBit t (pgCap k) Off.IRQ_STAT 2 = true
      ∧ (recOf t k).manual = (recOf s k).manual ∧ t.mem = s.mem
      ∧ OnlyRecorder k [(pgCap k, Off.MISSED), (pgCap k, Off.IRQ_STAT)] s t := by
  refine ⟨?_, ?_, ?_, by simp [missTrig], ((updRec_onlyRecorder _).trans (countReg_onlyRecorder 1 (by decide) (by simp))).trans
    (setIrq_onlyRecorder 4 (by simp))⟩
  · rw [missTrig, reg_setIrq_ne _ _ _ _ _ (pageAddr_off_ne _ (by decide)), reg_countReg_same, reg_updRec]
    rfl
  · rw [regBit, missTrig, reg_setIrq_same]
    simp [bit]
  · rw [missTrig, recOf_setIrq, recOf_countReg, recOf_updRec_same]

/-- RELEASE of a recorder that does not wait for space: the oldest record is freed, and with none REL_BAD is set. -/
theorem recRelease_eq {s : State} {tid k : Nat} {table : List RecEntry} (hk : k < 8) (hj : judge s tid (pgCap k) Off.REC_CMD = .ok)
    (hwait : (recOf s k).starting = false) (htab : (recOf s k).table = table) :
    recRelease tid k s = match table with
      | [] => flagErr (pgCap k) 10 Off.REC_CMD tid true (answered s)
      | _ :: rest => showRec k (recState s k) (updRec k (fun r => { r with table := rest }) (answered s)) := by
  refine (recCommand_ok _ _ hk hj).trans ?_
  simp only [recOf_answered, htab]
  cases table with
  | nil => rfl
  | cons e rest => exact tryStart_settled (by simpa using hwait)

/-- The oldest record freed: the rest of the table stays and is counted, and the recorder keeps its state. -/
theorem released_shows (k : Nat) (rest : List RecEntry) (s : State) :
    let t := showRec k (recState s k) (updRec k (fun r => { r with table := rest }) s)
    (recOf t k).table = rest ∧ recState t k = recState s k ∧ regFld t (pgCap k) Off.REC_STAT 4 5 = rest.length % 2 ^ 5
      ∧ OnlyRecorder k [(pgCap k, Off.REC_STAT), (pgCap k, Off.HOLD_PTR)] s t :=
  ⟨by simp, recState_showRec _ _ (recState_lt s k), (recPending_showRec ..).trans (by rw [recOf_updRec_same]),
    (updRec_onlyRecorder _).trans (showRec_onlyRecorder _ (by simp) (by simp))⟩

/-! ### The statement -/

/-- Settles O46: each command is its named effect on the state with the access answered, and the rule of that effect gives the clause. -/
theorem recorderCommands : Obligations.recorder_commands := by
  unfold Obligations.recorder_commands
  refine ⟨?enabled, ?refused, ?disabled, ?start, ?stopIdle, ?stopRecord, ?mtrig, ?release⟩
  case enabled =>
    intro s tid k d hk hj hen hd hr
    refine reaches_next ((recCtrl_commit hk hj hen hd hr).trans (if_neg (by decide))) ?_
    obtain ⟨hon, hrec, hptr, hst, hres⟩ := recOn_starts k (setRegFld (answered s) (pgCap k) Off.REC_STAT 16 4 0)
    obtain ⟨hothers, hregs⟩ := (answered_onlyRecorder.trans (setReg_onlyRecorder _ (by decide) (by simp))).trans
      (recOn_onlyRecorder k (setRegFld (answered s) (pgCap k) Off.REC_STAT 16 4 0))
    have hfresh : freshState (setRegFld (answered s) (pgCap k) Off.REC_STAT 16 4 0) k = freshState s k :=
      freshState_congr (by rw [setRegFld, reg_setReg_off _ _ _ _ _ (by decide), reg_answered])
        (by rw [setRegFld, reg_setReg_off _ _ _ _ _ (by decide), reg_answered])
    have hshown : regFld (setRegFld (answered s) (pgCap k) Off.REC_STAT 16 4 0) (pgCap k) Off.REC_STAT 16 4 = 0 := by
      rw [regFld, setRegFld, reg_setReg_same, fld_setFld_same _ _ _ _ (by decide), Nat.zero_mod]
    exact ⟨hon, hrec, hptr, by rw [hst, hfresh, freshState_eq], hres.trans hshown, hothers, hregs, fun x => by simp [recOn_mem]⟩
  case refused =>
    intro s tid k r d hk hj hen hd hr h0
    obtain ⟨hresp, hoff, hshows⟩ := refusedRec_shows k tid (hr ▸ recResult_lt s k) s
    exact reaches_next ((recCtrl_commit hk hj hen hd hr).trans (if_pos h0)) ⟨hresp, hoff.trans hen, hshows⟩
  case disabled =>
    intro s tid k d hk hj hen hd
    obtain ⟨hoff, hst, hrec⟩ := recOff_stops k (answered s)
    obtain ⟨hothers, hregs⟩ := answered_onlyRecorder.trans (recOff_onlyRecorder k (answered s))
    exact reaches_next (recCtrl_disable hk hj hen hd) ⟨hoff, hst, hrec, hothers, hregs, fun x => by simp [recOff_mem]⟩
  case start =>
    intro s tid k hk hj hen hst
    refine reaches_next (recStart_eq hk hj hen hst) ?_
    have hfree : ringFree (waiting k (answered s)) k = ringFree s k := ringFree_waiting k (answered s)
    have hnch : recNch (waiting k (answered s)) k = recNch s k := congrArg (fld · 16 9) (reg_updRec (answered s) k _ _ _)
    have hst' : recState (waiting k (answered s)) k = recState s k := recState_updRec (answered s) k _ k
    obtain ⟨htab, hmem, hframe⟩ := tryStart_keeps k (waiting k (answered s))
    obtain ⟨hothers, hregs⟩ := (answered_onlyRecorder.trans (updRec_onlyRecorder _)).trans hframe
    refine ⟨fun hroom => ?_, fun hfull => ?_, htab.trans (by simp [waiting]), hothers, hregs, fun x => by rw [hmem]; rfl⟩
    · have hfresh : freshState (waiting k (answered s)) k = freshState s k := freshState_congr (reg_updRec ..) (reg_updRec ..)
      rw [tryStart_resumes (by simp [waiting]) (hst'.symm ▸ hst) (by rwa [hfree, hnch]), hfresh]
      exact ⟨by simp, (recState_showRec _ _ (freshState_lt s k)).trans (freshState_eq s k)⟩
    · rw [tryStart_full (by rwa [hfree, hnch])]
      exact ⟨by simp [waiting], hst'⟩
  case stopIdle =>
    intro s tid k hk hj hen hnow
    obtain ⟨hothers, hregs⟩ := (answered_onlyRecorder (k := k) (s := s)).trans
      (stopped_onlyRecorder (l := [(pgCap k, Off.REC_STAT), (pgCap k, Off.HOLD_PTR)]) (by simp) (by simp))
    exact reaches_next (recStop_eq hk hj hen hnow) ⟨recState_showRec _ _ (by decide), recOf_stopped .., hothers, hregs, fun _ => rfl⟩
  case stopRecord =>
    intro s tid k n hk hj hen hnow hinv hw hsize
    refine reaches_next (recStop_eq hk hj hen hnow) ?_
    obtain ⟨hst, hnone, htab, hptr, hirq, hmem, hframe⟩ := stopped_truncates k n (s := answered s) hinv hw hsize
    obtain ⟨hothers, hregs⟩ := answered_onlyRecorder.trans hframe
    exact ⟨hst, hnone, htab, hptr, hirq, hmem, hothers, hregs⟩
  case mtrig =>
    intro s tid k hk hj
    refine reaches_next (manualTrig_eq hk hj) ?_
    by_cases hst : recState s k = 2 ∨ recState s k = 3
    · rw [if_pos hst]
      obtain ⟨hothers, hregs⟩ := (answered_onlyRecorder (k := k) (l := []) (s := s)).trans (updRec_onlyRecorder fun r => { r with manual := true })
      exact ⟨fun _ => ⟨by simp, hregs⟩, fun h2 h3 => absurd hst (not_or.mpr ⟨h2, h3⟩), hothers, fun _ => rfl⟩
    · rw [if_neg hst]
      obtain ⟨hcount, hirq, hman, hmem, hframe⟩ := missTrig_counts k (answered s)
      obtain ⟨hothers, hregs⟩ := answered_onlyRecorder.trans hframe
      exact ⟨fun h => absurd h hst, fun _ _ => ⟨hcount, hirq, hman, hregs⟩, hothers, fun x => by rw [hmem]; rfl⟩
  case release =>
    intro s tid k hk hj hwait
    cases htab : (recOf s k).table with
    | nil =>
      refine reaches_next (recRelease_eq hk hj hwait htab) ⟨nofun, fun _ => ⟨by simp, regBit_flagErr _ _ _ _ _ _ (by decide)⟩, ?_, fun x => by simp⟩
      exact fun j _ => recOf_congr (by simp) j
    | cons e rest =>
      refine reaches_next (recRelease_eq hk hj hwait htab) ?_
      obtain ⟨hrest, hst, hpending, hframe⟩ := released_shows k rest (answered s)
      obtain ⟨hothers, hregs⟩ := answered_onlyRecorder.trans hframe
      refine ⟨fun e' rest' h => ?_, nofun, hothers, fun _ => rfl⟩
      obtain ⟨-, rfl⟩ := List.cons.inj h
      exact ⟨hrest, hst, hpending, hregs⟩

end Sys2Proof.Machine
end
